-- ==== Sys2Proof/Word.lean ====
section
/-!
DEFINITION. The words of the F840: bytes and the little-endian words that descriptors, completions, events and
registers are made of (spec/00_scope.md R7). Counts, times and sizes are `Nat`; only what the manual treats as bits
is a bit vector.
-/
namespace Sys2Proof

/-- A byte of host memory, of a journal slot or of a halyard frame. -/
abbrev Byte := BitVec 8

/-- A 16-bit field (tag of a descriptor, family of a tag). -/
abbrev W16 := BitVec 16

/-- A BAR0 register, a hoist word, the object field of a descriptor. -/
abbrev W32 := BitVec 32

/-- An operand or a result of a descriptor, the value V of a counter. -/
abbrev W64 := BitVec 64

/-- A 128-bit key or challenge of a tag. -/
abbrev W128 := BitVec 128

/-- A 256-bit key or hash (spec/04_journal_flash.md R99, spec/11_power_clock_startup.md R309). -/
abbrev W256 := BitVec 256

/-- A seed entry of NSU (spec/10_random.md R266). -/
abbrev W384 := BitVec 384

end Sys2Proof
end

