-- ==== Sys2Proof/Syntax.lean ====
section
/-!
DEFINITION. The commands of the F840: one constructor of `Instr` for each row of spec/opcode_table.json, with the
operands its happening has. `t` is the device time (CLK since PLL lock) at which it happens (notes/assumptions/1.md); `k` is the
fetch number of an operation, `hw` what the host has written to its memory by then (notes/assumptions/3.md). What
tags, supplies and tested blocks answer comes as operands (DEDUCED: notes/assumptions/78.md).
-/
namespace Sys2Proof

/-- Bytes the host has written to its memory, as (address, byte) pairs. -/
abbrev HostWrites := List (Nat × Byte)

/-- The sensed line current of an answer phase in µA, a sample every 64 CLK (spec/08_halyard_line.md R217): the 128 samples of the last
2 T_b of the turnaround before it, and for each uplink byte the samples from the rising crossing of 2.0 V that ends its mark on. -/
structure Uplink where
  turnaround : List Nat
  bytes : List (List Nat)
deriving DecidableEq, Repr

/-- An uncorrectable word of CTT (spec/05_durability_recovery.md R160). -/
inductive BadWord where
  | leaf (n : Nat)
  | shadow (n : Nat)
  | group (g : Nat)
  | sect (k : Nat)
  /-- so many root copies are unreadable -/
  | root (copies : Nat)
  /-- so many copies of a counter's indirection entry are unreadable -/
  | indirection (n copies : Nat)
deriving DecidableEq, Repr

/-- What a slot's bytes are when it is read (spec/04_journal_flash.md R96). -/
inductive SlotFound where
  /-- as they were programmed -/
  | same
  /-- other bytes, a fault of the medium that its code does not show -/
  | other (bytes : List Byte)
  /-- a group is uncorrectable -/
  | unreadable
deriving DecidableEq, Repr

/-- The read of one journal slot that does not simply give what was programmed: the 8-byte groups in which a single bit was corrected,
and what the slot gave (spec/04_journal_flash.md R96, R100). -/
structure SlotRead where
  bank : Nat
  sector : Nat
  slot : Nat
  corrected : List Nat
  found : SlotFound
deriving DecidableEq, Repr

/-- What HMU and the sensors measure for a daily or a sample taken now (spec/12_health_selftest.md R314, R316): the two
oscillator counts of AG0-AG7 over 2^20 CLK, (unstressed, stressed), and the junction temperatures of the day. -/
structure Measures where
  ag : List (Nat × Nat)
  tempMax : Byte
  tempMean : Byte
  hotSeconds : Nat
deriving DecidableEq, Repr

/-- What the blocks of a BIST answer (spec/12_health_selftest.md R325, R326, R327): the steps that failed, the sources that
failed step 16, the unreadable slots, the measured power and duration. -/
structure BistOutcome where
  failed : List Nat
  sources : Nat
  unreadable : Nat
  peakMw : Nat
  duration : Nat
deriving DecidableEq, Repr

/-- The two health tests of a noise source (spec/10_random.md R263). -/
inductive HealthTest where
  | rct
  | apt
deriving DecidableEq, Repr

/-- A command: one row of spec/opcode_table.json. -/
inductive Instr where
  -- operations of the host (spec/02_host_rings.md R60)
  | qpCreate (t k : Nat)
  | qpDelete (t k : Nat)
  | identify (t k : Nat)
  | shutdownPrepare (t k : Nat)
  | timeSet (t k : Nat)
  | fwStage (t k : Nat) (hw : HostWrites)
  | fwActivate (t k : Nat) (readable : Bool)
  | familyKeyLoad (t k : Nat) (hw : HostWrites)
  | domainSet (t k : Nat)
  | unknownOpcode (t k : Nat)
  | ctrCreate (t k : Nat)
  | ctrRead (t k : Nat) (bad : List BadWord)
  | ctrAdvance (t k : Nat) (bad : List BadWord)
  | ctrReserve (t k : Nat) (bad : List BadWord)
  | ctrRaise (t k : Nat) (bad : List BadWord)
  | ctrClose (t k : Nat)
  | ctrReclass (t k : Nat)
  | ctrGroupRead (t k : Nat) (bad : List BadWord)
  | kidAlloc (t k : Nat)
  | kidSpliceBegin (t k : Nat)
  | kidFlushed (t k : Nat)
  | kidSpliceCommit (t k : Nat)
  | kidRead (t k : Nat)
  | faultReport (t k : Nat)
  | hySlate (t k : Nat)
  | tagAuth (t k : Nat)
  | tagConsume (t k : Nat)
  | tagRead (t k : Nat)
  | tagSide (t k : Nat)
  | portPower (t k : Nat)
  | drbgInstantiate (t k : Nat) (hw : HostWrites)
  | drbgGenerate (t k : Nat) (hw : HostWrites)
  | drbgReseed (t k : Nat) (hw : HostWrites)
  | drbgUninstantiate (t k : Nat)
  | paramRead (t k : Nat) (corrected uncorrectable : List Nat)
  | paramWrite (t k : Nat) (hw : HostWrites)
  | paramSync (t k : Nat)
  | healthRead (t k : Nat) (m : Measures)
  | eolRead (t k : Nat)
  | maintStart (t k : Nat)
  | maintStatus (t k : Nat)
  | placementReport (t k : Nat)
  -- HIF (spec/02_host_rings.md)
  | poll (t : Nat) (hw : HostWrites)
  | tailWordScan (t : Nat) (hw : HostWrites)
  | descriptorFetch (t : Nat) (hw : HostWrites)
  | fenceDispatch (t q : Nat)
  | descriptorReadFail (t : Nat)
  | hoistReadFail (t : Nat)
  | coalescingTime (t : Nat) (q : Option Nat)
  | hifReset (t : Nat) (linkDown : Bool)
  -- ends of waits, timers
  | energyWaitTimeout (t k : Nat)
  | capRecompute (t vhold : Nat)
  | spliceTimeout (t k : Nat)
  | faultStorm (t : Nat)
  | randomWaitTimeout (t k : Nat)
  -- journal
  | slotProgramVerify (t bank : Nat) (passed : Bool)
  | sectorEraseDone (t bank sector : Nat) (erased : Bool) (duration : Nat)
  -- placement, the counter tree
  | placementWindow (t : Nat)
  | looseMove (t n : Nat)
  | boundedMove (t : Nat)
  | ceilingStepUpdate (t : Nat)
  | cttScrub (t corrected : Nat) (bad : List BadWord)
  -- time, dailies
  | poweredOnSecond (t : Nat)
  | calendarRecord (t : Nat)
  | dailyCollection (t : Nat) (m : Measures)
  -- maintenance
  | capMeasureFirst (t : Nat)
  | maintActivityStart (t : Nat)
  | blockDrained (t : Nat)
  | bistBlockDone (t failedStep peakMw unreadable : Nat)
  | bistBlockDeferred (t : Nat)
  | compactSlice (t : Nat) (reads : List SlotRead)
  | refreshScanSector (t bank sector weak : Nat) (reads : List SlotRead)
  | capMeasureDrawEnd (t fall step : Nat)
  | capMeasureGapEnd (t : Nat)
  -- power, resets, clock
  | powerWarn (t vin vhold : Nat)
  | powerHoldup (t vin vhold : Nat)
  | flushComplete (t : Nat)
  | vinWarningClear (t : Nat)
  | vinResume (t vhold : Nat)
  | vholdReset (t : Nat)
  | vholdFull (t : Nat)
  | chargerRestart (t : Nat)
  | chargerEnable (t vin : Nat)
  | vinOvervoltage (t vin : Nat)
  | monitorCrossing (t object level : Nat)
  | internalRailReset (t object level : Nat)
  | resetN (t : Nat)
  | watchdog (t pair : Nat)
  | lockstepMismatch (t pair : Nat)
  | referenceLost (t : Nat)
  | referenceReturned (t : Nat)
  | relock (t : Nat)
  -- the start
  | start (t vin vhold : Nat)
  | pllLock (t : Nat) (fusesOk : Bool) (reads : List SlotRead)
  | calibrationDone (t : Nat)
  | quickCapacitanceCheck (t vhold : Nat)
  | quickCapacitanceCheckEnd (t fall step vhold : Nat)
  | journalReplayDone (t : Nat) (reads : List SlotRead)
  | startBistDone (t : Nat) (o : BistOutcome)
  | treeRebuildDone (t : Nat)
  | startSessionOpen (t : Nat)
  | holdupCheckTimeout (t : Nat)
  | holdupCheckRepeat (t vhold : Nat)
  -- NSU and DRB
  | nsuSettleDone (t : Nat)
  | sourceStartupTestDone (t src : Nat) (alarms : List Nat)
  | healthTestAlarm (t src : Nat) (test : HealthTest) (count sample : Nat)
  | aptWindowClose (t src : Nat)
  | entryWindowBoundary (t : Nat) (classS : Bool) (samples : List (Nat × Nat))
  | sourceExchange (t : Nat)
  | internalDrbgReseed (t i : Nat)
  | drbgAutoReseed (t : Nat)
  -- halyards
  | statusSweepDue (t p : Nat)
  | authDue (t p i : Nat)
  | statusAnswer (t p : Nat) (slots : Uplink) (presence : List Nat)
  | assignAnswer (t p : Nat) (up : Uplink)
  | selectAnswer (t p : Nat) (up : Uplink)
  | identityAnswer (t p : Nat) (up : Uplink)
  | authAnswer (t p : Nat) (up : Uplink)
  | consumeAnswer (t p : Nat) (up : Uplink)
  | readLimitAnswer (t p : Nat) (up : Uplink)
  | takeRetry (t p : Nat)
  | sweepRepeat (t p : Nat)
  | staleSlateRetry (t p : Nat)
  | portCharged (t p : Nat)
  | portFaultTimer (t p : Nat)
  | overcurrent (t p : Nat)
  -- self-test, registers
  | shutdownBistDone (t : Nat) (o : BistOutcome)
  | ctrlSoftReset (t : Nat) (value : W32)
  | statusSetupErrorClear (t : Nat) (value : W32)
  | basePairWrite (t offset : Nat) (wide : Bool) (value : W64)
  | adminSizesWrite (t : Nat) (value : W32)
  | eventRingSizeWrite (t : Nat) (value : W32)
  | pollPeriodWrite (t : Nat) (value : W32)
  | msixCfgWrite (t : Nat) (value : W32)
  | monThreshWrite (t : Nat) (b : Bool) (value : W32) (levels : List Nat)
  | portEnableWrite (t : Nat) (hi : Bool) (value : W32)
  | halyardCfgWrite (t : Nat) (value : W32)
  | timeLoRead (t requester : Nat) (wide : Bool)
  | timeHiRead (t requester : Nat) (between : Bool)
  | debugLockUnlock (t : Nat) (value : W32)
  | tapUnlock (t : Nat)
  | registerWrite (t offset width : Nat) (value : W64)
  | linkUp (t : Nat)
deriving DecidableEq, Repr

end Sys2Proof
end

