-- ==== Sys2Proof/Machine/Bytes.lean ====
section
/-!
DEFINITION. Little-endian fields (spec/00_scope.md R7) and lists kept by number: what every file of the machine builds on.
-/
namespace Sys2Proof.Machine

/-! ### Little-endian fields (R7) -/

/-- The low `n` bytes of a number, byte 0 first (R7). -/
def leBytes : Nat → Nat → List Byte
  | 0, _ => []
  | n + 1, v => BitVec.ofNat 8 v :: leBytes n (v / 256)

/-- The number that bytes spell, byte 0 holding bits [7:0] (R7). -/
def leNat : List Byte → Nat
  | [] => 0
  | b :: bs => b.toNat + 256 * leNat bs

/-- Bits [lo + width − 1 : lo] of a number. -/
def bitsOf (v lo width : Nat) : Nat := v / 2 ^ lo % 2 ^ width

/-- A field of so many bytes at an offset of a byte string (R7). -/
def fieldAt (bs : List Byte) (offset size : Nat) : Nat := leNat ((bs.drop offset).take size)

/-- A field whose largest value stands for every larger one. -/
def saturate (v limit : Nat) : Nat := if v < limit then v else limit

/-- 1 for true, as a field of a report. -/
def bit (b : Bool) : Nat := if b then 1 else 0

/-- A byte string brought to `n` bytes, with zero bytes behind. -/
def padTo (n : Nat) (bs : List Byte) : List Byte := (bs ++ List.replicate n 0).take n

/-- 2^64 − 1, the top of a counter's range (R63). -/
def maxV : Nat := 2 ^ 64 - 1

/-! ### Lists kept by number -/

/-- The list with `f` applied to the members that satisfy `p`. -/
def modWhere {α : Type} (p : α → Bool) (f : α → α) (l : List α) : List α :=
  l.map fun x => if p x then f x else x

/-- The list with its `i`-th member changed. -/
def modNth {α : Type} (f : α → α) : Nat → List α → List α
  | _, [] => []
  | 0, x :: l => f x :: l
  | i + 1, x :: l => x :: modNth f i l

/-- The `i`-th member, or a default. -/
def nthOr {α : Type} (d : α) : Nat → List α → α
  | _, [] => d
  | 0, x :: _ => x
  | i + 1, _ :: l => nthOr d i l

/-- A member put into a list in ascending order of its number. -/
def insertBy {α : Type} (num : α → Nat) (x : α) : List α → List α
  | [] => [x]
  | y :: l => if num x < num y then x :: y :: l else y :: insertBy num x l

/-- The member with the smallest value of `f`, the earliest on a tie. (DESIGN CHOICE: notes/assumptions/12.md) -/
def minBy {α : Type} (f : α → Nat) : List α → Option α
  | [] => none
  | x :: l =>
    match minBy f l with
    | none => some x
    | some y => if f y < f x then some y else some x

/-- The member with the largest value of `f`, the earliest on a tie. -/
def maxBy {α : Type} (f : α → Nat) : List α → Option α
  | [] => none
  | x :: l =>
    match maxBy f l with
    | none => some x
    | some y => if f x < f y then some y else some x

/-- The members in ascending order of a number, the given order on ties. -/
def sortBy {α : Type} (num : α → Nat) : List α → List α
  | [] => []
  | x :: l => place x (sortBy num l)
where
  place (x : α) : List α → List α
    | [] => [x]
    | y :: l => if num x ≤ num y then x :: y :: l else y :: place x l

/-- The distance between two cells: |x − y|. -/
def distance (x y : Nat) : Nat := if x < y then y - x else x - y

/-- The last `n` members of a list. -/
def lastN {α : Type} (n : Nat) (l : List α) : List α := l.drop (l.length - n)

end Sys2Proof.Machine
end

