-- ==== Sys2Proof/Machine/Aes.lean ====
section
/-!
DEFINITION. The symmetric cryptography the manual names: AES-128 and AES-256 (FIPS 197), CMAC (SP 800-38B), key wrap (SP 800-38F),
Block_cipher_df and CTR_DRBG (SP 800-90A). They form the journal's MACs (spec/04_journal_flash.md R99), the keys, MACs and built
challenges of the halyards (spec/09_halyard_chains.md R243, R245, R246), the seed entries (spec/10_random.md R266) and the DRBGs
(R278). The manual names the standards; their text is taken from outside it (PRESUMED, notes/assumptions/5.md).
Bytes are numbers below 256, in the order of the standards.
-/
namespace Sys2Proof.Machine

/-! ### AES (FIPS 197) -/

/-- The rows of the S-box (FIPS 197). -/
def sboxRows : List (List Nat) := [
  [0x63, 0x7C, 0x77, 0x7B, 0xF2, 0x6B, 0x6F, 0xC5, 0x30, 0x01, 0x67, 0x2B, 0xFE, 0xD7, 0xAB, 0x76],
  [0xCA, 0x82, 0xC9, 0x7D, 0xFA, 0x59, 0x47, 0xF0, 0xAD, 0xD4, 0xA2, 0xAF, 0x9C, 0xA4, 0x72, 0xC0],
  [0xB7, 0xFD, 0x93, 0x26, 0x36, 0x3F, 0xF7, 0xCC, 0x34, 0xA5, 0xE5, 0xF1, 0x71, 0xD8, 0x31, 0x15],
  [0x04, 0xC7, 0x23, 0xC3, 0x18, 0x96, 0x05, 0x9A, 0x07, 0x12, 0x80, 0xE2, 0xEB, 0x27, 0xB2, 0x75],
  [0x09, 0x83, 0x2C, 0x1A, 0x1B, 0x6E, 0x5A, 0xA0, 0x52, 0x3B, 0xD6, 0xB3, 0x29, 0xE3, 0x2F, 0x84],
  [0x53, 0xD1, 0x00, 0xED, 0x20, 0xFC, 0xB1, 0x5B, 0x6A, 0xCB, 0xBE, 0x39, 0x4A, 0x4C, 0x58, 0xCF],
  [0xD0, 0xEF, 0xAA, 0xFB, 0x43, 0x4D, 0x33, 0x85, 0x45, 0xF9, 0x02, 0x7F, 0x50, 0x3C, 0x9F, 0xA8],
  [0x51, 0xA3, 0x40, 0x8F, 0x92, 0x9D, 0x38, 0xF5, 0xBC, 0xB6, 0xDA, 0x21, 0x10, 0xFF, 0xF3, 0xD2],
  [0xCD, 0x0C, 0x13, 0xEC, 0x5F, 0x97, 0x44, 0x17, 0xC4, 0xA7, 0x7E, 0x3D, 0x64, 0x5D, 0x19, 0x73],
  [0x60, 0x81, 0x4F, 0xDC, 0x22, 0x2A, 0x90, 0x88, 0x46, 0xEE, 0xB8, 0x14, 0xDE, 0x5E, 0x0B, 0xDB],
  [0xE0, 0x32, 0x3A, 0x0A, 0x49, 0x06, 0x24, 0x5C, 0xC2, 0xD3, 0xAC, 0x62, 0x91, 0x95, 0xE4, 0x79],
  [0xE7, 0xC8, 0x37, 0x6D, 0x8D, 0xD5, 0x4E, 0xA9, 0x6C, 0x56, 0xF4, 0xEA, 0x65, 0x7A, 0xAE, 0x08],
  [0xBA, 0x78, 0x25, 0x2E, 0x1C, 0xA6, 0xB4, 0xC6, 0xE8, 0xDD, 0x74, 0x1F, 0x4B, 0xBD, 0x8B, 0x8A],
  [0x70, 0x3E, 0xB5, 0x66, 0x48, 0x03, 0xF6, 0x0E, 0x61, 0x35, 0x57, 0xB9, 0x86, 0xC1, 0x1D, 0x9E],
  [0xE1, 0xF8, 0x98, 0x11, 0x69, 0xD9, 0x8E, 0x94, 0x9B, 0x1E, 0x87, 0xE9, 0xCE, 0x55, 0x28, 0xDF],
  [0x8C, 0xA1, 0x89, 0x0D, 0xBF, 0xE6, 0x42, 0x68, 0x41, 0x99, 0x2D, 0x0F, 0xB0, 0x54, 0xBB, 0x16]]

/-- The S-box (FIPS 197). -/
def sbox (x : Nat) : Nat := nthOr 0 (x % 16) (nthOr [] (x / 16) sboxRows)

/-- The rows of the inverse S-box (FIPS 197). -/
def invSboxRows : List (List Nat) := [
  [0x52, 0x09, 0x6A, 0xD5, 0x30, 0x36, 0xA5, 0x38, 0xBF, 0x40, 0xA3, 0x9E, 0x81, 0xF3, 0xD7, 0xFB],
  [0x7C, 0xE3, 0x39, 0x82, 0x9B, 0x2F, 0xFF, 0x87, 0x34, 0x8E, 0x43, 0x44, 0xC4, 0xDE, 0xE9, 0xCB],
  [0x54, 0x7B, 0x94, 0x32, 0xA6, 0xC2, 0x23, 0x3D, 0xEE, 0x4C, 0x95, 0x0B, 0x42, 0xFA, 0xC3, 0x4E],
  [0x08, 0x2E, 0xA1, 0x66, 0x28, 0xD9, 0x24, 0xB2, 0x76, 0x5B, 0xA2, 0x49, 0x6D, 0x8B, 0xD1, 0x25],
  [0x72, 0xF8, 0xF6, 0x64, 0x86, 0x68, 0x98, 0x16, 0xD4, 0xA4, 0x5C, 0xCC, 0x5D, 0x65, 0xB6, 0x92],
  [0x6C, 0x70, 0x48, 0x50, 0xFD, 0xED, 0xB9, 0xDA, 0x5E, 0x15, 0x46, 0x57, 0xA7, 0x8D, 0x9D, 0x84],
  [0x90, 0xD8, 0xAB, 0x00, 0x8C, 0xBC, 0xD3, 0x0A, 0xF7, 0xE4, 0x58, 0x05, 0xB8, 0xB3, 0x45, 0x06],
  [0xD0, 0x2C, 0x1E, 0x8F, 0xCA, 0x3F, 0x0F, 0x02, 0xC1, 0xAF, 0xBD, 0x03, 0x01, 0x13, 0x8A, 0x6B],
  [0x3A, 0x91, 0x11, 0x41, 0x4F, 0x67, 0xDC, 0xEA, 0x97, 0xF2, 0xCF, 0xCE, 0xF0, 0xB4, 0xE6, 0x73],
  [0x96, 0xAC, 0x74, 0x22, 0xE7, 0xAD, 0x35, 0x85, 0xE2, 0xF9, 0x37, 0xE8, 0x1C, 0x75, 0xDF, 0x6E],
  [0x47, 0xF1, 0x1A, 0x71, 0x1D, 0x29, 0xC5, 0x89, 0x6F, 0xB7, 0x62, 0x0E, 0xAA, 0x18, 0xBE, 0x1B],
  [0xFC, 0x56, 0x3E, 0x4B, 0xC6, 0xD2, 0x79, 0x20, 0x9A, 0xDB, 0xC0, 0xFE, 0x78, 0xCD, 0x5A, 0xF4],
  [0x1F, 0xDD, 0xA8, 0x33, 0x88, 0x07, 0xC7, 0x31, 0xB1, 0x12, 0x10, 0x59, 0x27, 0x80, 0xEC, 0x5F],
  [0x60, 0x51, 0x7F, 0xA9, 0x19, 0xB5, 0x4A, 0x0D, 0x2D, 0xE5, 0x7A, 0x9F, 0x93, 0xC9, 0x9C, 0xEF],
  [0xA0, 0xE0, 0x3B, 0x4D, 0xAE, 0x2A, 0xF5, 0xB0, 0xC8, 0xEB, 0xBB, 0x3C, 0x83, 0x53, 0x99, 0x61],
  [0x17, 0x2B, 0x04, 0x7E, 0xBA, 0x77, 0xD6, 0x26, 0xE1, 0x69, 0x14, 0x63, 0x55, 0x21, 0x0C, 0x7D]]

/-- The inverse S-box (FIPS 197). -/
def invSbox (x : Nat) : Nat := nthOr 0 (x % 16) (nthOr [] (x / 16) invSboxRows)

/-- Multiplication by x in the field of AES. -/
def xtime (x : Nat) : Nat := if x < 128 then 2 * x else Nat.xor (2 * x) 0x11B

/-- Two byte strings added bit by bit. -/
def xorBytes (a b : List Nat) : List Nat := (a.zip b).map fun p => Nat.xor p.1 p.2

/-- One column of MixColumns. -/
def mixColumn : List Nat → List Nat
  | [a, b, c, d] =>
    let all := Nat.xor (Nat.xor a b) (Nat.xor c d)
    [Nat.xor (Nat.xor a all) (xtime (Nat.xor a b)), Nat.xor (Nat.xor b all) (xtime (Nat.xor b c)),
     Nat.xor (Nat.xor c all) (xtime (Nat.xor c d)), Nat.xor (Nat.xor d all) (xtime (Nat.xor d a))]
  | other => other

/-- MixColumns of 16 bytes. -/
def mixColumns (st : List Nat) : List Nat :=
  (List.range 4).flatMap fun c => mixColumn ((st.drop (4 * c)).take 4)

/-- One column of InvMixColumns: four times the sums of the bytes two apart, added before MixColumns. -/
def unmixColumn : List Nat → List Nat
  | [a, b, c, d] =>
    let u := xtime (xtime (Nat.xor a c))
    let v := xtime (xtime (Nat.xor b d))
    mixColumn [Nat.xor a u, Nat.xor b v, Nat.xor c u, Nat.xor d v]
  | other => other

/-- InvMixColumns of 16 bytes. -/
def unmixColumns (st : List Nat) : List Nat :=
  (List.range 4).flatMap fun c => unmixColumn ((st.drop (4 * c)).take 4)

/-- ShiftRows of 16 bytes. -/
def shiftRows (st : List Nat) : List Nat :=
  (List.range 16).map fun i => nthOr 0 ((i + 4 * (i % 4)) % 16) st

/-- InvShiftRows of 16 bytes. -/
def unshiftRows (st : List Nat) : List Nat :=
  (List.range 16).map fun i => nthOr 0 ((i + 12 * (i % 4)) % 16) st

/-- The last word of the key words before, rotated, substituted, with the round constant. -/
def rotSub (rcon : Nat) : List Nat → List Nat
  | [a, b, c, d] => [Nat.xor (sbox b) rcon, sbox c, sbox d, sbox a]
  | other => other

/-- Four key words from the four before and the word t added to the first of them. -/
def fourWords (k t : List Nat) : List Nat :=
  let n0 := xorBytes (k.take 4) t
  let n1 := xorBytes ((k.drop 4).take 4) n0
  let n2 := xorBytes ((k.drop 8).take 4) n1
  n0 ++ n1 ++ n2 ++ xorBytes ((k.drop 12).take 4) n2

/-- The next key words: as many as the key has. -/
def nextWords (k : List Nat) (rcon : Nat) : List Nat :=
  let low := fourWords k (rotSub rcon (k.drop (k.length - 4)))
  if k.length = 32 then low ++ fourWords (k.drop 16) ((low.drop 12).map sbox) else low

/-- Bytes cut into blocks of 16, at most so many. -/
def blocksOf : Nat → List Nat → List (List Nat)
  | 0, _ => []
  | n + 1, bs => bs.take 16 :: blocksOf n (bs.drop 16)

/-- The key words one after another: so many steps beyond the key. -/
def keyWords : Nat → Nat → List Nat → List Nat
  | 0, _, k => k
  | n + 1, rcon, k => k ++ keyWords n (xtime rcon) (nextWords k rcon)

/-- The round keys: 11 of a 128-bit key, 15 of a 256-bit key. -/
def roundKeys (key : List Nat) : List (List Nat) :=
  if key.length = 32 then blocksOf 15 (keyWords 7 1 key) else blocksOf 11 (keyWords 10 1 key)

/-- The rounds after the first key addition; the last one has no MixColumns. -/
def rounds : List (List Nat) → List Nat → List Nat
  | [], st => st
  | [k], st => xorBytes (shiftRows (st.map sbox)) k
  | k :: ks, st => rounds ks (xorBytes (mixColumns (shiftRows (st.map sbox))) k)

/-- One block enciphered under round keys. -/
def cipher : List (List Nat) → List Nat → List Nat
  | [], block => block
  | k :: ks, block => rounds ks (xorBytes block k)

/-- The rounds of the inverse cipher, the round keys from the last but one to the first. -/
def unrounds : List (List Nat) → List Nat → List Nat
  | [], st => st
  | [k], st => xorBytes ((unshiftRows st).map invSbox) k
  | k :: ks, st => unrounds ks (unmixColumns (xorBytes ((unshiftRows st).map invSbox) k))

/-- One block deciphered under round keys given from the last to the first. -/
def decipher : List (List Nat) → List Nat → List Nat
  | [], block => block
  | k :: ks, block => unrounds ks (xorBytes block k)

/-- AES of one block under a key of 16 or 32 bytes. (PRESUMED: notes/assumptions/5.md) -/
def aes (key block : List Nat) : List Nat := cipher (roundKeys key) block

/-! ### CMAC (SP 800-38B) -/

/-- The number that bytes spell, the first byte the highest. -/
def beNat (bs : List Nat) : Nat := bs.foldl (fun v x => 256 * v + x) 0

/-- The n bytes of a number, the highest first. -/
def beBytes (n v : Nat) : List Nat := (List.range n).map fun i => v / 256 ^ (n - 1 - i) % 256

/-- A block doubled in the field of CMAC (SP 800-38B subkeys). -/
def doubleBlock (b : List Nat) : List Nat :=
  let n := beNat b
  beBytes 16 (if 2 ^ 127 ≤ n then Nat.xor (2 * n % 2 ^ 128) 0x87 else 2 * n)

/-- The chained blocks of CMAC; the last one takes a subkey. -/
def cmacBlocks (rks : List (List Nat)) (k1 k2 : List Nat) : Nat → List Nat → List Nat → List Nat
  | 0, state, msg =>
    let last := if msg.length = 16 then xorBytes msg k1
      else xorBytes (msg ++ [0x80] ++ List.replicate (15 - msg.length) 0) k2
    cipher rks (xorBytes state last)
  | n + 1, state, msg => cmacBlocks rks k1 k2 n (cipher rks (xorBytes state (msg.take 16))) (msg.drop 16)

/-- AES-CMAC of a message under a key of 16 or 32 bytes, 16 bytes in output order. -/
def cmac (key msg : List Nat) : List Nat :=
  let rks := roundKeys key
  let k1 := doubleBlock (cipher rks (List.replicate 16 0))
  cmacBlocks rks k1 (doubleBlock k1) ((msg.length - 1) / 16) (List.replicate 16 0) msg

/-- Model bytes as numbers. -/
def toNats (bs : List Byte) : List Nat := bs.map fun b => b.toNat

/-- Numbers as model bytes. -/
def ofNats (ns : List Nat) : List Byte := ns.map fun n => BitVec.ofNat 8 n

/-- AES-CMAC over model bytes (R99, R243). -/
def cmacBytes (key msg : List Byte) : List Byte := ofNats (cmac (toNats key) (toNats msg))

/-! ### Key wrap (SP 800-38F, KW) -/

/-- The integrity check value of KW. -/
def wrapCheck : List Nat := List.replicate 8 0xA6

/-- Steps t, t + 1, … of the wrapping function, so many. -/
def wrapSteps (rks : List (List Nat)) : Nat → Nat → List Nat → List Nat → List Nat
  | 0, _, a, r => a ++ r
  | n + 1, t, a, r =>
    let e := cipher rks (a ++ r.take 8)
    wrapSteps rks n (t + 1) (xorBytes (e.take 8) (beBytes 8 t)) (r.drop 8 ++ e.drop 8)

/-- KW of a plaintext of whole 8-byte blocks. -/
def wrapKey (key plain : List Byte) : List Byte :=
  ofNats (wrapSteps (roundKeys (toNats key)) (6 * (plain.length / 8)) 1 wrapCheck (toNats plain))

/-- Steps t, t − 1, … 1 of the inverse. -/
def unwrapSteps (rks : List (List Nat)) : Nat → List Nat → List Nat → List Nat × List Nat
  | 0, a, r => (a, r)
  | t + 1, a, r =>
    let d := decipher rks (xorBytes a (beBytes 8 (t + 1)) ++ r.drop (r.length - 8))
    unwrapSteps rks t (d.take 8) (d.drop 8 ++ r.take (r.length - 8))

/-- The plaintext of a KW ciphertext, none where its integrity check fails (R246). -/
def unwrapKey (key wrapped : List Byte) : Option (List Byte) :=
  let w := toNats wrapped
  let x := unwrapSteps (roundKeys (toNats key)).reverse (6 * (w.length / 8 - 1)) (w.take 8) (w.drop 8)
  if x.1 = wrapCheck then some (ofNats x.2) else none

/-! ### Block_cipher_df and CTR_DRBG (SP 800-90A) -/

/-- BCC: the blocks chained under one key. -/
def bcc (rks : List (List Nat)) : List (List Nat) → List Nat → List Nat
  | [], chain => chain
  | b :: bs, chain => bcc rks bs (cipher rks (xorBytes chain b))

/-- X enciphered again and again: so many blocks. -/
def chainOut (rks : List (List Nat)) : Nat → List Nat → List Nat
  | 0, _ => []
  | n + 1, x => cipher rks x ++ chainOut rks n (cipher rks x)

/-- Block_cipher_df on AES-256 of a byte string, 48 bytes of output (R266, R278). -/
def blockCipherDf (input : List Nat) : List Nat :=
  let body := beBytes 4 input.length ++ beBytes 4 48 ++ input ++ [0x80]
  let padded := body ++ List.replicate ((16 - body.length % 16) % 16) 0
  let rks := roundKeys (List.range 32)
  let temp := (List.range 3).flatMap fun i =>
    bcc rks (blocksOf (padded.length / 16 + 1) (beBytes 4 i ++ List.replicate 12 0 ++ padded)) (List.replicate 16 0)
  chainOut (roundKeys (temp.take 32)) 3 (temp.drop 32)

/-- The next so many counter blocks after V, enciphered. -/
def counterOut (rks : List (List Nat)) (v : Nat) : Nat → List Nat
  | 0 => []
  | n + 1 => cipher rks (beBytes 16 ((v + 1) % 2 ^ 128)) ++ counterOut rks (v + 1) n

/-- A working state of CTR_DRBG: the 32 bytes of Key, then the 16 bytes of V. -/
def drbgPack (bs : List Nat) : W384 := BitVec.ofNat 384 (leNat (ofNats bs))

/-- The bytes of a working state or of a seed entry. -/
def drbgUnpack (st : W384) : List Nat := toNats (leBytes 48 st.toNat)

/-- CTR_DRBG_Update of Key ‖ V with 48 bytes of provided data. -/
def drbgUpdate (st provided : List Nat) : List Nat :=
  xorBytes (counterOut (roundKeys (st.take 32)) (beNat (st.drop 32)) 3) provided

/-- The working state after an instantiation from an entry, which serves as the nonce too, and a personalisation string (R278). -/
def drbgInstantiate (entry : W384) (pers : List Byte) : W384 :=
  drbgPack (drbgUpdate (List.replicate 48 0) (blockCipherDf (drbgUnpack entry ++ toNats pers)))

/-- The working state after a reseed with an entry and additional input (R278). -/
def drbgReseed (st entry : W384) (input : List Byte) : W384 :=
  drbgPack (drbgUpdate (drbgUnpack st) (blockCipherDf (drbgUnpack entry ++ toNats input)))

/-- The additional input of a generate as 48 bytes: 0 where there is none. -/
def drbgInputBytes (input : List Byte) : List Nat :=
  if input = [] then List.replicate 48 0 else blockCipherDf (toNats input)

/-- Key ‖ V once additional input has been taken. -/
def drbgBefore (st : W384) (input : List Byte) : List Nat :=
  if input = [] then drbgUnpack st else drbgUpdate (drbgUnpack st) (drbgInputBytes input)

/-- The n output bytes of a generate with additional input (R278). -/
def drbgOutput (st : W384) (input : List Byte) (n : Nat) : List Byte :=
  let b := drbgBefore st input
  ofNats ((counterOut (roundKeys (b.take 32)) (beNat (b.drop 32)) ((n + 15) / 16)).take n)

/-- The working state after a generate of n bytes with additional input (R278). -/
def drbgNext (st : W384) (input : List Byte) (n : Nat) : W384 :=
  let b := drbgBefore st input
  drbgPack (drbgUpdate (b.take 32 ++ beBytes 16 ((beNat (b.drop 32) + (n + 15) / 16) % 2 ^ 128)) (drbgInputBytes input))

end Sys2Proof.Machine
end

