-- ==== Sys2Proof/Machine/Pk.lean ====
section
/-!
DEFINITION. SHA-256 (FIPS 180-4) and the one operation of the public-key unit: verifying an ECDSA P-256 signature (FIPS 186-5) on a
firmware image (spec/00_scope.md R2, spec/11_power_clock_startup.md R309). The manual names the standards; their text is taken from
outside it (PRESUMED, notes/assumptions/5.md).
-/
namespace Sys2Proof.Machine

/-! ### SHA-256 -/

/-- A 32-bit word rotated right. -/
def rotr (n x : Nat) : Nat := x / 2 ^ n + x % 2 ^ n * 2 ^ (32 - n)

/-- σ0 of the message schedule. -/
def sigmaLow0 (x : Nat) : Nat := Nat.xor (Nat.xor (rotr 7 x) (rotr 18 x)) (x / 8)

/-- σ1 of the message schedule. -/
def sigmaLow1 (x : Nat) : Nat := Nat.xor (Nat.xor (rotr 17 x) (rotr 19 x)) (x / 1024)

/-- Σ0 of the compression. -/
def sigmaUp0 (x : Nat) : Nat := Nat.xor (Nat.xor (rotr 2 x) (rotr 13 x)) (rotr 22 x)

/-- Σ1 of the compression. -/
def sigmaUp1 (x : Nat) : Nat := Nat.xor (Nat.xor (rotr 6 x) (rotr 11 x)) (rotr 25 x)

/-- The round constants of SHA-256. -/
def shaConstants : List Nat := [
  0x428A2F98, 0x71374491, 0xB5C0FBCF, 0xE9B5DBA5, 0x3956C25B, 0x59F111F1, 0x923F82A4, 0xAB1C5ED5,
  0xD807AA98, 0x12835B01, 0x243185BE, 0x550C7DC3, 0x72BE5D74, 0x80DEB1FE, 0x9BDC06A7, 0xC19BF174,
  0xE49B69C1, 0xEFBE4786, 0x0FC19DC6, 0x240CA1CC, 0x2DE92C6F, 0x4A7484AA, 0x5CB0A9DC, 0x76F988DA,
  0x983E5152, 0xA831C66D, 0xB00327C8, 0xBF597FC7, 0xC6E00BF3, 0xD5A79147, 0x06CA6351, 0x14292967,
  0x27B70A85, 0x2E1B2138, 0x4D2C6DFC, 0x53380D13, 0x650A7354, 0x766A0ABB, 0x81C2C92E, 0x92722C85,
  0xA2BFE8A1, 0xA81A664B, 0xC24B8B70, 0xC76C51A3, 0xD192E819, 0xD6990624, 0xF40E3585, 0x106AA070,
  0x19A4C116, 0x1E376C08, 0x2748774C, 0x34B0BCB5, 0x391C0CB3, 0x4ED8AA4A, 0x5B9CCA4F, 0x682E6FF3,
  0x748F82EE, 0x78A5636F, 0x84C87814, 0x8CC70208, 0x90BEFFFA, 0xA4506CEB, 0xBEF9A3F7, 0xC67178F2]

/-- The hash value that SHA-256 begins with. -/
def shaStart : List Nat := [
  0x6A09E667, 0xBB67AE85, 0x3C6EF372, 0xA54FF53A, 0x510E527F, 0x9B05688C, 0x1F83D9AB, 0x5BE0CD19]

/-- The eight working words after one round with W + K added; a reduction to 32 bits after each sum. -/
def shaRound (wk : Nat) : List Nat → List Nat
  | [a, b, c, d, e, f, g, h] =>
    let t1 := h + sigmaUp1 e + Nat.xor (Nat.land e f) (Nat.land (2 ^ 32 - 1 - e) g) + wk
    let t2 := sigmaUp0 a + Nat.xor (Nat.xor (Nat.land a b) (Nat.land a c)) (Nat.land b c)
    [(t1 + t2) % 2 ^ 32, a, b, c, (d + t1) % 2 ^ 32, e, f, g]
  | other => other

/-- The word of the message schedule sixteen places after the first of these sixteen. -/
def shaNextWord (w : List Nat) : Nat :=
  (sigmaLow1 (nthOr 0 14 w) + nthOr 0 9 w + sigmaLow0 (nthOr 0 1 w) + nthOr 0 0 w) % 2 ^ 32

/-- The rounds for the remaining constants, with the sixteen words of the schedule that come next. -/
def shaRounds : List Nat → List Nat → List Nat → List Nat
  | [], _, h => h
  | k :: ks, w, h => shaRounds ks (w.drop 1 ++ [shaNextWord w]) (shaRound (nthOr 0 0 w + k) h)

/-- One block of 64 bytes compressed into the hash value. -/
def shaBlock (h block : List Nat) : List Nat :=
  let w := (List.range 16).map fun i => beNat ((block.drop (4 * i)).take 4)
  (h.zip (shaRounds shaConstants w h)).map fun p => (p.1 + p.2) % 2 ^ 32

/-- So many blocks compressed. -/
def shaBlocks : Nat → List Nat → List Nat → List Nat
  | 0, h, _ => h
  | n + 1, h, bs => shaBlocks n (shaBlock h (bs.take 64)) (bs.drop 64)

/-- SHA-256 of a byte string, as the number its 32 bytes spell, the first byte the highest. (PRESUMED: notes/assumptions/5.md) -/
def sha256 (bs : List Byte) : Nat :=
  let m := toNats bs ++ [0x80]
  let padded := m ++ List.replicate ((120 - m.length % 64) % 64) 0 ++ beBytes 8 (8 * bs.length)
  (shaBlocks (padded.length / 64) shaStart padded).foldl (fun v x => 2 ^ 32 * v + x) 0

/-! ### P-256 -/

/-- The prime of the field of P-256. -/
def p256 : Nat := 0xFFFFFFFF00000001000000000000000000000000FFFFFFFFFFFFFFFFFFFFFFFF

/-- The order of the group of P-256. -/
def p256Order : Nat := 0xFFFFFFFF00000000FFFFFFFFFFFFFFFFBCE6FAADA7179E84F3B9CAC2FC632551

/-- The constant b of the curve y² = x³ − 3x + b. -/
def p256B : Nat := 0x5AC635D8AA3A93E7B3EBBD55769886BC651D06B0CC53B0F63BCE3C3E27D2604B

/-- The x coordinate of the base point. -/
def p256X : Nat := 0x6B17D1F2E12C4247F8BCE6E563A440F277037D812DEB33A0F4A13945D898C296

/-- The y coordinate of the base point. -/
def p256Y : Nat := 0x4FE342E2FE1A7F9B8EE7EB4A7C0F9E162BCE33576B315ECECBB6406837BF51F5

/-- A point in Jacobian coordinates, z = 0 the point at infinity. -/
structure Point where
  x : Nat
  y : Nat
  z : Nat
deriving DecidableEq, Repr

/-- x − y in the field. -/
def fieldSub (x y : Nat) : Nat := (x + p256 - y) % p256

/-- A point added to itself. -/
def pointDouble (a : Point) : Point :=
  let d := a.z * a.z % p256
  let g := a.y * a.y % p256
  let b := a.x * g % p256
  let m := 3 * fieldSub a.x d * (a.x + d) % p256
  let x := fieldSub (m * m % p256) (8 * b % p256)
  ⟨x, fieldSub (m * fieldSub (4 * b % p256) x % p256) (8 * g * g % p256), 2 * a.y * a.z % p256⟩

/-- The sum of two points. -/
def pointAdd (a c : Point) : Point :=
  if a.z = 0 then c
  else if c.z = 0 then a
  else
    let za := a.z * a.z % p256
    let zc := c.z * c.z % p256
    let ua := a.x * zc % p256
    let uc := c.x * za % p256
    let sa := a.y * (c.z * zc % p256) % p256
    let sc := c.y * (a.z * za % p256) % p256
    if ua = uc then (if sa = sc then pointDouble a else ⟨1, 1, 0⟩)
    else
      let h := fieldSub uc ua
      let r := fieldSub sc sa
      let h2 := h * h % p256
      let h3 := h * h2 % p256
      let v := ua * h2 % p256
      let x := fieldSub (r * r % p256) ((h3 + 2 * v) % p256)
      ⟨x, fieldSub (r * fieldSub v x % p256) (sa * h3 % p256), h * a.z * c.z % p256⟩

/-- i times one point plus j times another, bit by bit from bit n − 1 downwards; `both` is the sum of the two. -/
def pointsTimes (g q both : Point) (i j : Nat) : Nat → Point → Point
  | 0, acc => acc
  | n + 1, acc =>
    let d := pointDouble acc
    let bi := i / 2 ^ n % 2
    let bj := j / 2 ^ n % 2
    pointsTimes g q both i j n
      (if bi = 1 then (if bj = 1 then pointAdd d both else pointAdd d g) else if bj = 1 then pointAdd d q else d)

/-- x to the power e modulo m, bit by bit from bit n − 1 downwards. -/
def powMod (x e m : Nat) : Nat → Nat → Nat
  | 0, acc => acc
  | n + 1, acc => powMod x e m n (if e / 2 ^ n % 2 = 1 then acc * acc % m * x % m else acc * acc % m)

/-- The coordinates lie in the field and on the curve. -/
def onCurve (x y : Nat) : Bool :=
  decide (x < p256) && decide (y < p256) && decide (y * y % p256 = (x * x * x + (p256 - 3) * x + p256B) % p256)

/-- ECDSA P-256 verification: the signature (r, s) of a SHA-256 value under the public key (x, y) (R2, R309).
(PRESUMED: notes/assumptions/5.md) -/
def ecdsaVerifies (x y r s hash : Nat) : Bool :=
  if onCurve x y && decide (0 < r) && decide (r < p256Order) && decide (0 < s) && decide (s < p256Order) then
    let w := powMod s (p256Order - 2) p256Order 256 1
    let g : Point := ⟨p256X, p256Y, 1⟩
    let q : Point := ⟨x, y, 1⟩
    let a := pointsTimes g q (pointAdd g q) (hash % p256Order * w % p256Order) (r * w % p256Order) 256 ⟨1, 1, 0⟩
    let z2 := a.z * a.z % p256
    decide (a.z ≠ 0) && (decide (r * z2 % p256 = a.x) ||
      (decide (r + p256Order < p256) && decide ((r + p256Order) * z2 % p256 = a.x)))
  else false

end Sys2Proof.Machine
end

