-- ==== Sys2Proof/Config.lean ====
section
/-!
DEFINITION. What one F840 fixes for itself and what the manual leaves open: constants WITHOUT a body, so that nothing in
Lean can evaluate them and every statement holds whatever they are (DESIGN CHOICE:
notes/assumptions/5.md, 6.md, 7.md, 36.md, 58.md, 59.md).
-/
namespace Sys2Proof.Config

/-- DEV_REV [15:0], the stepping (spec/14_registers.md R354). -/
opaque stepping : W16

/-- The device serial, fused (spec/11_power_clock_startup.md R302). -/
opaque serial : W64

/-- The seed of the sealing key, fused (R302). -/
opaque sealingSeed : W256

/-- The seed of the challenge key, fused (R302). -/
opaque challengeSeed : W256

/-- The key-loading key, fused at manufacture (spec/09_halyard_chains.md R247; R302). -/
opaque loadingKey : W256

/-- The four firmware key hashes, fused (R302, R309). -/
opaque keyHash : Nat → W256

/-- Their revocation bits, fused (R302, R309). -/
opaque keyRevoked : Nat → Bool

/-- The trim values of PMU, of NSU and of the flash references, fused; their widths are not given (R302). -/
opaque trim : Nat → Nat

/-- The BIST signatures, fused; their number and widths are not given (R302). -/
opaque bistSignatures : List Nat

/-- The image of slot 0 of a new F840, signed by its maker (spec/11_power_clock_startup.md R309, R312). -/
opaque factoryImage : List Byte

/-- The derivation of the sealing key from its fused seed (spec/04_journal_flash.md R99): not given. -/
opaque deriveSealing : W256 → W256

/-- The derivation of the challenge key from the sealing key and its fused seed (spec/09_halyard_chains.md R245; R302): not given. -/
opaque deriveChallenge : W256 → W256 → W256

/-- The one-sided 95 % quantile of Student's t distribution for so many degrees of freedom, in units of 2^-32
(spec/12_health_selftest.md R318). -/
opaque tQuantile : Nat → Nat

/-- The shift of an ageing pair whose unstressed oscillator counts nothing (spec/12_health_selftest.md R314): not stated there. -/
opaque shiftAtNoCount : Nat

/-- Highest tag temperature of a day without a side message (spec/12_health_selftest.md R316): not stated there. -/
opaque noTagTemp : Byte

/-- Lowest tag storage margin of a day without a side message (spec/12_health_selftest.md R316): not stated there. -/
opaque noTagMargin : Byte

/-- The highest day number kept while no daily is kept (spec/12_health_selftest.md R321): not stated there. -/
opaque noDailyKept : W64

/-- EOL_READ while no fit has been made (spec/12_health_selftest.md R318, R322), not stated there: 0 days, 1 lower bound, 2 fitted
value, 3 slope, 4 lowest lower bound of a kind of indicator, 5 its code. -/
opaque noFit : Nat → W64

/-- The number of the first entry returned in a page of the decision log that returns none (spec/06_placement.md R181): not stated
there. -/
opaque noDecision : W64

/-- What a shutdown BIST that is stopped had done by then (spec/12_health_selftest.md R327, R341), measured, not stated: 0 steps completed,
1 a map of those that failed, 2 unreadable slots, 3 peak power in mW, by the CLK it has run. -/
opaque stoppedBist : Nat → Nat → Nat

/-- C_meas in µF where the voltage did not fall in a draw: the quotient of R142 is not stated there. -/
opaque capacitanceAtNoFall : Nat → Nat

/-- The SECDED check bits of an 8-byte group of a parameter page (spec/04_journal_flash.md R96, R102): the code is not given. -/
opaque checkByte : List Byte → Byte

/-- B, V0, last skip and total skipped of a counter whose definition form no copy holds (spec/04_journal_flash.md R102): not stated
there, by number and field. -/
opaque lostDefinition : Nat → Nat → Nat

/-- The domain of a key identifier whose two copies name different ones (spec/04_journal_flash.md R113): not stated there, by the two
objects. -/
opaque conflictDomain : W32 → W32 → Nat

/-- FW_VERSION while neither slot holds an image that passes (spec/14_registers.md R366): not stated there. -/
opaque bootVersion : W32

end Sys2Proof.Config
end

