-- ==== Sys2Proof/Machine/Records.lean ====
section
/-!
DEFINITION. The bytes of a journal record and of a sector header (spec/04_journal_flash.md R97-R99, R105), over plain fields: the state's
reset lays out the factory's records with them, and Journal.lean every other record.
-/
namespace Sys2Proof.Machine

/-- The leftmost 64 bits of AES-256-CMAC, in output order (R99). -/
def sealMac (key bytes : List Byte) : List Byte := (cmacBytes key bytes).take 8

/-- A byte string followed by its MAC (R98, R105). -/
def withMac (key body : List Byte) : List Byte := body ++ sealMac key body

/-- The bytes of a record before its MAC: header and payload; the shape byte holds one less than its slots, the form and the single-copy
flag (R98). -/
def recordBytes (typ form : Nat) (single : Bool) (seq obj : Nat) (payload : List Byte) : List Byte :=
  leBytes 1 typ ++ leBytes 1 ((payload.length + 20) / 32 - 1 + 16 * form + 64 * bit single) ++ leBytes 6 seq ++ leBytes 4 obj ++ payload

/-- The bytes of a sector header before its MAC (R105). -/
def headerFields (bank idx erases eraseTime firstSeq opened : Nat) : List Byte :=
  leBytes 2 0x5A4A ++ leBytes 1 1 ++ leBytes 1 (bank + 4 * bit (decide (2 ≤ bank))) ++ leBytes 1 idx ++ leBytes 1 0 ++
    leBytes 4 erases ++ leBytes 2 eraseTime ++ leBytes 6 firstSeq ++ leBytes 4 opened ++ leBytes 2 0

/-- The 32-byte slots of a byte string, at most so many (R95). -/
def slotsOf : Nat → List Byte → List (List Byte)
  | 0, _ => []
  | n + 1, bs => bs.take 32 :: slotsOf n (bs.drop 32)

end Sys2Proof.Machine
end

