-- ==== Sys2Proof/Machine/State.lean ====
section
/-!
DEFINITION. The state of the F840, unit by unit (spec/01_architecture.md R10), as plain data; what a step may stop with; and
the machine right after reset. Each field's comment gives its width and the rule of spec/ that names it; INVENTORY.md
'## State' lists the reset values. Fields marked MODEL are the model's own bookkeeping (DESIGN CHOICE:
notes/assumptions/14.md).
-/
namespace Sys2Proof.Machine

/-! ### Clock, device time, calendar -/

/-- Device time, the reference and the calendar (PMU, CTL). -/
structure Clk where
  /-- 1 bit; R13, R299: the PLL has locked in this start, CLK runs. -/
  running : Bool
  /-- 64 bits; R14: device time, CLK since PLL lock. -/
  now : Nat
  /-- 1 bit; R17, R300, R366: the PLL holds over. -/
  holdover : Bool
  /-- 1 bit; R366: reference edges arrive within limits. -/
  refPresent : Bool
  /-- 1 bit; R300, R366: the PLL is slewing towards the returned reference. -/
  slewing : Bool
  /-- 8 bits; R366: reference losses since the start, saturating. -/
  losses : Nat
  /-- 64 bits; R16, R307: calendar seconds at device time calAt. -/
  calBase : Nat
  /-- 30 bits; R307: CLK within the calendar second at calAt. -/
  calClk : Nat
  /-- 64 bits; R16, R307: the device time at which calBase and calClk held. -/
  calAt : Nat
  /-- 1 bit; R5, R59, R308: calendar not set since power-off (IDENTIFY +0x38 [0]). -/
  calNotSet : Bool
  /-- 1 bit; R59, R156, R307: time imprecise after a start without a marker (IDENTIFY +0x38 [1]). -/
  calImprecise : Bool
  /-- 64 bits each; R15, R365: the requesters whose last BAR0 read was TIME_LO, with their captures. -/
  captures : List (Nat × W64)
  /-- 64 bits; MODEL: the data the last modelled BAR0 read returned. -/
  readData : W64
deriving DecidableEq, Repr

/-! ### BAR0 registers that software sets -/

/-- A LO/HI base address pair (R356): the two halves as accepted, and the address in effect. -/
structure BasePair where
  /-- 32 bits; R356: the LO half last accepted. -/
  lo : W32
  /-- 32 bits; R356: the HI half last written. -/
  hi : W32
  /-- 64 bits; R356: the address that took effect with the last HI write. -/
  eff : Option W64
deriving DecidableEq, Repr

/-- The BAR0 registers that hold what was written (R352), and the lock and cause fields. -/
structure Regs where
  /-- 2 × 32 bits; R27, R356: HOIST_BASE. -/
  hoist : BasePair
  /-- 2 × 32 bits; R33, R356: ADMIN_SQ_BASE. -/
  adminSq : BasePair
  /-- 2 × 32 bits; R33, R356: ADMIN_CQ_BASE. -/
  adminCq : BasePair
  /-- 2 × 32 bits; R356: EVENT_RING_BASE. -/
  eventRing : BasePair
  /-- 32 bits; R357: ADMIN_SIZES. -/
  adminSizes : W32
  /-- 32 bits; R357: EVENT_RING_SIZE. -/
  eventSize : W32
  /-- 32 bits; R31, R360: POLL_PERIOD. -/
  pollPeriod : W32
  /-- 32 bits; R360: MSIX_CFG. -/
  msixCfg : W32
  /-- 32 bits; R293, R362: MON_THRESH_A. -/
  monA : W32
  /-- 32 bits; R293, R362: MON_THRESH_B. -/
  monB : W32
  /-- 32 bits; R363: PORT_ENABLE_LO. -/
  portLo : W32
  /-- 32 bits; R363: PORT_ENABLE_HI. -/
  portHi : W32
  /-- 32 bits; R363: HALYARD_CFG. -/
  halyardCfg : W32
  /-- 32 bits; R368: SCRATCH. -/
  scratch : W32
  /-- 1 bit; R353, R355: STATUS.SETUP_ERROR. -/
  setupError : Bool
  /-- 3 bits; R297, R355: STATUS.RESET_CAUSE. -/
  resetCause : Nat
  /-- 32 bits; R336, R355: SAFE_CAUSE. -/
  safeCause : W32
  /-- 1 bit; R339, R367: DEBUG_LOCK.LOCKED. -/
  locked : Bool
  /-- 1 bit; R367: DEBUG_LOCK.UNLOCK, a request under way. -/
  unlockReq : Bool
deriving DecidableEq, Repr

/-- The READY register's stored bits (R306). -/
structure Ready where
  /-- 1 bit; R299, R300, R306. -/
  pllLock : Bool
  /-- 1 bit; R302, R306. -/
  sramInit : Bool
  /-- 1 bit; R303, R306. -/
  calib : Bool
  /-- 1 bit; R115, R306. -/
  journal : Bool
  /-- 1 bit; R306, R71. -/
  counters : Bool
  /-- 1 bit; R141, R306. -/
  holdup : Bool
  /-- 1 bit; R276, R306. -/
  random : Bool
  /-- 1 bit; R258, R306. -/
  halyard : Bool
  /-- 1 bit; R323, R306. -/
  shutdownDone : Bool
deriving DecidableEq, Repr

/-! ### HIF: queue pairs, operations, events -/

/-- A queue pair (R33, R34): its rings and HIF's counts. -/
structure Qp where
  /-- 12 bits; R34: QP number. -/
  num : Nat
  /-- 64 bits; R34: submission ring base. -/
  sqBase : Nat
  /-- 64 bits; R34: completion ring base. -/
  cqBase : Nat
  /-- entries, 64-16,384; R34: S_sub. -/
  sqSize : Nat
  /-- entries, 64-16,384; R34: S_c. -/
  cqSize : Nat
  /-- 7 bits; R34, R42: in-flight limit L. -/
  limit : Nat
  /-- 2 bits; R34: priority class. -/
  cls : Nat
  /-- 6 bits; R34: owner domain. -/
  domain : Nat
  /-- 6 bits; R34: MSI-X vector. -/
  vector : Nat
  /-- 8 bits; R34, R50: coalescing count. -/
  coalCount : Nat
  /-- 16 bits; R34, R50: coalescing time in units of 1,024 CLK. -/
  coalTime : Nat
  /-- 32 bits; R28, R42: tail count t, last read. -/
  tail : W32
  /-- 32 bits; R28, R42: head count h, last read. -/
  head : W32
  /-- 32 bits; R42: fetch count f. -/
  fetched : W32
  /-- 32 bits; R41, R42: completion count w. -/
  written : W32
  /-- 1 bit; R58: stopped by a failed descriptor read. -/
  stopped : Bool
  /-- 1 bit; R57: a QP_DELETE has been dispatched. -/
  deleting : Bool
  /-- count; R50: completions not yet signalled. -/
  unsignalled : Nat
  /-- 64 bits; R50: device time of the oldest unsignalled completion. -/
  oldest : Nat
  /-- count; R45: deficit of the round robin. -/
  deficit : Nat
deriving DecidableEq, Repr

/-- Where a fetched operation stands (R55, R344). -/
inductive OpSt where
  /-- fetched, held by a FENCE (R47) -/
  | held
  /-- fetched, free to be dispatched -/
  | ready
  /-- in an energy wait since this device time (R87) -/
  | energy (since : Nat)
  /-- in a random wait since this device time (R282) -/
  | random (since : Nat)
  /-- a KID_SPLICE_COMMIT waiting for units until this device time (R192) -/
  | splice (deadline : Nat)
  /-- its effect stands; it waits for these journal writes, then completes with these results (R107) -/
  | record (writes : List Nat) (resA resB : W64)
  /-- queued on its port, its mirror entry admitted or not needed (R230, R257) -/
  | queued
  /-- the port runs its exchanges, or its slate series (R255) -/
  | serving
  /-- a QP_DELETE waiting for the QP's operations, with its results (R57) -/
  | deleting (resA resB : W64)
  /-- SHUTDOWN_PREPARE under way (R323) -/
  | shutdown
deriving DecidableEq, Repr

/-- A fetched operation: its descriptor (R39) and where it stands. -/
structure Op where
  /-- MODEL: fetch number, counted device-wide in fetch order (R46). -/
  id : Nat
  /-- 12 bits; R39: the QP it was fetched from. -/
  qp : Nat
  /-- 2 bits; R34: the QP's class. -/
  cls : Nat
  /-- 6 bits; R37: the QP's domain. -/
  domain : Nat
  /-- 8 bits; R39. -/
  opcode : Nat
  /-- 8 bits; R39. -/
  flags : Byte
  /-- 16 bits; R39. -/
  tag : W16
  /-- 32 bits; R39. -/
  obj : W32
  /-- 64 bits; R39. -/
  a : W64
  /-- 64 bits; R39. -/
  b : W64
  /-- 64 bits; R39. -/
  c : W64
  /-- 1 bit; R55: a HIF reset has taken its ring, no completion is written. -/
  silent : Bool
  /-- 1 bit; R47: held with a FENCE descriptor, so dispatched in ring order. -/
  batch : Bool
  /-- R55, R344: the state of the operation. -/
  st : OpSt
deriving DecidableEq, Repr

/-- HIF's own state: rings, fetching, operations (R27-R58). -/
structure Hif where
  /-- R305: the PCI Express link is up. -/
  linkUp : Bool
  /-- R28, R33: the queue pairs that exist, QP 0 among them. -/
  qps : List Qp
  /-- 64 × 32 bits; R31: the group sequence words last read. -/
  groupWords : List W32
  /-- 6 bits; R31: the group whose tail words are read next in turn. -/
  scanGroup : Nat
  /-- 64 × 64 bits; R43: the device time at which each group's head words were last read. -/
  headRead : List Nat
  /-- R42: operations fetched and not completed, in fetch order. -/
  ops : List Op
  /-- MODEL: the fetch number the next operation gets. -/
  nextOp : Nat
  /-- R87: waiting operations, in the order in which they entered an energy wait. -/
  energyOrder : List Nat
  /-- 4 counts; R45: descriptors each class may still fetch in this round. -/
  credits : List Nat
  /-- 4 × 12 bits; R45: the QP each class visited last. -/
  visited : List Nat
  /-- 64 bits; R50: masked vectors (PCI Express MSI-X; no command changes them: notes/assumptions/13.md). -/
  msixMasked : W64
  /-- 64 bits; R50: vectors whose pending bit is set. -/
  msixPending : W64
deriving DecidableEq, Repr

/-- An event record before it is written into a ring (R51): everything but its PHASE. -/
structure Event where
  /-- 16 bits; R51, R62. -/
  code : Nat
  /-- 2 bits; R51, R62. -/
  severity : Nat
  /-- 1 bit; R51: TIME_IMPRECISE. -/
  imprecise : Bool
  /-- 32 bits; R51. -/
  object : W32
  /-- 64 bits; R51: device time of posting. -/
  time : Nat
  /-- 16 bytes; R51. -/
  details : List Byte
deriving DecidableEq, Repr

/-- The event ring and buffer (R51-R54). -/
structure EventSt where
  /-- R357: the ring is set up: base and size in entries. -/
  ring : Option (Nat × Nat)
  /-- 32 bits; R52: number of the next event. -/
  next : W32
  /-- 32 bits; R52: the consumed count last read. -/
  consumed : W32
  /-- ≤ 64 records; R54. -/
  buffer : List Event
  /-- count; R53: events lost. -/
  lost : Nat
  /-- 16 bits; R53: code of the first event lost. -/
  firstLost : Nat
  /-- 16 bits; R53: code of the last event lost. -/
  lastLost : Nat
  /-- 64 bits; R62: device time of the first loss. -/
  lostAt : Nat
  /-- count; R50, R360: events not yet signalled. -/
  unsignalled : Nat
  /-- 64 bits; R50, R360: device time of the oldest unsignalled event. -/
  oldest : Nat
deriving DecidableEq, Repr

/-! ### Counters -/

/-- A counter class (R68). -/
inductive Cls where
  | loose
  | bounded
  | strict
deriving DecidableEq, Repr

/-- A counter: its leaf, shadow and indirection entry (CTT). -/
structure Leaf where
  /-- 18 bits; R64: logical counter number. -/
  num : Nat
  /-- 14 bits; R64: incarnation. -/
  inc : Nat
  /-- 64 bits; R63: V. -/
  v : W64
  /-- 64 bits; R160: the STRICT shadow. -/
  shadow : W64
  /-- 2 bits; R68: class. -/
  cls : Cls
  /-- 49 bits; R68: B of a BOUNDED counter. -/
  bound : Nat
  /-- 64 bits; R74, R92: V0. -/
  v0 : W64
  /-- 6 bits; R37: owner domain. -/
  domain : Nat
  /-- 12 bits; R12 text, R75: the group it lives in (indirection entry). -/
  group : Nat
  /-- 1 bit; R81. -/
  closed : Bool
  /-- 1 bit; R80: inexact. -/
  inexact : Bool
  /-- 1 bit; R80: repaired. -/
  repaired : Bool
  /-- 64 bits; R92: last skip. -/
  lastSkip : W64
  /-- 64 bits; R92: total skipped. -/
  totalSkip : W64
  /-- 1 bit; R93: SKIPPED pending. -/
  skipPending : Bool
  /-- 1 bit; R86: a skip of a repair whose definition form has still to be admitted. -/
  defOwed : Bool
  /-- values/s; R166: rate. -/
  rate : Nat
  /-- values; R166: rise in the window under way. -/
  windowRise : Nat
  /-- count; R169: consecutive windows with a rate below 1/16 of the group's. -/
  slowWindows : Nat
  /-- 64 bits; R169: device time of the last move (none: never moved in this start). -/
  movedAt : Option Nat
deriving DecidableEq, Repr

/-- A group in use (R70, R137, R143, R166, R390). -/
structure Group where
  /-- 12 bits; R85. -/
  num : Nat
  /-- 6 bits; R70. -/
  domain : Nat
  /-- 2 bits; R172. -/
  engine : Nat
  /-- 32 bits; R390: group key. -/
  key : W32
  /-- 64 bits; R85, R160: the group node's live maximum. -/
  liveMax : W64
  /-- 1 bit; R137: dirty since the last GROUP_FLOOR. -/
  dirty : Bool
  /-- 64 bits; R143: value of the written GROUP_CEILING. -/
  ceiling : Option W64
  /-- 64 bits; R144: a ceiling queued and not yet written, its value. -/
  ceilQueued : Option W64
  /-- 64 bits; R85: device time of the last GROUP_CEILING record. -/
  ceilAt : Nat
  /-- 64 bits; R174: ceiling step. -/
  step : Nat
  /-- values/s; R166: rate of the live maximum. -/
  rate : Nat
  /-- values; R166: rise of the live maximum in the window under way. -/
  windowRise : Nat
  /-- operations of R73 in the window under way; R172. -/
  windowOps : Nat
  /-- of these on class 0 QPs; R172. -/
  windowOps0 : Nat
  /-- operations of the last completed window; R172. -/
  lastOps : Nat
  /-- of these on class 0 QPs; R172. -/
  lastOps0 : Nat
  /-- 64 bits; R166: device time of the last rise of the live maximum. -/
  roseAt : Option Nat
  /-- 64 bits; R180: device time at which the group was opened. -/
  openedAt : Nat
  /-- count; R180: moves into and out of the group this powered-on day. -/
  moves : Nat
  /-- 64 bits; R181: the live maximum it had when its last member left. -/
  lastLive : W64
  /-- 18 bits; R170: opened for the move of this counter, which has still to come. -/
  forMove : Option Nat
deriving DecidableEq, Repr

/-- A counter engine (R11, R172, R173). -/
structure Engine where
  /-- operations of the window under way; R172. -/
  ops : Nat
  /-- of these on class 0 QPs; R172. -/
  ops0 : Nat
  /-- operations/s of the last completed window; R172. -/
  load : Nat
  /-- the same on class 0 QPs; R172. -/
  load0 : Nat
  /-- 1 bit; R173: drained. -/
  drained : Bool
  /-- 1 bit; R331: kept out of service until the next reset. -/
  failed : Bool
  /-- 64 bits; R73, R346: device time at which it will have served the operations queued at it. -/
  busyTill : Nat
deriving DecidableEq, Repr

/-- CTT and the number pool (R63-R93, R159, R160). -/
structure Ctr where
  /-- ≤ 262,144; R63, R65: the counters open or closed and not reused. -/
  leaves : List Leaf
  /-- ≤ 4,096; R390: the groups in use. -/
  groups : List Group
  /-- R137: groups returned to the pool dirty, with their domains, until a flush has written their floors. -/
  emptied : List (Nat × Nat)
  /-- 64 × 64 bits; R160: the section nodes. -/
  sections : List W64
  /-- 3 × 64 bits; R160: the root copies. -/
  roots : List W64
  /-- 18 bits; R66: the lowest number never used. -/
  nextNumber : Nat
  /-- R66: closed numbers, the one closed longest ago first. -/
  closedOrder : List Nat
  /-- R66, R67: numbers retired. -/
  retired : List Nat
  /-- 32 bits; R67: U. -/
  u : Nat
  /-- 4; R11: the engines. -/
  engines : List Engine
  /-- windows; R172: consecutive windows with class 0 loads too far apart. -/
  gapWindows0 : Nat
  /-- windows; R172: consecutive windows with total loads too far apart. -/
  gapWindows : Nat
  /-- count; R159, R316: CTT single-bit corrections today. -/
  corrected : Nat
deriving DecidableEq, Repr

/-- The internal counters that are not mirrors (R94, R391). -/
structure Internal where
  /-- 64 bits; R245: challenge counter. -/
  challenge : W64
  /-- 64 bits; R391: powered-on seconds. -/
  posec : Nat
  /-- count; R391: seconds held pending. -/
  pending : Nat
  /-- 64 bits; R391: device time at which the next second falls due. -/
  nextDue : Nat
  /-- 64 bits; R311: firmware anti-rollback. -/
  antiRoll : Nat
  /-- 32 bits; R308: powered-on seconds at the last building of CONFIG 0x300. -/
  calRecordAt : Nat
deriving DecidableEq, Repr

/-! ### Owed sets and journal -/

/-- What a journal record of the model describes and what an owed entry names. -/
inductive What where
  /-- GROUP_CEILING of a group at a value (R143) -/
  | ceiling (g : Nat) (v : W64)
  /-- GROUP_FLOOR of a group (R137) -/
  | groupFloor (g : Nat)
  /-- SECTION_FLOOR of a section (R146) -/
  | sectionFloor (k : Nat)
  /-- LEAF_EXACT of a counter, as definition form or value form (R102) -/
  | leaf (n : Nat) (defn : Bool)
  /-- LEAF_EXACT of the challenge counter (R94) -/
  | challenge
  /-- LEAF_EXACT of the powered-on seconds (R94) -/
  | posec
  /-- LEAF_EXACT of the anti-rollback counter (R94) -/
  | antiRoll
  /-- KID_GEN of a key identifier (R196) -/
  | kid (k : Nat)
  /-- PARAM_PAGE of a page (R132) -/
  | page (p : Nat)
  /-- TAG_MIRROR of a mirror index (R248) -/
  | mirror (i : Nat)
  /-- CONFIG of an item (R104) -/
  | config (item : Nat)
  /-- HEALTH_DAILY of a day with its payload (R316) -/
  | daily (day : Nat) (payload : List Byte)
  /-- BIST_RESULT of a session with its payload (R327) -/
  | bist (session : Nat) (payload : List Byte)
  /-- SESSION_OPEN (R115) -/
  | session
  /-- FLUSH_MARKER (R147) -/
  | marker
  /-- the missing copy of a record that exists, by its sequence number (R110) -/
  | catchUp (seq : Nat)
  /-- the copy that lies at a place of the flash, forward in the same copy of the journal (R117) -/
  | forward (bank sector slot : Nat)
deriving DecidableEq, Repr

/-- An entry of the STRICT owed set (R135). -/
structure Owed where
  /-- R135: what it names. -/
  what : What
  /-- slots per copy; R135. -/
  slots : Nat
  /-- MODEL: the write that has taken its value, when JRN has (R108 example). -/
  taken : Option Nat
  /-- 1 bit; R176: released to the background. -/
  released : Bool
deriving DecidableEq, Repr

/-- The owed sets and the energy certificate (R135-R142). -/
structure OwedSt where
  /-- R135: the STRICT set, oldest first. -/
  strict : List Owed
  /-- R135, R138: the BOUNDED set, counter numbers. -/
  bounded : List Nat
  /-- 1 bit; R148, R149: no entry is admitted. -/
  frozen : Bool
  /-- slots per copy; R140: b. -/
  b : Nat
  /-- slots; R140: r. -/
  r : Nat
  /-- slots; R140: C_S. -/
  capS : Nat
  /-- slots; R140: C_B. -/
  capB : Nat
deriving DecidableEq, Repr

/-- A journal record (R98, R102). -/
structure Rec where
  /-- 8 bits; R102: type code. -/
  typ : Nat
  /-- 2 bits; R98: form. -/
  form : Nat
  /-- 1 bit; R98, R110: shape [6], written single-copy. -/
  single : Bool
  /-- 48 bits; R101: sequence number. -/
  seq : Nat
  /-- 32 bits; R98, R102: object. -/
  obj : W32
  /-- R98, R102: payload bytes, 32 × slots − 20. -/
  payload : List Byte
  /-- 64 bits; R98, R99: MAC, computed once when the record is built. -/
  mac : List Byte
deriving DecidableEq, Repr

/-- State of a journal sector (R105, R117-R121). -/
inductive SectSt where
  | erased
  | inUse
  | erasing
  | invalid
  | retired
deriving DecidableEq, Repr

/-- A journal sector (R95, R105). -/
structure Sector where
  /-- 2 bits; R95. -/
  bank : Nat
  /-- 6 bits; R95. -/
  idx : Nat
  /-- R105, R120. -/
  st : SectSt
  /-- 32 bits; R105: erase count. -/
  erases : Nat
  /-- 16 bits; R105: erase time, 2^14 CLK. -/
  eraseTime : Nat
  /-- 48 bits; R105: first sequence. -/
  firstSeq : Nat
  /-- 32 bits; R105: powered-on hours when the header was written. -/
  opened : Nat
  /-- 10 bits; R106: the next slot to program. -/
  next : Nat
  /-- 1 bit; R106: found partly written by replay, or given up: never programmed again before an erase. -/
  shut : Bool
  /-- count; R109: program-verify failures since its erase. -/
  failures : Nat
  /-- count; R96, R122: corrections since its last scan. -/
  corrected : Nat
  /-- bits; R314: weak bits in its last scan. -/
  weak : Nat
deriving DecidableEq, Repr

/-- A slot that has been programmed since the last erase of its sector (R95). -/
structure FlashSlot where
  /-- 2 bits; R95. -/
  bank : Nat
  /-- 6 bits; R95. -/
  sector : Nat
  /-- 10 bits; R95. -/
  slot : Nat
  /-- 32 bytes; R95: its contents; none where it was left half-programmed or failed program-verify (R106, R109). -/
  bytes : Option (List Byte)
deriving DecidableEq, Repr

/-- A record as it lies in one copy (R107). -/
structure Inst where
  /-- 1 bit; R95: copy B. -/
  copyB : Bool
  /-- 2 bits; R95. -/
  bank : Nat
  /-- 6 bits; R95. -/
  sector : Nat
  /-- 10 bits; R95: first slot. -/
  slot : Nat
  /-- R98. -/
  record : Rec
deriving DecidableEq, Repr

/-- A write that waits in JRN's queue (R108). -/
structure JWrite where
  /-- MODEL: the write's number. -/
  id : Nat
  /-- 1-6; R108: rank. -/
  rank : Nat
  /-- R102: what is written. -/
  what : What
deriving DecidableEq, Repr

/-- A copy of a record that one bank programs (R107). -/
structure Prog where
  /-- 2 bits; R95, R177: the bank. -/
  bank : Nat
  /-- 6 bits; R95: the sector. -/
  sector : Nat
  /-- 10 bits; R95: the record's first slot. -/
  slot : Nat
  /-- slots; R107: slots of this copy programmed and verified. -/
  done : Nat
  /-- R107: the write and the record built once for both copies. -/
  write : JWrite
  record : Rec
deriving DecidableEq, Repr

/-- A record that waits for a bank of a copy (R107, R109). -/
structure CopyWait where
  /-- R107: the write, and the record built once for both copies. -/
  write : JWrite
  record : Rec
  /-- 1 bit; R95: copy B. -/
  copyB : Bool
  /-- 1 bit; R109: a slot of it failed program-verify, so that it starts in a fresh sector. -/
  fresh : Bool
deriving DecidableEq, Repr

/-- A sector whose live records are being copied forward before it is erased or retired (R117, R120, R122). -/
structure Emptying where
  /-- 2 bits; R95. -/
  bank : Nat
  /-- 6 bits; R95. -/
  sector : Nat
  /-- 1 bit; R120: it is retired instead of erased. -/
  retire : Bool
  /-- R108: rank of the copies, 2 for a forced compaction, else 6. -/
  rank : Nat
  /-- R123: MEDIA_REFRESH to be posted at the end: weak bits, corrections, reason. -/
  refresh : Option (Nat × Nat × Nat)
  /-- R123: bank and sector to which its first record went. -/
  first : Option (Nat × Nat)
deriving DecidableEq, Repr

/-- The journal unit (R95-R123). -/
structure Jrn where
  /-- 48 bits; R101: the next sequence number. -/
  nextSeq : Nat
  /-- 256; R95, R105: the sectors. -/
  sectors : List Sector
  /-- ≤ 262,144 slots; R95: the slots programmed; every other slot reads 0xFF in all bytes. -/
  flash : List FlashSlot
  /-- R107, R111, R117: the records that exist in the copies, with their places. -/
  insts : List Inst
  /-- R112: the current record of each key. -/
  current : List Rec
  /-- R108: writes queued, in the order queued. -/
  queue : List JWrite
  /-- MODEL: the next write's number. -/
  nextWrite : Nat
  /-- ≤ 4; R107: programs under way, one per bank. -/
  progs : List Prog
  /-- R107, R109: records that wait for a bank: whole in copy A for copy B, or to be written again after a failed slot. -/
  waiting : List CopyWait
  /-- R117, R120, R122: sectors whose live records are being copied forward. -/
  emptying : List Emptying
  /-- 2 bits; R110, R173: copies A and B unavailable through a drain or a failed test. -/
  outA : Bool
  outB : Bool
  /-- 32 bits; R115: session number of the current SESSION_OPEN. -/
  session : Nat
  /-- counts; R314, R316: erases of today and the sum of their times, 2^14 CLK. -/
  eraseTimes : Nat × Nat
  /-- count; R96, R316: groups corrected today. -/
  correctedToday : Nat
  /-- bits; R314, R316: highest weak-bit count of the last REFRESH_SCAN. -/
  weakMax : Nat
  /-- count; R175, R179: GROUP_CEILING records this powered-on day. -/
  ceilToday : Nat
  /-- count; R179: other background slot writes this powered-on day, both copies. -/
  otherToday : Nat
  /-- count; R316: journal slot writes today. -/
  slotsToday : Nat
  /-- 1 bit; R340: JRN writes nothing until reset. -/
  dead : Bool
deriving DecidableEq, Repr

/-- Why a flush runs (R146, R153). -/
inductive FlushWhy where
  | none
  | holdup
  | reset
  | shutdown
  | debug
deriving DecidableEq, Repr

/-- The flush (R145-R148). -/
structure Flush where
  /-- R146: a flush runs, and why it began. -/
  why : FlushWhy
  /-- 1 bit; R42, R148: a flush has begun in this session. -/
  begun : Bool
  /-- 1 bit; R42: that flush was the one of SHUTDOWN_PREPARE or of a debug unlock. -/
  qp0 : Bool
  /-- 2 bits; R145: 0 group level, 1 section level, 2 section level, best effort. -/
  level : Nat
  /-- R146: what is still to be written, in order. -/
  plan : List What
  /-- count; R147: slot writes of steps 1 to 5 in both copies. -/
  slots : Nat
  /-- 1 bit; R147: some record was written single-copy. -/
  single : Bool
  /-- 1 bit; R147: the marker is written. -/
  marker : Bool
  /-- 3 bits; R153: the reset that takes effect with the marker, its cause. -/
  resetCause : Option Nat
  /-- 1 bit each; R177: the bank of copy A and of copy B that takes the flush's next record, 0 or 1 within the copy. -/
  turnA : Nat
  turnB : Nat
deriving DecidableEq, Repr

/-! ### Parameter store, key identifiers, fault windows -/

/-- A page that has been written (R124-R132). -/
structure Page where
  /-- 8 bits; R124. -/
  num : Nat
  /-- 64 bytes; R124: the image. -/
  bytes : List Byte
  /-- 8 bits; R128: group status. -/
  status : Byte
  /-- 1 bit; R127, R132: a change not yet written to the journal. -/
  dirty : Bool
  /-- 8 bits; R129: groups uncorrectable in the image. -/
  lost : Byte
deriving DecidableEq, Repr

/-- State of a key identifier (R183). -/
inductive KidSt where
  | free
  | live
  | draining
deriving DecidableEq, Repr

/-- A key identifier that is not FREE at generation 0 (R183). -/
structure Kid where
  /-- 14 bits; R183. -/
  num : Nat
  /-- 2 bits; R183. -/
  st : KidSt
  /-- 32 bits; R183: generation. -/
  gen : W32
  /-- 6 bits; R183: owner domain. -/
  domain : Nat
  /-- 64 bits; R183: unit mask. -/
  mask : W64
  /-- 1 bit; R183: retired. -/
  retired : Bool
deriving DecidableEq, Repr

/-- A fault-storm window (R199, R200). -/
structure Window where
  /-- 6 bits; R199: domain of the reporting QP. -/
  domain : Nat
  /-- 32 bits; R199: peer unit. -/
  peer : W32
  /-- 8 bits; R199: cause. -/
  cause : Nat
  /-- 64 bits; R199: device time of the opening. -/
  opened : Nat
  /-- count; R200: reports. -/
  reports : Nat
  /-- count; R200: sum of n. -/
  sum : Nat
  /-- 32 bits; R200: first association. -/
  first : W32
  /-- 32 bits; R200: last association. -/
  last : W32
  /-- 1 bit; R201: the overflow window. -/
  overflow : Bool
deriving DecidableEq, Repr

/-- A domain's quotas and enable bit (R38). -/
structure Domain where
  /-- 6 bits; R38. -/
  num : Nat
  /-- 32 bits; R38: counters of all classes. -/
  counters : Nat
  /-- 32 bits; R38: STRICT counters. -/
  strict : Nat
  /-- 32 bits; R38: BOUNDED counters. -/
  bounded : Nat
  /-- 16 bits; R38: key identifiers. -/
  kids : Nat
  /-- 9 bits; R38: DRBG instances. -/
  drbgs : Nat
  /-- 1 bit; R38: enabled. -/
  enabled : Bool
deriving DecidableEq, Repr

/-- KIT, the parameter image, the domains (R38, R124, R183, R199). -/
structure Kit where
  /-- R183: identifiers that differ from FREE at generation 0. -/
  kids : List Kid
  /-- ≤ 1,025; R199, R201: open windows in the order they opened. -/
  windows : List Window
  /-- R124: pages that have been written. -/
  pages : List Page
  /-- R38: domains that DOMAIN_SET has set. -/
  domains : List Domain
deriving DecidableEq, Repr

/-! ### Halyards -/

/-- A port state (R205). -/
inductive PortSt where
  | off
  | charging
  | on
  | fault
deriving DecidableEq, Repr

/-- What an exchange asks of a tag (R220, R213). -/
inductive XKind where
  | select
  | identity
  | auth
  | consume
  | readLimit
deriving DecidableEq, Repr

/-- On whose behalf an exchange runs. -/
inductive Why where
  /-- the slate that runs (R233) -/
  | slate
  /-- a scheduled AUTH or the READ_LIMIT after it (R237, R393) -/
  | sched
  /-- the identification repeated after a sweep (R233) -/
  | again
  /-- TAG_AUTH, by its operation (R255) -/
  | host (op : Nat)
  /-- the CONSUME, or the AUTH after a failed CONSUME, of TAG_CONSUME (R257) -/
  | consume (op : Nat)
deriving DecidableEq, Repr

/-- An exchange with the tag at a position (R220, R233). -/
structure Exch where
  /-- R220: what is asked. -/
  kind : XKind
  /-- 4 bits; R228: the position. -/
  pos : Nat
  /-- on whose behalf. -/
  why : Why
  /-- 1-4; R233, R393: the take. -/
  take : Nat
  /-- 0-1; R239: MACs of this AUTH or READ_LIMIT that have failed. -/
  fails : Nat
  /-- 128 bits; R244: the challenge sent. -/
  challenge : W128
  /-- 1-4; R257: the take of TAG_CONSUME. -/
  ctake : Nat
  /-- 128 bits; R243, R261: the tag key in force when the exchange was sent. -/
  key : W128
  /-- 2 bits; R233, R260: first sight and mirror inexact before its AUTH, while READ_LIMIT follows in an identification. -/
  proved : Option (Bool × Bool)
deriving DecidableEq, Repr

/-- A change of a mirror that its tag has proved, before its STRICT places are admitted (R24, R248). -/
inductive Gain where
  /-- a verified use count (R248) -/
  | count (c : Nat)
  /-- an identification after its AUTH: first sight and mirror inexact before it, and the limit if READ_LIMIT proved one (R233) -/
  | ident (first inexact : Bool) (limit : Option Nat)
  /-- a verified limit (R250) -/
  | limit (v : Nat)
  /-- an answer of LIMIT (R257) -/
  | exhausted
deriving DecidableEq, Repr

/-- The line results of a sweep (R226): each slot's code, and the presence slot's (0x96 counts as code 0). -/
structure SweepRes where
  slots : List Nat
  presence : Nat
deriving DecidableEq, Repr

/-- What a port's sequencer does (R231, R233, R237, R240). -/
inductive Act where
  | idle
  /-- ASSIGN naming position n + 1 is on the line (R231) -/
  | assign (n : Nat)
  /-- the confirming sweep over positions 1 to n (R231) -/
  | confirm (n : Nat)
  /-- a STATUS sweep, with the earlier ones of its series (R240) -/
  | sweep (earlier : List SweepRes)
  /-- an exchange is on the line -/
  | exch (x : Exch)
  /-- an exchange waits for a challenge since this device time (R244) -/
  | needChallenge (x : Exch) (since : Nat)
  /-- what an exchange has proved waits for its STRICT places (R24, R248, R261) -/
  | needPlace (x : Exch) (g : Gain)
  /-- the 5 ms before the next take of the exchange, from this device time (R233) -/
  | pauseExch (x : Exch) (since : Nat)
  /-- the 5 ms before the next take of the slate (R231) -/
  | pauseTake (since : Nat)
  /-- the 5 ms before the sweep is repeated (R240) -/
  | pauseSweep (earlier : List SweepRes) (since : Nat)
deriving DecidableEq, Repr

/-- What started a slate series (R232). -/
inductive SlateWhy where
  | first
  | resume
  | portFault
  | host
  | stale
  | sweep
  | auth
deriving DecidableEq, Repr

/-- The tag at a position of a port (R228-R240, R254). -/
structure Pos where
  /-- 1-16; R228. -/
  idx : Nat
  /-- 64 bits; R233: serial. -/
  serial : W64
  /-- 16 bits; R233: family. -/
  family : W16
  /-- 8 bits; R233: model. -/
  model : Byte
  /-- 1 bit; R233: identified. -/
  known : Bool
  /-- 1 bit; R237, R239: authenticated. -/
  authed : Bool
  /-- 128 bits; R243: tag key. -/
  key : W128
  /-- 64 bits; R237, R364: device time at which the next scheduled AUTH falls due. -/
  authDue : Nat
  /-- 1 bit; R224: attention. -/
  attention : Bool
  /-- ≤ 64 bits; R254: side bits held, newest first. -/
  sideBits : List Bool
  /-- 7 bits; R254: bits until the next check after an accepted message. -/
  sideWait : Nat
  /-- 48 bits and device time; R254, R255: last accepted payload. -/
  side : Option (List Byte × Nat)
  /-- 4 bits; R234, R260: the flags of the PLUG still to be posted for it. -/
  plug : Option Nat
  /-- 1 bit; R247: a re-authentication is due at once. -/
  rekeyed : Bool
  /-- ≤ 90; R319: daily samples (day, mirror count, storage margin where a side message has come). -/
  history : List (Nat × Nat × Option Nat)
deriving DecidableEq, Repr

/-- A slate series (R231-R236). -/
structure Series where
  /-- R232. -/
  why : SlateWhy
  /-- R232: k, before it is limited to n. -/
  k : Nat
  /-- 1-4; R231. -/
  take : Nat
  /-- 4 bits; R260: position of the first error. -/
  firstErr : Nat
  /-- 4 bits; R260: last line result. -/
  lastRes : Nat
  /-- 1 bit; R231: PORT_FAULT cause 3 posted in this series. -/
  long : Bool
  /-- R255, R261: the HY_SLATE operations that complete with the series. -/
  ops : List Nat
  /-- 1 bit; R233: the take has succeeded, positions are being identified. -/
  placed : Bool
  /-- R234: the positions of the previous good slate. -/
  old : List Pos
  /-- 32 bits; R260: the previous epoch. -/
  oldEpoch : W32
  /-- 16 bits; R255: positions that failed. -/
  failed : List Nat
deriving DecidableEq, Repr

/-- A transfer that the F840 has put on a line (R213, R220). -/
structure Tx where
  /-- 1 bit; R211, R212: with a lead-in. -/
  leadIn : Bool
  /-- CLK; R213: width of the trigger, 0 for a further frame of a COMMAND transfer. -/
  trigger : Nat
  /-- R220: the bytes of the command frame, with CRC. -/
  frame : List Byte
deriving DecidableEq, Repr

/-- A halyard port (R203-R240). -/
structure Port where
  /-- 6 bits; R203. -/
  num : Nat
  /-- 2 bits; R205. -/
  st : PortSt
  /-- 64 bits; R205: device time at which the state was entered. -/
  since : Nat
  /-- 1 bit; R205: OFF by PORT_POWER or by three overcurrents until turned on again. -/
  held : Bool
  /-- 1 bit; R205, R227: goes OFF at the end of the transfer in progress. -/
  leaving : Bool
  /-- device times; R205: overcurrents of the last 10 s. -/
  shorts : List Nat
  /-- 6 bits; R256: domain. -/
  domain : Nat
  /-- 32 bits; R229: chain epoch. -/
  epoch : W32
  /-- 5 bits; R228: N. -/
  n : Nat
  /-- 1 bit; R236: the slate is stale. -/
  stale : Bool
  /-- 64 bits; R236: device time at which the series that failed ended. -/
  staleAt : Nat
  /-- R228, R233: positions 1 to N. -/
  pos : List Pos
  /-- R237, R255: line operations queued on the port, in order. -/
  queue : List Nat
  /-- R231: the slate series that runs. -/
  series : Option Series
  /-- R231, R255: a slate series waits for the line, its cause, k and HY_SLATE operations. -/
  wanted : Option (SlateWhy × Nat × List Nat)
  /-- R237: what its sequencer does. -/
  act : Act
  /-- 64 bits; R237: device time at which the next sweep falls due. -/
  sweepDue : Nat
  /-- 1 bit; R237: a STATUS sweep has fallen due. -/
  sweepWants : Bool
  /-- R237: positions whose AUTH has fallen due. -/
  authWants : List Nat
  /-- R233: unidentified positions whose slots the last sweep found GOOD: their identification is repeated. -/
  againWants : List Nat
  /-- 64 bits; R212: device time of the last lead-in, frame or trigger; none since CHARGING ended. -/
  lastTx : Option Nat
  /-- R213: what HYC last put on the line, in order. -/
  tx : List Tx
  /-- device times; R209, R211, R213, R215: the transitions of the line that it made, those of the
  last 1,024 T_b, falling first. -/
  wave : List Nat
  /-- 8 bits; R260: cause of the PORT_FAULT that stands. -/
  faultCause : Nat
  /-- 1 bit; R258, R306: it has still to end its first slate series of this start. -/
  firstDue : Bool
  /-- positions × 64 bits; R234: serials of the last good slate. -/
  lastSlate : List (Nat × W64)
  /-- positions × 64 bits; R234: serials that are re-found if met at their positions. -/
  refind : List (Nat × W64)
deriving DecidableEq, Repr

/-- A mirror entry (R248-R251, R102). -/
structure Mirror where
  /-- 12 bits; R102: mirror index. -/
  idx : Nat
  /-- 64 bits; R102: serial. -/
  serial : W64
  /-- 16 bits; R102: family. -/
  family : W16
  /-- 64 bits; R248: mirror count m. -/
  count : Nat
  /-- 64 bits; R249: insertion count. -/
  inserted : Nat
  /-- 64 bits; R102: calendar at the last good AUTH or verified CONSUME. -/
  calendar : Nat
  /-- 32 bits; R250: limit. -/
  limit : Nat
  /-- 32 bits; R102, R249: powered-on seconds of the last good AUTH. -/
  posec : Nat
  /-- 1 bit; R251. -/
  inexact : Bool
  /-- 1 bit; R251. -/
  anomaly : Bool
  /-- 1 bit; R251. -/
  exhausted : Bool
  /-- 1 bit; R251. -/
  present : Bool
  /-- 6 bits; R251. -/
  port : Nat
  /-- 4 bits; R251: last position − 1. -/
  position : Nat
  /-- 1 bit; R251. -/
  limitKnown : Bool
  /-- 32 bits; R259: use count at the last good AUTH or CONSUME. -/
  used : Nat
  /-- 64 bits; R259: device time of the last good AUTH or CONSUME, 0 if none since this start. -/
  lastGood : Nat
deriving DecidableEq, Repr

/-- HYC, the mirrors and the family keys. -/
structure Hyc where
  /-- 48; R203. -/
  ports : List Port
  /-- ≤ 4,096; R248. -/
  mirrors : List Mirror
  /-- 16 × 128 bits; R246: family keys loaded. -/
  families : List (Nat × W128)
  /-- ≤ 48 ports; R179, R238: sweep list, in the order of service. -/
  sweepList : List Nat
  /-- 12 bits each; R24, R251: mirror entries whose present flag is to be cleared once their places are admitted. -/
  clearing : List Nat
  /-- count; R316: insertions counted today. -/
  inserted : Nat
  /-- 8 bits signed; R316: highest tag temperature today. -/
  tagTemp : Option Byte
  /-- 8 bits; R316: lowest tag storage margin today. -/
  tagMargin : Option Nat
deriving DecidableEq, Repr

/-! ### NSU and DRB -/

/-- A noise source state (R271). -/
inductive SrcSt where
  | off
  | starting
  | active
  | spare
  | drained
  | retired
deriving DecidableEq, Repr

/-- A noise source (R262-R271). -/
structure Source where
  /-- 0-9; R262: code. -/
  code : Nat
  /-- R271. -/
  st : SrcSt
  /-- 1 bit; R265: its first start-up test has alarmed, the second runs. -/
  second : Bool
  /-- 1 bit; R276: ACTIVE before the resume that put it in STARTING. -/
  wasActive : Bool
  /-- 1 bit; R276: it has passed its start-up test and waits for the rest of class S. -/
  passed : Bool
  /-- R264, R274: alarms within the last 2^20 samples, newest first: sample number, entries and window inputs that it cost. -/
  alarms : List (Nat × Nat)
  /-- 8 bits; R316: alarms today. -/
  today : Nat
  /-- 64 bits; R268, R274: device time of the end of its last passing window. -/
  lastPass : Nat
  /-- device times; R264, R268: ends of its APT windows in which an alarm fell, newest first. -/
  badEnds : List Nat
  /-- 64 bits; R267: device time from which its samples are conditioned. -/
  from_ : Nat
  /-- R173, R272: retired or being drained while ACTIVE; the source to be switched in at the next entry window boundary, 0xFF if none. -/
  switchDue : Option Nat
  /-- 8 bits; R273: the SPARE for which it is exchanged at the next entry window boundary. -/
  swap : Option Nat
deriving DecidableEq, Repr

/-- An entry window's input in progress, or a pending entry (R267, R268). -/
structure Pending where
  /-- 1 bit; R267: class S. -/
  classS : Bool
  /-- device times; R267: the starts of its entry windows, oldest first. -/
  windows : List Nat
  /-- R267, R268: each source that gave samples, and the end of the last APT window that holds them. -/
  waits : List (Nat × Nat)
  /-- bits of min-entropy × 1; R266, R267: claimed so far. -/
  claimed : Nat
  /-- R266: the samples so far, ascending by source: its code, their number, and the number whose bit i is the i-th. -/
  samples : List (Nat × Nat × Nat)
  /-- R266: the entry, once formed. -/
  entry : Option W384
deriving DecidableEq, Repr

/-- An internal DRBG instance (R270). -/
structure Internal8 where
  /-- 0-7; R270. -/
  num : Nat
  /-- 384 bits; R278: working state, once instantiated. -/
  state : Option W384
  /-- 64 bits; R270: device time of the last (re)seed. -/
  seededAt : Nat
deriving DecidableEq, Repr

/-- NSU (R262-R277). -/
structure Nsu where
  /-- 10; R262. -/
  sources : List Source
  /-- R267: the inputs in progress and pending entries, oldest first. -/
  pending : List Pending
  /-- ≤ 32 × 384 bits; R269: class H seed queue. -/
  queueH : List W384
  /-- ≤ 128 × 384 bits; R269: class S seed queue. -/
  queueS : List W384
  /-- R269: ports whose challenge waits, in order. -/
  waitH : List Nat
  /-- R269: host operations that wait for a class S entry, in order. -/
  waitS : List Nat
  /-- 8; R270: the internal instances. -/
  internals : List Internal8
  /-- 3 bits each; R269: internal instances that wait for an entry, in order. -/
  waitI : List Nat
  /-- 64 bits; R276: settling since this device time. -/
  settling : Option Nat
  /-- 1 bit; R276: READY.RANDOM has been set in this start. -/
  everReady : Bool
  /-- 1 bit; R276: class S waits for the start-up tests of the sources it needs. -/
  heldS : Bool
  /-- 1 bit; R285: NSU runs. -/
  powered : Bool
  /-- days; R273: the powered-on day of the last exchange, plus 1. -/
  exchangeDay : Nat
deriving DecidableEq, Repr

/-- A host DRBG instance (R278-R283). -/
structure Drbg where
  /-- 8 bits; R279: instance number. -/
  num : Nat
  /-- 24 bits; R279: incarnation. -/
  inc : Nat
  /-- 6 bits; R280: domain. -/
  domain : Nat
  /-- 384 bits; R278: working state. -/
  state : W384
  /-- count; R280: requests since the last reseed. -/
  requests : Nat
  /-- count; R280: reseeds since instantiation. -/
  reseeds : Nat
  /-- 1 bit; R283: an automatic reseed is queued. -/
  auto : Bool
deriving DecidableEq, Repr

/-- DRB (R278-R283). -/
structure Drb where
  /-- ≤ 256; R279. -/
  instances : List Drbg
  /-- 9 bits; R279: the lowest number not used in this start. -/
  nextNum : Nat
  /-- R279: freed numbers with their last incarnation, freed longest ago first. -/
  freed : List (Nat × Nat)
  /-- R269, R283: instances whose automatic reseed waits, in order. -/
  autoOrder : List Nat
deriving DecidableEq, Repr

/-! ### Power, start, health, maintenance, placement, firmware -/

/-- A power state (R149). -/
inductive Power where
  | normal
  | warn
  | holdup
deriving DecidableEq, Repr

/-- Where the part stands between resets (R298, R301). -/
inductive Phase where
  /-- unpowered, in reset or held in reset: no step of R301 has begun -/
  | reset
  /-- steps 2 and 3: regulators, reference, PLL -/
  | clocking
  /-- step 6: calibrations -/
  | calibrating
  /-- step 7: replay -/
  | replaying
  /-- step 8: BIST at start -/
  | testing
  /-- step 9: rebuild -/
  | rebuilding
  /-- step 10: waits for READY.HOLDUP and for BOUNDED entries -/
  | waiting
  /-- SESSION_OPEN is written (step 11 on) -/
  | running
  /-- SAFE entered in the start: no later step runs (R337) -/
  | safe
  /-- stopped at step 4: a fuse word is lost (R302) -/
  | halted
deriving DecidableEq, Repr

/-- A monitored level outside its window (R294). -/
structure MonOut where
  /-- R294: object code. -/
  object : Nat
  /-- R294: kind. -/
  kind : Nat
  /-- 64 bits; R294: device time since which it is back inside, if it is. -/
  backAt : Option Nat
deriving DecidableEq, Repr

/-- What a BIST_RESULT notes of the moment its BIST began (R327). -/
structure BistStart where
  /-- 64 bits; R327: device time. -/
  at_ : Nat
  /-- 64 bits; R327: powered-on seconds. -/
  posec : Nat
  /-- 64 bits; R327: calendar seconds. -/
  cal : Nat
  /-- mV; R327: VIN. -/
  vin : Nat
deriving DecidableEq, Repr

/-- PMU and the state of the start. -/
structure Pmu where
  /-- R301. -/
  phase : Phase
  /-- 2 bits; R149. -/
  power : Power
  /-- mV; R154: VIN last measured. -/
  vin : Nat
  /-- mV; R140, R154: VHOLD last measured. -/
  vhold : Nat
  /-- 1 bit; R289, R291: VIN at or above 9.0 V. -/
  chargerOn : Bool
  /-- 1 bit; R289: VHOLD has reached 11.0 V and not fallen to 10.9 V. -/
  full : Bool
  /-- 1 bit; R142, R289, R303: a draw holds the charger. -/
  drawing : Bool
  /-- µF; R140, R361: C_meas. -/
  cMeas : Nat
  /-- mΩ; R140, R361: ESR_meas. -/
  esrMeas : Nat
  /-- 1 bit; R361: a measurement has completed in this start. -/
  measured : Bool
  /-- mV; R142: V_top lowered for CAP_MEASURE. -/
  vTopCap : Option Nat
  /-- 64 bits; R154: device time WARN began, and CLK spent in WARN before a HOLDUP. -/
  warnAt : Nat
  /-- 64 bits; R154: CLK in WARN of this dip. -/
  warnTime : Nat
  /-- 64 bits; R154: device time HOLDUP began. -/
  holdupAt : Nat
  /-- 1 bit; R151, R152: VIN has been above 10.5 V for 10 ms in HOLDUP. -/
  vinBack : Bool
  /-- 1 bit; R323, R324, R355: SHUTDOWN_PREPARE has taken effect. -/
  shutdown : Bool
  /-- 1 bit; R297, R298: RESET_N is low. -/
  resetLow : Bool
  /-- 1 bit; R298, R301: hold-up check of the start: kind of RAIL_FAULT last posted. -/
  checkKind : Option Nat
  /-- 1 bit; R303: the quick check has ended. -/
  quickDone : Bool
  /-- R294: levels outside their windows. -/
  outside : List MonOut
  /-- 1 bit; R302: the fuses show that the F840 has run before. -/
  ranBefore : Bool
  /-- 1 bit; R157: RECOVERY_SKIP has still to be posted, its details. -/
  recovery : Option (Nat × List Byte)
  /-- count; R328: count of the kind 3 record, and kind of record the start writes. -/
  bistPlan : Option (Nat × Nat)
  /-- R329: the moment at which the BIST at start began. -/
  bistFrom : Option BistStart
  /-- R329: the outcome of a BIST at start, until its record is written. -/
  bistStart : Option (List Byte)
  /-- 18 bits each; R394: BOUNDED counters that wait for admission at step 10. -/
  uncovered : List Nat
  /-- 2 bits; R297: lockstep pairs that have failed. -/
  failedPairs : List Nat
  /-- R113: counters whose two copies name different groups, and copy B's group. -/
  otherGroups : List (Nat × Nat)
  /-- 1 bit; R304: VHOLD has reached 11.0 V in this start. -/
  reached : Bool
deriving DecidableEq, Repr

/-- A maintenance activity (R332, R333). -/
structure Maint where
  /-- 1-4; R333: activity. -/
  kind : Nat
  /-- 8 bits; R330, R333: block code, or copy. -/
  block : Nat
  /-- 1 bit; R333: mode. -/
  mode : Nat
  /-- R333: ticket, 0 for an internal request. -/
  ticket : Nat
  /-- 1 bit; R118: a forced COMPACT. -/
  forced : Bool
  /-- 64 bits; R332: device time of the first turn of a BIST_BLOCK. -/
  turn : Option Nat
  /-- 64 bits; R334: device time of the last change. -/
  changed : Nat
  /-- count; R332, R335: sectors erased or refreshed before the activity was stopped and queued again. -/
  value : Nat
deriving DecidableEq, Repr

/-- The activity that runs (R332). -/
structure Running where
  /-- R332: its request. -/
  req : Maint
  /-- 64 bits; R335: device time of its start. -/
  started : Nat
  /-- R173, R327: the drain has ended, the test runs since this moment. -/
  test : Option BistStart
  /-- 1 bit; R331, R110: the test has passed, the catch-up of its copy runs before MAINT_DONE. -/
  catching : Bool
  /-- count; R335: sectors erased or refreshed. -/
  value : Nat
  /-- 0-4; R142: draws that have ended. -/
  draws : Nat
  /-- 1 bit; R142: a draw is under way. -/
  drawing : Bool
  /-- 64 bits; R142: device time of the start of the first draw. -/
  firstAt : Nat
  /-- µV; R142: sum of the falls. -/
  falls : Nat
  /-- µV; R142: sum of the steps. -/
  steps : Nat
  /-- windows; R173: consecutive windows in which the load condition failed. -/
  failing : Nat
  /-- count; R173: groups that have left the engine being drained. -/
  moved : Nat
  /-- R122: sectors still to be scanned, (bank, sector). -/
  left : List (Nat × Nat)
deriving DecidableEq, Repr

/-- The maintenance arbiter (R332-R335). -/
structure Mnt where
  /-- R332: the activity that runs. -/
  running : Option Running
  /-- ≤ 16 of the host and one internal of each kind; R332. -/
  queue : List Maint
  /-- ≤ 64; R334: ended tickets (ticket, result, device time), newest first. -/
  ended : List (Nat × Nat × Nat)
  /-- R333: the next ticket. -/
  nextTicket : Nat
  /-- operations/s; R173: total counter load of the last window. -/
  load : Nat
  /-- windows, at most 4; R173: for each block, the last windows in which its drain condition held without a break. -/
  held : List (Nat × Nat)
  /-- R331: blocks kept out of service until the next reset after a failed test. -/
  out : List Nat
deriving DecidableEq, Repr

/-- A placement decision (R181). -/
structure Decision where
  num : Nat
  code : Nat
  object : W32
  from_ : W32
  to_ : W32
  value : W64
  time : Nat
deriving DecidableEq, Repr

/-- Placement's own state (R163-R182). -/
structure Plc where
  /-- ≤ 1,024; R181: the decisions kept, oldest first. -/
  log : List Decision
  /-- count; R181. -/
  nextNum : Nat
  /-- 1, 2, 4, 8 or 16; R175: w. -/
  wear : Nat
  /-- R24, R175: the w that a powered-on day has led to, until its record is written, with the ceiling records of that day. -/
  wearDue : Option (Nat × Nat)
  /-- count; R179: N at the last setting. -/
  active : Nat
  /-- s; R174, R179: T at the last setting. -/
  period : Nat
  /-- count; R169: LOOSE moves in this second. -/
  looseMoves : Nat
  /-- s; R169: the second these were counted in. -/
  looseSecond : Nat
  /-- count; R179: moves this powered-on day. -/
  movesToday : Nat
deriving DecidableEq, Repr

/-- HMU: dailies and alerts (R314-R322). -/
structure Hmu where
  /-- ≤ 128; R317: dailies kept (day, payload), oldest first. -/
  dailies : List (Nat × List Byte)
  /-- R320: alert stage of an indicator. -/
  stages : List (Nat × Nat)
  /-- s; R315: powered-on seconds at which the next daily falls due. -/
  nextDaily : Nat
  /-- 1 bit; R315: a daily fell due in WARN. -/
  dailyHeld : Bool
  /-- 1 bit; R24, R318: a daily has been written, the fits over it have still to be made. -/
  fitDue : Bool
  /-- count; R316: counter operations today. -/
  ctrOps : Nat
  /-- R323: the BIST of SHUTDOWN_PREPARE runs. -/
  bistRuns : Bool
  /-- R327: the moment at which it began. -/
  bistAt : Option BistStart
  /-- 64 bits; R142: device time at which the first CAP_MEASURE is to be queued, until it has been. -/
  capFirst : Option Nat
deriving DecidableEq, Repr

/-- The fuses (R302): nonvolatile, each word held twice; written at manufacture. -/
structure Fuses where
  /-- 64 bits; R302: device serial. -/
  serial : W64
  /-- 256 bits; R99, R302: seed of the sealing key. -/
  sealingSeed : W256
  /-- 256 bits; R245, R302: seed of the challenge key. -/
  challengeSeed : W256
  /-- 256 bits; R247, R302: key-loading key. -/
  loadingKey : W256
  /-- 4 × 256 bits; R302, R309: firmware key hashes. -/
  keyHashes : List W256
  /-- 4 × 1 bit; R302, R309: revoked key indices. -/
  revoked : List Bool
  /-- R302: trim values of PMU, NSU and the flash references. -/
  trims : List Nat
  /-- R302: BIST signatures. -/
  signatures : List Nat
deriving DecidableEq, Repr

/-- The keys derived at each start and held in AE0 and AE1 (R99, R245). -/
structure Keys where
  /-- 256 bits; R99: sealing key, once derived in this start. -/
  sealing : Option W256
  /-- 256 bits; R245: challenge key, once derived in this start. -/
  challenge : Option W256
deriving DecidableEq, Repr

/-- A firmware slot (R309-R312). -/
structure Slot where
  /-- bytes; R309, R310: the image bytes staged, from +0x00. -/
  bytes : List Byte
  /-- 1 bit; R310: incomplete. -/
  incomplete : Bool
deriving DecidableEq, Repr

/-- The code flash (R309-R312). -/
structure Fw where
  slot0 : Slot
  slot1 : Slot
  /-- 1 bit; R312: the active slot. -/
  active : Nat
  /-- 1 bit; R311: an activation is pending. -/
  pending : Bool
  /-- 32 bits; R366: version of the running image. -/
  version : W32
  /-- 1 bit; R312: the slot state has changed and CONFIG 0x400 is to be written after READY.JOURNAL. -/
  record : Bool
deriving DecidableEq, Repr

/-- What has left the part besides host memory writes. -/
structure Out where
  /-- R50: vectors of the MSI-X messages sent, newest first. -/
  msix : List Nat
  /-- R58: QPs reported through advanced error reporting, newest first. -/
  aer : List Nat
deriving DecidableEq, Repr

/-- The F840. -/
structure State where
  /-- Commands waiting, first in first out. -/
  pending : List Instr
  /-- R28, R41, R52: host memory as HIF reads and writes it. -/
  mem : List Host.Cell
  clk : Clk
  regs : Regs
  ready : Ready
  hif : Hif
  ev : EventSt
  ctr : Ctr
  int : Internal
  owed : OwedSt
  jrn : Jrn
  flush : Flush
  kit : Kit
  hyc : Hyc
  nsu : Nsu
  drb : Drb
  pmu : Pmu
  mnt : Mnt
  plc : Plc
  hmu : Hmu
  fw : Fw
  fuse : Fuses
  keys : Keys
  out : Out
deriving DecidableEq, Repr

/-- Reasons a step could stop the machine. No meaning of the F840 raises one: an operation that fails ends with a status
(R61). -/
inductive Fault where
  /-- Never raised: the manual gives no happening at which the part stops without a state of its own. Safe. -/
  | none
deriving DecidableEq, Repr

/-- Reasons a step could be refused. -/
inductive Refusal where
  /-- An arm of `exec` that has no meaning yet, by its mnemonic. Safe: nothing is claimed of it. -/
  | notModelled (mnemonic : String)
deriving DecidableEq, Repr

/-! ### Reset -/

/-- A base pair after a HIF reset (R352, R356). -/
def BasePair.reset : BasePair := ⟨0, 0, none⟩

/-- The registers of the HIF group at their reset values; the others at theirs (R352-R367). -/
def Regs.reset : Regs where
  hoist := BasePair.reset
  adminSq := BasePair.reset
  adminCq := BasePair.reset
  eventRing := BasePair.reset
  adminSizes := 0
  eventSize := 0
  pollPeriod := 2
  msixCfg := 0
  monA := 0xFF00FF00
  monB := 0xFF00FF00
  portLo := 0
  portHi := 0
  halyardCfg := 0x0A32
  scratch := 0
  setupError := false
  resetCause := 0
  safeCause := 0
  locked := true
  unlockReq := false

/-- The clock before PLL lock (R14, R366); the calendar counts from 0 until the first TIME_SET (R308). -/
def Clk.reset : Clk where
  running := false
  now := 0
  holdover := false
  refPresent := false
  slewing := false
  losses := 0
  calBase := 0
  calClk := 0
  calAt := 0
  calNotSet := true
  calImprecise := false
  captures := []
  readData := 0

/-- READY after a reset (R306). -/
def Ready.reset : Ready := ⟨false, false, false, false, false, false, false, false, false⟩

/-- HIF after a HIF reset (R55): no QP, no operation, every count 0. -/
def Hif.reset : Hif where
  linkUp := false
  qps := []
  groupWords := List.replicate 64 0
  scanGroup := 0
  headRead := List.replicate 64 0
  ops := []
  nextOp := 0
  energyOrder := []
  credits := [8, 4, 2, 1]
  visited := [0, 0, 0, 0]
  msixMasked := 0
  msixPending := 0

/-- The event ring not set up, nothing posted (R54). -/
def EventSt.reset : EventSt := ⟨none, 0, 0, [], 0, 0, 0, 0, 0, 0⟩

/-- An engine with no load (R172). -/
def Engine.reset : Engine := ⟨0, 0, 0, 0, false, false, 0⟩

/-- CTT zeroised (R302), no number used (R66). -/
def Ctr.reset : Ctr where
  leaves := []
  groups := []
  emptied := []
  sections := List.replicate 64 0
  roots := [0, 0, 0]
  nextNumber := 0
  closedOrder := []
  retired := []
  u := 0
  engines := List.replicate 4 Engine.reset
  gapWindows0 := 0
  gapWindows := 0
  corrected := 0

/-- The internal counters of a new F840 (R94). -/
def Internal.reset : Internal := ⟨0, 0, 0, 0, 0, 0⟩

/-- Empty owed sets, no energy certified (R141). -/
def OwedSt.reset : OwedSt := ⟨[], [], false, 0, 0, 0, 0⟩

/-- An erased sector of a new F840 (R105). -/
def Sector.reset (bank idx : Nat) : Sector where
  bank := bank
  idx := idx
  st := .erased
  erases := 0
  eraseTime := 0
  firstSeq := 0
  opened := 0
  next := 1
  shut := false
  failures := 0
  corrected := 0
  weak := 0

/-- The sealing key of the F840 as manufactured, in bytes (R99, R302). -/
def factoryKey : List Byte := leBytes 32 (Config.deriveSealing Config.sealingSeed).toNat

/-- The slots that the factory programmed in one copy: a sector header, then CONFIG records 0x200 (no sector retired, w = 1), 0x400
(slot 0 active, nothing staged) and 0x500 (U = 0) (R104, R116). (DESIGN CHOICE: notes/assumptions/9.md) -/
def factorySlots (bank : Nat) : List FlashSlot :=
  let config (seq item : Nat) (payload : List Byte) := recordBytes 11 0 false seq item payload
  let bytes := withMac factoryKey (headerFields bank 0 0 0 1 0) ++
    withMac factoryKey (config 1 0x200 (leBytes 32 0 ++ leBytes 1 1 ++ leBytes 43 0)) ++
    withMac factoryKey (config 2 0x400 (leBytes 44 0)) ++ withMac factoryKey (config 3 0x500 (leBytes 12 0))
  ((slotsOf 7 bytes).zip (List.range 7)).map fun x => ⟨bank, 0, x.2, some x.1⟩

/-- The sectors of a new F840: the first of banks 0 and 2 holds the factory's records, the others are erased (R116). -/
def Sector.new (bank idx : Nat) : Sector :=
  if idx = 0 ∧ bank % 2 = 0 then { Sector.reset bank idx with st := .inUse, firstSeq := 1, next := 7, shut := true }
  else Sector.reset bank idx

/-- The formatted journal of a new F840, with its first CONFIG records (R116; notes/assumptions/9.md).
(DESIGN CHOICE: notes/assumptions/9.md) -/
def Jrn.reset : Jrn where
  nextSeq := 4
  sectors := (List.range 4).flatMap fun b => (List.range 64).map (Sector.new b)
  flash := factorySlots 0 ++ factorySlots 2
  insts := []
  current := []
  queue := []
  nextWrite := 1
  progs := []
  waiting := []
  emptying := []
  outA := false
  outB := false
  session := 0
  eraseTimes := (0, 0)
  correctedToday := 0
  weakMax := 0
  ceilToday := 0
  otherToday := 0
  slotsToday := 0
  dead := false

/-- No flush (R146). -/
def Flush.reset : Flush := ⟨.none, false, false, 0, [], 0, false, false, none, 0, 0⟩

/-- Every identifier FREE at generation 0, every page unwritten, domain 0 alone enabled (R38, R124, R183). -/
def Kit.reset : Kit := ⟨[], [], [], []⟩

/-- A port after a reset (R205, R229, R256). -/
def Port.reset (n : Nat) : Port where
  num := n
  st := .off
  since := 0
  held := false
  leaving := false
  shorts := []
  domain := 0
  epoch := 0
  n := 0
  stale := false
  staleAt := 0
  pos := []
  queue := []
  series := none
  wanted := none
  act := .idle
  sweepDue := 0
  sweepWants := false
  authWants := []
  againWants := []
  lastTx := none
  tx := []
  wave := []
  faultCause := 0
  firstDue := false
  lastSlate := []
  refind := []

/-- Every port OFF, no mirror, no family key (R205). -/
def Hyc.reset : Hyc := ⟨(List.range 48).map Port.reset, [], [], [], [], 0, none, none⟩

/-- A source before its start-up test (R271). -/
def Source.reset (c : Nat) : Source := ⟨c, .off, false, false, false, [], 0, 0, [], 0, none, none⟩

/-- NSU before calibration (R276). -/
def Nsu.reset : Nsu where
  sources := (List.range 10).map Source.reset
  pending := []
  queueH := []
  queueS := []
  waitH := []
  waitS := []
  internals := (List.range 8).map fun i => ⟨i, none, 0⟩
  waitI := []
  settling := none
  everReady := false
  heldS := false
  powered := false
  exchangeDay := 0

/-- No host instance (R279). -/
def Drb.reset : Drb := ⟨[], 0, [], []⟩

/-- PMU in reset (R149, R298). -/
def Pmu.reset : Pmu where
  phase := .reset
  power := .normal
  vin := 0
  vhold := 0
  chargerOn := false
  full := false
  drawing := false
  cMeas := 0
  esrMeas := 0
  measured := false
  vTopCap := none
  warnAt := 0
  warnTime := 0
  holdupAt := 0
  vinBack := false
  shutdown := false
  resetLow := false
  checkKind := none
  quickDone := false
  outside := []
  ranBefore := false
  recovery := none
  bistPlan := none
  bistFrom := none
  bistStart := none
  uncovered := []
  failedPairs := []
  otherGroups := []
  reached := false

/-- No maintenance (R332). -/
def Mnt.reset : Mnt := ⟨none, [], [], 1, 0, [], []⟩

/-- No decision logged, w = 1 (R175, R181). -/
def Plc.reset : Plc := ⟨[], 0, 1, none, 0, 60, 0, 0, 0⟩

/-- No daily kept (R315). -/
def Hmu.reset : Hmu := ⟨[], [], 86400, false, false, 0, false, none, none⟩

/-- The factory image in slot 0, nothing staged (R309, R312; notes/assumptions/9.md). -/
def Fw.reset : Fw := ⟨⟨Config.factoryImage, false⟩, ⟨[], false⟩, 0, false, 0, false⟩

/-- The fuses as manufactured (R302). -/
def Fuses.reset : Fuses where
  serial := Config.serial
  sealingSeed := Config.sealingSeed
  challengeSeed := Config.challengeSeed
  loadingKey := Config.loadingKey
  keyHashes := (List.range 4).map Config.keyHash
  revoked := (List.range 4).map Config.keyRevoked
  trims := (List.range 3).map Config.trim
  signatures := Config.bistSignatures

/-- No key derived (R99, R245). -/
def Keys.reset : Keys := ⟨none, none⟩

/-- The F840 right after reset: a new part before power good (R14, R205, R301, R306, R352). (DESIGN CHOICE: notes/assumptions/9.md)
(DESIGN CHOICE: notes/assumptions/10.md) -/
def State.reset : State where
  pending := []
  mem := []
  clk := Clk.reset
  regs := Regs.reset
  ready := Ready.reset
  hif := Hif.reset
  ev := EventSt.reset
  ctr := Ctr.reset
  int := Internal.reset
  owed := OwedSt.reset
  jrn := Jrn.reset
  flush := Flush.reset
  kit := Kit.reset
  hyc := Hyc.reset
  nsu := Nsu.reset
  drb := Drb.reset
  pmu := Pmu.reset
  mnt := Mnt.reset
  plc := Plc.reset
  hmu := Hmu.reset
  fw := Fw.reset
  fuse := Fuses.reset
  keys := Keys.reset
  out := ⟨[], []⟩

end Sys2Proof.Machine
end

