-- ==== Sys2Proof/Machine/Ops.lean ====
section
/-!
DEFINITION. The named operations over the state that every unit uses: host memory, the clock and the calendar, and the placement
log.
-/
namespace Sys2Proof.Machine

/-! ### Host memory -/

/-- What an address of host memory reads as; an unlisted one reads 0x00 (notes/assumptions/4.md).
(DESIGN CHOICE: notes/assumptions/4.md) -/
def memByte : List Host.Cell → Nat → Byte
  | [], _ => 0
  | (x, c) :: m, a => if x = a then c else memByte m a

/-- A byte written to host memory, keeping the canonical form. -/
def memPut : List Host.Cell → Nat → Byte → List Host.Cell
  | [], a, b => if b = 0 then [] else [(a, b)]
  | (x, c) :: m, a, b =>
    if a < x then (if b = 0 then (x, c) :: m else (a, b) :: (x, c) :: m)
    else if a = x then (if b = 0 then m else (a, b) :: m)
    else (x, c) :: memPut m a b

/-- Every address of the list above `lo`, strictly rising, no byte equal to what an unlisted address reads as. -/
def memWfFrom : Nat → List Host.Cell → Bool
  | _, [] => true
  | lo, (x, c) :: m => decide (lo ≤ x) && decide (c ≠ 0) && memWfFrom (x + 1) m

/-- The canonical form of host memory. -/
def memWf (m : List Host.Cell) : Bool := memWfFrom 0 m

/-- Bytes written to host memory from an address upwards. -/
def memPutBytes : List Host.Cell → Nat → List Byte → List Host.Cell
  | m, _, [] => m
  | m, a, b :: bs => memPutBytes (memPut m a b) (a + 1) bs

/-- `n` bytes of host memory from an address upwards. -/
def memGetBytes (m : List Host.Cell) : Nat → Nat → List Byte
  | _, 0 => []
  | a, n + 1 => memByte m a :: memGetBytes m (a + 1) n

/-- What the host has written by now, stored in the order given (notes/assumptions/3.md). (DESIGN CHOICE: notes/assumptions/3.md) -/
def hostWrites (hw : HostWrites) (s : State) : State :=
  { s with mem := hw.foldl (fun m c => memPut m c.1 c.2) s.mem }

/-- HIF writes bytes to host memory (posted write). -/
def writeHost (a : Nat) (bs : List Byte) (s : State) : State :=
  { s with mem := memPutBytes s.mem a bs }

/-- HIF reads bytes of host memory. -/
def readHost (s : State) (a n : Nat) : List Byte := memGetBytes s.mem a n

/-- HIF reads a 32-bit little-endian word of host memory (R7). -/
def readWord (s : State) (a : Nat) : W32 := BitVec.ofNat 32 (leNat (readHost s a 4))

/-! ### Clock and calendar (R13, R14, R16) -/

/-- The clock counts on to device time `t`, if CLK runs and `t` lies ahead (R14, notes/assumptions/1.md).
(DESIGN CHOICE: notes/assumptions/1.md) -/
def advance (t : Nat) (s : State) : State :=
  if s.clk.running && decide (s.clk.now < t) then { s with clk := { s.clk with now := t } } else s

/-- One CLK on an empty queue (R14, notes/assumptions/1.md). -/
def tick (s : State) : State :=
  if s.clk.running then { s with clk := { s.clk with now := s.clk.now + 1 } } else s

/-- One second in CLK (R13). -/
def second : Nat := 2 ^ 30

/-- 1 ms in CLK, rounded up (R88). -/
def oneMs : Nat := 1073742

/-- 10 ms in CLK (R150, R282). -/
def tenMs : Nat := 10737419

/-- 5 ms in CLK, rounded up (R231). -/
def fiveMs : Nat := 5368710

/-- 100 ms in CLK (R192). -/
def hundredMs : Nat := 107374183

/-- 25 ms in CLK (R205). -/
def twentyFiveMs : Nat := 26843546

/-- The calendar in whole seconds (R16, R307). -/
def calendar (s : State) : Nat := s.clk.calBase + (s.clk.calClk + (s.clk.now - s.clk.calAt)) / second

/-- CLK within the calendar's second (R307). -/
def calendarClk (s : State) : Nat := (s.clk.calClk + (s.clk.now - s.clk.calAt)) % second

/-- Device time as the 64-bit word software sees (R14). -/
def timeWord (s : State) : W64 := BitVec.ofNat 64 s.clk.now

/-- IDENTIFY +0x38 [1]: time imprecise, from the last start or from holdover (R59, R307). -/
def timeImprecise (s : State) : Bool := s.clk.calImprecise || s.clk.holdover

/-! ### SAFE (R336) -/

/-- The F840 is in SAFE (R336). -/
def inSafe (s : State) : Bool := decide (s.regs.safeCause ≠ 0)

/-! ### The decision log (R181) -/

/-- A decision logged with the next number; the last 1,024 are kept (R181). -/
def logDecision (code object from_ to_ value : Nat) (s : State) : State :=
  { s with plc := { s.plc with
      log := lastN 1024 (s.plc.log ++ [{
        num := s.plc.nextNum, code := code, object := BitVec.ofNat 32 object, from_ := BitVec.ofNat 32 from_,
        to_ := BitVec.ofNat 32 to_, value := BitVec.ofNat 64 value, time := s.clk.now }])
      nextNum := s.plc.nextNum + 1 } }

/-! ### CRCs of the halyard line (R219, R253) -/

/-- One bit of the CRC-16 of R219. -/
def crc16Step (crc : Nat) : Nat :=
  if crc ≥ 0x8000 then Nat.xor (crc * 2) 0x1021 % 65536 else crc * 2 % 65536

/-- `n` bits of the CRC-16 of R219. -/
def crc16Steps : Nat → Nat → Nat
  | 0, crc => crc
  | n + 1, crc => crc16Steps n (crc16Step crc)

/-- The CRC-16 of a frame's bytes (R219). -/
def crc16 (bs : List Byte) : Nat :=
  bs.foldl (fun crc d => crc16Steps 8 (Nat.xor crc (d.toNat * 256))) 0xFFFF

/-- One bit of the CRC-8 of R253. -/
def crc8Step (crc : Nat) : Nat :=
  if crc ≥ 0x80 then Nat.xor (crc * 2) 0x07 % 256 else crc * 2 % 256

/-- `n` bits of the CRC-8 of R253. -/
def crc8Steps : Nat → Nat → Nat
  | 0, crc => crc
  | n + 1, crc => crc8Steps n (crc8Step crc)

/-- The CRC-8 of a side message's payload (R253). -/
def crc8 (bs : List Byte) : Nat :=
  bs.foldl (fun crc d => crc8Steps 8 (Nat.xor crc d.toNat)) 0

end Sys2Proof.Machine
end

