-- ==== Sys2Proof/Machine/Flags.lean ====
section
/-!
DEFINITION. The flags the F840 computes from its state: status codes (spec/02_host_rings.md R61), the READY and STATUS words
(spec/11_power_clock_startup.md R306, spec/14_registers.md R355), the status outputs (R296) and what every BAR0 register
reads as (R352-R368).
-/
namespace Sys2Proof.Machine

/-! ### Status codes -/

/-- The status codes of a completion (R61). -/
inductive Status where
  | ok | badOpcode | badField | noObject | wrongDomain | classRule | rangeEnd | limitReached | timeBackward | notReady
  | randomWaitTimeout | energyWaitTimeout | staleEpoch | notOnline | safeState | aborted | tagAbsent | tagAuthFail
  | tagLineError | tagCountAnomaly | tagExhausted | portOff | spliceTimeout | kidState | mediaError | signatureFail
deriving DecidableEq, Repr

/-- The byte of a status code (R61). -/
def statusByte : Status → Byte
  | .ok => 0x00
  | .badOpcode => 0x10
  | .badField => 0x11
  | .noObject => 0x12
  | .wrongDomain => 0x13
  | .classRule => 0x14
  | .rangeEnd => 0x15
  | .limitReached => 0x16
  | .timeBackward => 0x17
  | .notReady => 0x20
  | .randomWaitTimeout => 0x21
  | .energyWaitTimeout => 0x22
  | .staleEpoch => 0x23
  | .notOnline => 0x24
  | .safeState => 0x25
  | .aborted => 0x26
  | .tagAbsent => 0x30
  | .tagAuthFail => 0x31
  | .tagLineError => 0x32
  | .tagCountAnomaly => 0x33
  | .tagExhausted => 0x34
  | .portOff => 0x35
  | .spliceTimeout => 0x40
  | .kidState => 0x41
  | .mediaError => 0x50
  | .signatureFail => 0x51

/-! ### READY and STATUS -/

/-- READY.READY: COUNTERS, HOLDUP and HALYARD set, SHUTDOWN_DONE clear, not in SAFE (R306). -/
def readySummary (s : State) : Bool :=
  s.ready.counters && s.ready.holdup && s.ready.halyard && !s.ready.shutdownDone && !inSafe s

/-- The READY register (R306). -/
def readyWord (s : State) : W32 :=
  BitVec.ofNat 32 (bit s.ready.pllLock + 2 * bit s.ready.sramInit + 4 * bit s.ready.calib + 8 * bit s.ready.journal +
    16 * bit s.ready.counters + 32 * bit s.ready.holdup + 64 * bit s.ready.random + 128 * bit s.ready.halyard +
    256 * bit s.ready.shutdownDone + 2 ^ 31 * bit (readySummary s))

/-- QP 0 exists: STATUS.ADMIN_UP (R355). -/
def adminUp (s : State) : Bool := s.hif.qps.any fun q => q.num == 0

/-- The event ring is set up: STATUS.EVENTS_UP (R355). -/
def eventsUp (s : State) : Bool := s.ev.ring.isSome

/-- STATUS.POWER_STATE (R355). -/
def powerCode : Power → Nat
  | .normal => 0
  | .warn => 1
  | .holdup => 2

/-- The STATUS register (R355). -/
def statusWord (s : State) : W32 :=
  BitVec.ofNat 32 (s.regs.resetCause % 8 + 16 * powerCode s.pmu.power + 64 * bit (inSafe s) + 128 * bit s.pmu.shutdown +
    256 * bit (adminUp s) + 512 * bit (eventsUp s) + 1024 * bit s.regs.setupError)

/-! ### Status outputs (R288, R296) -/

/-- PFAIL_N is high: NORMAL after READY.COUNTERS, unless SAFE was entered at the start (R296). -/
def pfailHigh (s : State) : Bool :=
  s.ready.counters && decide (s.pmu.power = .normal) && decide (s.pmu.phase ≠ .safe)

/-- SAFE_N is high (R296). -/
def safeHigh (s : State) : Bool := !inSafe s

/-- The READY output: READY.READY in NORMAL and WARN, low in HOLDUP (R296). -/
def readyHigh (s : State) : Bool := readySummary s && decide (s.pmu.power ≠ .holdup)

/-- The pair conducts from VHOLD to VSYS: in HOLDUP, while VHOLD is above the input (R288). (DEDUCED: notes/assumptions/75.md) -/
def hgateOn (s : State) : Bool := decide (s.pmu.power = .holdup) && decide (s.pmu.vin < s.pmu.vhold)

/-- HYPWR is on while a port is outside OFF (R290). -/
def hypwrOn (s : State) : Bool := s.hyc.ports.any fun p => decide (p.st ≠ .off)

/-! ### BAR0 (R352) -/

/-- CLOCK_STATUS (R366). -/
def clockStatus (s : State) : W32 :=
  BitVec.ofNat 32 (bit s.ready.pllLock + 2 * bit s.clk.holdover + 4 * bit s.clk.refPresent + 8 * bit s.clk.slewing +
    256 * saturate s.clk.losses 255)

/-- HOLDUP_CFG (R361). -/
def holdupCfg (s : State) : W32 :=
  BitVec.ofNat 32 (saturate s.pmu.cMeas 65535 + 2 ^ 16 * saturate s.pmu.esrMeas 4095 + 2 ^ 30 * bit s.pmu.measured)

/-- What the register at an offset holds; offsets not listed read 0, CTRL is write-only (R351, R352). TIME_LO and TIME_HI read
through the capture of R15 instead. (DEDUCED: notes/assumptions/43.md) -/
def registerWord (s : State) : Nat → W32
  | 0x000 => 0x08401F6B
  | 0x004 => BitVec.zeroExtend 32 Config.stepping
  | 0x008 => 0x0FF00C12
  | 0x00C => readyWord s
  | 0x010 => s.regs.safeCause
  | 0x018 => statusWord s
  | 0x020 => s.regs.hoist.lo
  | 0x024 => s.regs.hoist.hi
  | 0x030 => s.regs.adminSq.lo
  | 0x034 => s.regs.adminSq.hi
  | 0x038 => s.regs.adminCq.lo
  | 0x03C => s.regs.adminCq.hi
  | 0x040 => s.regs.adminSizes
  | 0x044 => s.regs.eventRing.lo
  | 0x048 => s.regs.eventRing.hi
  | 0x04C => s.regs.eventSize
  | 0x050 => s.regs.pollPeriod
  | 0x054 => s.regs.msixCfg
  | 0x058 => holdupCfg s
  | 0x05C => s.regs.monA
  | 0x060 => s.regs.monB
  | 0x064 => s.regs.portLo
  | 0x068 => s.regs.portHi
  | 0x06C => s.regs.halyardCfg
  | 0x070 => BitVec.truncate 32 (timeWord s)
  | 0x074 => BitVec.truncate 32 (timeWord s >>> 32)
  | 0x078 => BitVec.ofNat 32 (bit s.regs.locked + 2 * bit s.regs.unlockReq)
  | 0x07C => s.regs.scratch
  | 0x080 => s.fw.version
  | 0x084 => clockStatus s
  | _ => 0

/-- BAR0 is reachable: the link is up and READY.CALIB is set (R351, R305). -/
def barReachable (s : State) : Bool := s.hif.linkUp && s.ready.calib

end Sys2Proof.Machine
end

