-- ==== Sys2Proof/Machine/Operands.lean ====
section
/-!
DEFINITION. The operand forms of a descriptor (spec/02_host_rings.md R39, R40, R60): its bytes, its fields, the reserved bits of
R8, and the object an operation acts on (R46).
-/
namespace Sys2Proof.Machine

/-- The descriptor that 32 bytes of a submission ring spell, as a fetched operation of a QP (R39). -/
def readDescriptor (bs : List Byte) (k : Nat) (q : Qp) : Op where
  id := k
  qp := q.num
  cls := q.cls
  domain := q.domain
  opcode := fieldAt bs 0x00 1
  flags := BitVec.ofNat 8 (fieldAt bs 0x01 1)
  tag := BitVec.ofNat 16 (fieldAt bs 0x02 2)
  obj := BitVec.ofNat 32 (fieldAt bs 0x04 4)
  a := BitVec.ofNat 64 (fieldAt bs 0x08 8)
  b := BitVec.ofNat 64 (fieldAt bs 0x10 8)
  c := BitVec.ofNat 64 (fieldAt bs 0x18 8)
  silent := false
  batch := false
  st := .ready

/-- The descriptor carries FENCE (R39, R47). -/
def hasFence (op : Op) : Bool := op.flags.getLsbD 0

/-- An admin opcode (R59, R60). -/
def isAdminCode (code : Nat) : Bool := [0x01, 0x02, 0x04, 0x05, 0x06, 0x07, 0x08, 0x09, 0x0A].contains code

/-- An opcode of R60. -/
def isKnownCode (code : Nat) : Bool :=
  isAdminCode code || (decide (0x10 ≤ code) && decide (code ≤ 0x17)) || (decide (0x20 ≤ code) && decide (code ≤ 0x25)) ||
    (decide (0x30 ≤ code) && decide (code ≤ 0x35)) || (decide (0x41 ≤ code) && decide (code ≤ 0x44)) ||
    (decide (0x50 ≤ code) && decide (code ≤ 0x52)) || (decide (0x60 ≤ code) && decide (code ≤ 0x64))

/-- Row 1 of R389: an opcode not in R60, or an admin opcode on a QP other than 0. -/
def isBadOpcode (op : Op) : Bool := !isKnownCode op.opcode || (isAdminCode op.opcode && decide (op.qp ≠ 0))

/-- What is carried out in SAFE: these opcodes on QP 0 (R60, R71). -/
def servedInSafe (op : Op) : Bool := decide (op.qp = 0) && [0x11, 0x17, 0x04, 0x60, 0x61].contains op.opcode

/-- The opcodes served after SHUTDOWN_PREPARE (R324). -/
def servedAfterShutdown (code : Nat) : Bool := [0x04, 0x60, 0x61, 0x63].contains code

/-- No reserved bit of the descriptor is set, given the bits the operation uses (R8, R40, R389). -/
def fieldsFree (op : Op) (obj : W32) (a b c : W64) : Bool :=
  op.flags &&& 0xFE == 0 && op.obj &&& ~~~obj == 0 && op.a &&& ~~~a == 0 && op.b &&& ~~~b == 0 && op.c &&& ~~~c == 0

/-- Every bit of an object field or of an operand in use. -/
def allObj : W32 := 0xFFFFFFFF
/-- Every bit of an operand in use. -/
def allBits : W64 := 0xFFFFFFFFFFFFFFFF

/-- A host buffer's address is 32-byte aligned. -/
def bufferAligned (v : W64) : Bool := decide (v.toNat % 32 = 0)

/-- Bits [lo + width − 1 : lo] of an operand. -/
def opBits (v : W64) (lo width : Nat) : Nat := bitsOf v.toNat lo width

/-- The number of a counter handle (R64). -/
def handleNumber (h : W32) : Nat := h.toNat % 2 ^ 18

/-- The incarnation of a counter handle (R64). -/
def handleInc (h : W32) : Nat := h.toNat / 2 ^ 18

/-- The handle of a counter (R64). -/
def handleOf (num inc : Nat) : W32 := BitVec.ofNat 32 (num % 2 ^ 18 + 2 ^ 18 * inc)

/-- An opcode that runs on a counter engine: CTR_CREATE to CTR_GROUP_READ (R10, R73). -/
def isCounterCode (code : Nat) : Bool := decide (0x10 ≤ code) && decide (code ≤ 0x17)

/-- What an operation counts against its engine's 4 M operations/s (R73). -/
def engineUnits (code : Nat) : Nat :=
  if code = 0x10 ∨ code = 0x15 ∨ code = 0x16 then 8 else if code = 0x17 then 2 else 1

/-- The object an operation acts on, for the order of R46: the kind of object and its number, for a counter the whole handle (R87).
FAULT_REPORT acts on a counter (R198); TAG_READ and TAG_SIDE are the exception of R255, PARAM_SYNC that of R130. -/
def objectKey (op : Op) : Option (Nat × Nat) :=
  if (0x11 ≤ op.opcode ∧ op.opcode ≤ 0x17) ∨ op.opcode = 0x25 then some (1, op.obj.toNat)
  else if 0x20 ≤ op.opcode ∧ op.opcode ≤ 0x24 then some (2, op.obj.toNat % 2 ^ 14)
  else if (0x30 ≤ op.opcode ∧ op.opcode ≤ 0x32) ∨ op.opcode = 0x35 then some (3, op.obj.toNat % 2 ^ 8)
  else if 0x42 ≤ op.opcode ∧ op.opcode ≤ 0x44 then some (4, op.obj.toNat)
  else if op.opcode = 0x50 ∨ op.opcode = 0x51 then some (5, op.obj.toNat % 2 ^ 8)
  else none

/-- A PARAM_SYNC names a page: its own, or every page (R130). -/
def syncNames (op : Op) (page : Nat) : Bool :=
  op.opcode == 0x52 && (decide (op.obj = 0xFFFFFFFF) || op.obj.toNat % 2 ^ 8 == page)

end Sys2Proof.Machine
end

