-- ==== Sys2Proof/Machine/Events.lean ====
section
/-!
DEFINITION. Event records, the event ring and its buffer, MSI-X messages, and READY_CHANGE (spec/02_host_rings.md R50-R54, R62;
spec/11_power_clock_startup.md R306).
-/
namespace Sys2Proof.Machine

/-- The events of R62. -/
inductive EventName where
  | readyChange | powerWarn | powerHoldup | powerResumed | railFault | plug | unplug | portFault | tagAuthFail
  | tagCountAnomaly | faultStorm | sourceSwitch | sourceExhausted | memRepair | journalConflict | mediaRefresh | eolAlert
  | maintDone | bistOverdue | recoverySkip | clockRefLost | eventsLost
deriving DecidableEq, Repr

/-- The code and the severity of an event (R62). -/
def eventCode : EventName → Nat × Nat
  | .readyChange => (0x0001, 0)
  | .powerWarn => (0x0010, 2)
  | .powerHoldup => (0x0011, 2)
  | .powerResumed => (0x0012, 1)
  | .railFault => (0x0013, 3)
  | .plug => (0x0020, 0)
  | .unplug => (0x0021, 1)
  | .portFault => (0x0022, 3)
  | .tagAuthFail => (0x0023, 3)
  | .tagCountAnomaly => (0x0024, 4)
  | .faultStorm => (0x0030, 2)
  | .sourceSwitch => (0x0040, 1)
  | .sourceExhausted => (0x0041, 3)
  | .memRepair => (0x0050, 2)
  | .journalConflict => (0x0051, 2)
  | .mediaRefresh => (0x0052, 0)
  | .eolAlert => (0x0060, 2)
  | .maintDone => (0x0070, 0)
  | .bistOverdue => (0x0071, 2)
  | .recoverySkip => (0x0080, 1)
  | .clockRefLost => (0x0090, 3)
  | .eventsLost => (0x00A0, 2)

/-! ### MSI-X (R50) -/

/-- The message of a vector leaves the part; to a masked vector it sets the pending bit (R50). (DEDUCED: notes/assumptions/13.md) -/
def sendMsix (vector : Nat) (s : State) : State :=
  if s.hif.msixMasked.getLsbD vector then
    { s with hif := { s.hif with msixPending := s.hif.msixPending ||| BitVec.ofNat 64 (2 ^ vector) } }
  else { s with out := { s.out with msix := vector :: s.out.msix } }

/-- The event ring's coalescing count and time, in CLK, and its vector (R360). -/
def eventCoalescing (s : State) : Nat × Nat × Nat :=
  (bitsOf s.regs.msixCfg.toNat 8 8, 1024 * bitsOf s.regs.msixCfg.toNat 16 16, bitsOf s.regs.msixCfg.toNat 0 6)

/-- The event ring signals under R50 once events wait unsignalled (R360). -/
def signalEvent (s : State) : State :=
  let (count, _, vector) := eventCoalescing s
  let waiting := s.ev.unsignalled + 1
  if count ≤ 1 ∨ count ≤ waiting then sendMsix vector { s with ev := { s.ev with unsignalled := 0 } }
  else
    { s with ev := { s.ev with unsignalled := waiting
                               oldest := if s.ev.unsignalled = 0 then s.clk.now else s.ev.oldest } }

/-! ### The ring (R51-R54) -/

/-- PHASE of entry number n in a ring of so many entries (R41). -/
def phaseOf (n size : Nat) : Nat := if n / size % 2 = 0 then 1 else 0

/-- The 32 bytes of an event record (R51). -/
def eventBytes (e : Event) (phase : Nat) : List Byte :=
  leBytes 2 e.code ++ leBytes 1 e.severity ++ leBytes 1 (phase + 4 * bit e.imprecise) ++ leBytes 4 e.object.toNat ++
    leBytes 8 e.time ++ padTo 16 e.details

/-- Entries of the event ring written and not consumed (R28). -/
def eventsUsed (s : State) : Nat := (s.ev.next - s.ev.consumed).toNat

/-- The ring can take writes: it is set up and the link is up (R54). -/
def eventRingLive (s : State) : Bool := eventsUp s && s.hif.linkUp

/-- The ring's size in entries. -/
def eventSize (s : State) : Nat :=
  match s.ev.ring with
  | some (_, size) => size
  | none => 0

/-- Event number n goes into entry n mod S_e (R52). -/
def writeEvent (e : Event) (s : State) : State :=
  match s.ev.ring with
  | none => s
  | some (base, size) =>
    let n := s.ev.next.toNat
    let s := writeHost (base + 32 * (n % size)) (eventBytes e (phaseOf n size)) s
    signalEvent { s with ev := { s.ev with next := s.ev.next + 1 } }

/-- An event that finds no room is counted; the codes of the first and of the last are kept (R53). -/
def loseEvent (e : Event) (s : State) : State :=
  { s with ev := { s.ev with
      lost := s.ev.lost + 1
      firstLost := if s.ev.lost = 0 then e.code else s.ev.firstLost
      lastLost := e.code
      lostAt := if s.ev.lost = 0 then e.time else s.ev.lostAt } }

/-- The ring is full for ordinary events: n − consumed = S_e − 1 (R53). -/
def ringFull (s : State) : Bool := decide (eventSize s ≤ eventsUsed s + 1)

/-- An event takes its place in the ring, behind the buffer, or among the lost: posting never waits (R53, R54).
(DEDUCED: notes/assumptions/31.md) -/
def deliverEvent (e : Event) (s : State) : State :=
  if s.ev.buffer = [] ∧ eventRingLive s = true then
    if s.ev.lost ≠ 0 ∨ ringFull s = true then loseEvent e s else writeEvent e s
  else if s.ev.buffer.length < 64 then { s with ev := { s.ev with buffer := s.ev.buffer ++ [e] } }
  else loseEvent e s

/-- An event posted now (R51, R62). (DEDUCED: notes/assumptions/38.md) -/
def postEvent (name : EventName) (object : Nat) (details : List Byte) (s : State) : State :=
  deliverEvent {
    code := (eventCode name).1, severity := (eventCode name).2, imprecise := s.clk.holdover,
    object := BitVec.ofNat 32 object, time := s.clk.now, details := padTo 16 details } s

/-- Buffered records go into the free entries in order, at most so many (R54). -/
def drainBuffer : Nat → State → State
  | 0, s => s
  | n + 1, s =>
    match s.ev.buffer with
    | [] => s
    | e :: rest => if ringFull s then s else drainBuffer n (writeEvent e { s with ev := { s.ev with buffer := rest } })

/-- The record of the lost events is written once an entry is free and the buffer is empty (R53, R54, R62). -/
def writeEventsLost (s : State) : State :=
  if s.ev.lost ≠ 0 ∧ s.ev.buffer = [] ∧ eventsUsed s < eventSize s then
    writeEvent {
        code := 0x00A0, severity := 2, imprecise := s.clk.holdover, object := BitVec.ofNat 32 s.ev.lost,
        time := s.clk.now,
        details := leBytes 2 s.ev.firstLost ++ leBytes 2 s.ev.lastLost ++ leBytes 4 0 ++ leBytes 8 s.ev.lostAt }
      { s with ev := { s.ev with lost := 0 } }
  else s

/-- The ring takes what is kept for it (R53, R54). -/
def drainEvents (s : State) : State :=
  if eventRingLive s then writeEventsLost (drainBuffer s.ev.buffer.length s) else s

/-! ### READY (R306) -/

/-- A change of what READY is made of; READY_CHANGE is posted when its value changes (R306, R62). -/
def withReady (f : State → State) (s : State) : State :=
  let t := f s
  if readyWord t = readyWord s then t
  else postEvent .readyChange (readyWord t).toNat (leBytes 4 (readyWord s).toNat ++ leBytes 4 t.regs.safeCause.toNat) t

/-- Stored bits of READY set or cleared (R306). -/
def setReady (f : Ready → Ready) (s : State) : State := withReady (fun s => { s with ready := f s.ready }) s

end Sys2Proof.Machine
end

