-- ==== Sys2Proof/Machine/Hif.lean ====
section
/-!
DEFINITION. HIF: queue pairs, completions, polling, fetching and the order of operations (spec/02_host_rings.md R27-R58).
-/
namespace Sys2Proof.Machine

/-! ### Queue pairs and operations by number -/

/-- The queue pair of a number, if it exists. -/
def findQp (s : State) (n : Nat) : Option Qp := s.hif.qps.find? fun q => q.num == n

/-- A queue pair changed. -/
def modQp (n : Nat) (f : Qp → Qp) (s : State) : State :=
  { s with hif := { s.hif with qps := modWhere (fun q => q.num == n) f s.hif.qps } }

/-- The fetched operation of a fetch number, if it has not completed. -/
def findOp (s : State) (k : Nat) : Option Op := s.hif.ops.find? fun op => op.id == k

/-- A fetched operation changed. -/
def modOp (k : Nat) (f : Op → Op) (s : State) : State :=
  { s with hif := { s.hif with ops := modWhere (fun op => op.id == k) f s.hif.ops } }

/-- An operation comes to stand in a state of R55. -/
def setOpSt (k : Nat) (st : OpSt) (s : State) : State := modOp k (fun op => { op with st := st }) s

/-- The operation leaves the in-flight pool and every order it stood in (R42, R87, R269). -/
def removeOp (k : Nat) (s : State) : State :=
  { s with hif := { s.hif with ops := s.hif.ops.filter (fun op => op.id != k)
                               energyOrder := s.hif.energyOrder.filter (fun j => j != k) }
           nsu := { s.nsu with waitS := s.nsu.waitS.filter (fun j => j != k) } }

/-! ### Completions (R39-R41, R49, R50) -/

/-- The 32 bytes of a completion (R39, R40). -/
def completionBytes (op : Op) (q : Qp) (st : Status) (resA resB : W64) (skipped : Bool) (s : State) : List Byte :=
  leBytes 2 op.tag.toNat ++ [statusByte st] ++
    leBytes 1 (phaseOf q.written.toNat q.cqSize + 2 * bit skipped + 4 * bit s.clk.holdover) ++
    leBytes 2 q.fetched.toNat ++ leBytes 2 q.num ++ leBytes 8 resA.toNat ++ leBytes 8 resB.toNat ++ leBytes 8 s.clk.now

/-- A QP signals its vector after a completion under R50. -/
def signalQp (q : Qp) (s : State) : State :=
  let waiting := q.unsignalled + 1
  if q.coalCount ≤ 1 ∨ q.coalCount ≤ waiting then
    sendMsix q.vector (modQp q.num (fun q => { q with unsignalled := 0 }) s)
  else
    modQp q.num (fun q => { q with unsignalled := waiting
                                   oldest := if q.unsignalled = 0 then s.clk.now else q.oldest }) s

/-- Completion number w of the operation's QP goes into entry w mod S_c; an operation whose ring a HIF reset took has none
(R41, R55). -/
def writeCompletion (op : Op) (st : Status) (resA resB : W64) (skipped : Bool) (s : State) : State :=
  if op.silent then s
  else match findQp s op.qp with
    | none => s
    | some q =>
      let s1 := writeHost (q.cqBase + 32 * (q.written.toNat % q.cqSize)) (completionBytes op q st resA resB skipped s) s
      signalQp q (modQp q.num (fun q => { q with written := q.written + 1 }) s1)

/-- Operations of a QP that hold its places (R42): those a HIF reset has not taken. -/
def qpOps (s : State) (n : Nat) : List Op := s.hif.ops.filter fun op => op.qp == n && !op.silent

/-- A QP_DELETE that waits for a QP completes with the last operation of that QP, and the QP is gone (R57). -/
def endDelete (n : Nat) (s : State) : State :=
  if qpOps s n ≠ [] then s
  else match s.hif.ops.find? (fun op => op.obj.toNat == n && op.opcode == 0x02 &&
      match op.st with | .deleting _ _ => true | _ => false) with
    | some op =>
      match op.st with
      | .deleting resA resB =>
        removeOp op.id (writeCompletion op .ok resA resB false
          { s with hif := { s.hif with qps := s.hif.qps.filter fun q => q.num != n } })
      | _ => s
    | none => s

/-- An operation completes: its completion is written and its places are free (R41, R42, R49). -/
def complete (op : Op) (st : Status) (resA resB : W64) (skipped : Bool) (s : State) : State :=
  endDelete op.qp (removeOp op.id (writeCompletion op st resA resB skipped s))

/-- A completion whose status is not OK carries no result (R61). -/
def refuse (op : Op) (st : Status) (s : State) : State := complete op st 0 0 false s

/-! ### Order of effect (R46-R48) -/

/-- An earlier operation that stands before a later one on the same object: it has not taken effect yet (R46). -/
def blocksLater (op : Op) : Bool :=
  match op.st with
  | .held | .ready | .energy _ | .random _ => true
  | _ => false

/-- R46 and R47 allow an operation to go next: it is READY, comes in ring order if it was held with a FENCE, and no earlier operation on
its object, for a PARAM_SYNC on a page it names, has still to take effect. -/
def allowedNext (op : Op) (s : State) : Bool :=
  decide (op.st = .ready) &&
    (!op.batch || !(s.hif.ops.any fun o => decide (o.id < op.id) && o.qp == op.qp && decide (o.st = .ready))) &&
    !(s.hif.ops.any fun o => decide (o.id < op.id) && blocksLater o && (match objectKey o with
      | some key => decide (objectKey op = some key) || (key.1 == 5 && syncNames op key.2)
      | none => false))

/-! ### Counter engines (R11, R73, R346) -/

/-- The counter of a number (open, or closed and not reused). -/
def findLeaf (s : State) (n : Nat) : Option Leaf := s.ctr.leaves.find? fun l => l.num == n

/-- The group of a number, if it is in use. -/
def findGroup (s : State) (g : Nat) : Option Group := s.ctr.groups.find? fun x => x.num == g

/-- The engine that owns a group (R172). -/
def engineOf (s : State) (g : Nat) : Nat :=
  match findGroup s g with
  | some x => x.engine
  | none => 0

/-- Groups an engine owns. -/
def groupsOwned (s : State) (e : Nat) : Nat := (s.ctr.groups.filter fun g => g.engine == e).length

/-- Engines that take groups: neither drained nor failed (R173, R331). -/
def enginesUp (s : State) : List Nat :=
  (List.range 4).filter fun e =>
    match s.ctr.engines[e]? with
    | some x => !x.drained && !x.failed
    | none => false

/-- The engine of a new group: lowest load of the last window, then fewest groups, then lowest number (R390). -/
def engineForNew (s : State) : Nat :=
  match minBy (fun e => (nthOr Engine.reset e s.ctr.engines).load * 8192 + groupsOwned s e) (enginesUp s) with
  | some e => e
  | none => 0

/-- The engine at which a counter operation is queued: its counter's, for CTR_CREATE the one a new group would get (R11, R390).
(DESIGN CHOICE: notes/assumptions/81.md) -/
def engineFor (op : Op) (s : State) : Nat :=
  if op.opcode = 0x10 then engineForNew s
  else match findLeaf s (handleNumber op.obj) with
    | some l => engineOf s l.group
    | none => 0

/-- One unit of R73 in CLK: an engine serves 4 M operations/s, with M = 2^20 and 2^30 CLK a second (R13, R73). -/
def engineUnit : Nat := 256

/-- The operations queued at an engine cost at most 24 units of R73 (R346). -/
def engineTakes (s : State) (e : Nat) : Bool :=
  decide ((nthOr Engine.reset e s.ctr.engines).busyTill ≤ s.clk.now + 24 * engineUnit)

/-- An operation is queued at an engine (R73, R346). -/
def queueAtEngine (e units : Nat) (s : State) : State :=
  { s with ctr := { s.ctr with
      engines := modNth (fun x => { x with busyTill := max x.busyTill s.clk.now + units * engineUnit }) e s.ctr.engines } }

/-- A class 0 counter operation could be dispatched now (R346). -/
def classZeroWaits (s : State) : Bool :=
  s.hif.ops.any fun o => o.cls == 0 && isCounterCode o.opcode && allowedNext o s && engineTakes s (engineFor o s)

/-- An operation may be dispatched: R46 and R47 allow it to go next, and for a counter operation its engine's queue has room and no
operation of class 0 goes first (R346). -/
def dispatchable (op : Op) (s : State) : Bool :=
  allowedNext op s &&
    (!isCounterCode op.opcode || (engineTakes s (engineFor op s) && (op.cls == 0 || !classZeroWaits s)))

/-! ### Polling (R27-R32, R43) -/

/-- HIF polls: the link is up, the hoist and a ring are set up, and the power state is not HOLDUP (R31, R56). -/
def polling (s : State) : Bool :=
  s.hif.linkUp && s.regs.hoist.eff.isSome && (adminUp s || eventsUp s) && decide (s.pmu.power ≠ .holdup)

/-- The hoist's address. -/
def hoistBase (s : State) : Nat :=
  match s.regs.hoist.eff with
  | some a => a.toNat
  | none => 0

/-- HIF reads the tail words of a group in one read (R31). -/
def readTails (g : Nat) (s : State) : State :=
  { s with hif := { s.hif with
      qps := modWhere (fun q => q.num / 64 == g)
        (fun q => { q with tail := readWord s (hoistBase s + 0x400 + 4 * q.num) }) s.hif.qps } }

/-- HIF reads the head words of a group in one read (R43). -/
def readHeads (g : Nat) (s : State) : State :=
  { s with hif := { s.hif with
      qps := modWhere (fun q => q.num / 64 == g)
        (fun q => { q with head := readWord s (hoistBase s + 0x4400 + 4 * q.num) }) s.hif.qps
      headRead := modNth (fun _ => s.clk.now) g s.hif.headRead } }

/-- The tail lies out of range: more than S ahead of the fetch count, or behind it (R32). -/
def tailOut (q : Qp) : Bool := decide (q.sqSize < (q.tail - q.fetched).toNat)

/-- Descriptors announced and not fetched: t − f, if it lies between 0 and S (R28, R32, R42). -/
def announced (q : Qp) : Nat := if tailOut q then 0 else (q.tail - q.fetched).toNat

/-- The tail words of the group's QPs whose tails lay out of range are read again (R32). -/
def rereadTails (g : Nat) (s : State) : State :=
  { s with hif := { s.hif with
      qps := modWhere (fun q => q.num / 64 == g && tailOut q)
        (fun q => { q with tail := readWord s (hoistBase s + 0x400 + 4 * q.num) }) s.hif.qps } }

/-- Room in the completion ring: S_c − (f − h) (R42). -/
def completionRoom (q : Qp) : Nat := q.cqSize - (q.fetched - q.head).toNat

/-- Operations in flight on the QP: f − w (R42). -/
def inFlight (q : Qp) : Nat := (q.fetched - q.written).toNat

/-- Pool places a class may still take (R42). -/
def poolRoom (s : State) (cls : Nat) : Nat :=
  let all := 1024 - s.hif.ops.length
  if cls = 0 then all else min all (768 - (s.hif.ops.filter fun op => op.cls != 0).length)

/-- Every condition of R42 but the head condition. -/
def fetchableButHead (s : State) (q : Qp) : Bool :=
  decide (1 ≤ announced q) && decide (inFlight q < q.limit) && decide (1 ≤ poolRoom s q.cls) &&
    !((qpOps s q.num).any fun op => decide (op.st = .held)) && !q.deleting && !q.stopped &&
    decide (s.pmu.power ≠ .holdup) && (!s.flush.begun || (decide (q.num = 0) && s.flush.qp0)) &&
    (!s.pmu.shutdown || decide (q.num = 0)) && (!inSafe s || decide (q.num = 0))

/-- HIF may fetch the QP's next descriptor (R42). -/
def fetchable (s : State) (q : Qp) : Bool := fetchableButHead s q && decide (1 ≤ completionRoom q)

/-- The poll period in CLK (R31). -/
def pollPeriod (s : State) : Nat := 1024 * bitsOf s.regs.pollPeriod.toNat 0 8

/-- The head condition alone stops a QP of the group, and its head words have not been read within the poll period (R43). -/
def wantsHeads (s : State) (g : Nat) : Bool :=
  (s.hif.qps.any fun q => q.num / 64 == g && fetchableButHead s q && decide (completionRoom q = 0)) &&
    (decide (nthOr 0 g s.hif.headRead = 0) || decide (nthOr 0 g s.hif.headRead + pollPeriod s ≤ s.clk.now))

/-- One group at a poll: its tail words if its group word has changed, else those that lay out of range; its head words if R43 asks for
them (R31, R32, R43). -/
def pollGroup (g : Nat) (s : State) : State :=
  let word := readWord s (hoistBase s + 4 * g)
  let s1 := if word = nthOr 0 g s.hif.groupWords then rereadTails g s
    else readTails g { s with hif := { s.hif with groupWords := modNth (fun _ => word) g s.hif.groupWords } }
  if wantsHeads s1 g then readHeads g s1 else s1

/-- The groups from `g` on, in ascending order, `n` of them. -/
def pollGroups : Nat → Nat → State → State
  | 0, _, s => s
  | n + 1, g, s => pollGroups n (g + 1) (pollGroup g s)

/-- HIF reads the consumed count while the ring has fewer than S_e / 4 free entries, and the ring takes what is kept for it
(R52-R54). -/
def pollEvents (s : State) : State :=
  if eventRingLive s then
    let s1 := if eventSize s - eventsUsed s < eventSize s / 4 then
        { s with ev := { s.ev with consumed := readWord s (hoistBase s + 0x100) } } else s
    drainEvents s1
  else s

/-! ### Fetching (R42, R45, R47, R48) -/

/-- A fetchable QP of the class: the one visited last while it has deficit, else the next one in QP order (R45). -/
def nextOfClass (s : State) (c : Nat) : Option Qp :=
  let able := s.hif.qps.filter fun q => q.cls == c && fetchable s q
  let last := nthOr 0 c s.hif.visited
  match able.find? (fun q => q.num == last && decide (1 ≤ q.deficit)) with
  | some q => some q
  | none =>
    match able.find? fun q => decide (last < q.num) with
    | some q => some q
    | none => able.head?

/-- The class whose turn it is, among those with credit left and something fetchable (R45). (DESIGN CHOICE: notes/assumptions/8.md) -/
def nextClass (s : State) (credits : List Nat) : Option Nat :=
  (List.range 4).find? fun c => decide (1 ≤ nthOr 0 c credits) && (nextOfClass s c).isSome

/-- The weights of a new round (R45). -/
def roundCredits : List Nat := [8, 4, 2, 1]

/-- The credits left once a class has its turn: those before it in the round, with nothing fetchable, have given up theirs (R45). -/
def creditsAt (c : Nat) (credits : List Nat) : List Nat := List.replicate c 0 ++ credits.drop c

/-- The credits in force and the QP HIF reads from next (R45): a new round when no class with credit left has anything
fetchable. -/
def nextFetch (s : State) : Option (List Nat × Qp) :=
  match nextClass s s.hif.credits with
  | some c => (nextOfClass s c).map fun q => (creditsAt c s.hif.credits, q)
  | none =>
    match nextClass s roundCredits with
    | some c => (nextOfClass s c).map fun q => (creditsAt c roundCredits, q)
    | none => none

/-- The deficit with which the QP is read: a new visit adds the quantum of 4 (R45). -/
def visitDeficit (q : Qp) (s : State) : Nat :=
  if q.deficit = 0 ∨ nthOr 0 q.cls s.hif.visited ≠ q.num then q.deficit + 4 else q.deficit

/-- Descriptors one read request fetches (R42, R45): as many as are announced and have their places, within the class's
credit, the QP's deficit, 16 descriptors and the ring's end. -/
def fetchCount (credits : List Nat) (q : Qp) (s : State) : Nat :=
  min (min (min (announced q) (completionRoom q)) (min (q.limit - inFlight q) (poolRoom s q.cls)))
    (min (min (nthOr 0 q.cls credits) (visitDeficit q s)) (min 16 (q.sqSize - q.fetched.toNat % q.sqSize)))

/-- The next descriptors of a QP taken in ring order; a FENCE descriptor, an admin opcode on QP 0, and those behind it in the
same read are held (R47, R48). -/
def takeDescriptors : Nat → Bool → Nat → State → State
  | 0, _, _, s => s
  | n + 1, holding, qn, s =>
    match findQp s qn with
    | none => s
    | some q =>
      let op := readDescriptor (readHost s (q.sqBase + 32 * (q.fetched.toNat % q.sqSize)) 32) s.hif.nextOp q
      let fence := hasFence op || (decide (q.num = 0) && isAdminCode op.opcode)
      let hold := holding || fence
      let op := { op with st := if hold then .held else .ready, batch := hold }
      let s1 := { s with hif := { s.hif with ops := s.hif.ops ++ [op], nextOp := s.hif.nextOp + 1 } }
      takeDescriptors n hold qn (modQp qn (fun q => { q with fetched := q.fetched + 1 }) s1)

/-- One read request; a QP that stops being fetchable with descriptors still announced keeps its deficit, and its next visit adds the
quantum to it (R42, R45; DESIGN CHOICE: notes/assumptions/8.md). -/
def fetchOnce (s : State) : State :=
  match nextFetch s with
  | none => s
  | some (credits, q) =>
    let n := fetchCount credits q s
    let left := visitDeficit q s - n
    let s1 := modQp q.num (fun q => { q with deficit := if announced q = n then 0 else left }) s
    let s2 := { s1 with hif := { s1.hif with
      credits := modNth (fun x => x - n) q.cls credits
      visited := modNth (fun _ => q.num) q.cls s1.hif.visited } }
    takeDescriptors n false q.num s2

/-- A held operation acts as a FENCE: it carries the flag, or is an admin opcode on QP 0 (R47, R48). -/
def fences (op : Op) : Bool := hasFence op || (decide (op.qp = 0) && isAdminCode op.opcode)

/-- The held operations released with the first of them: those behind it up to the next FENCE (R47). -/
def releaseHeld : Bool → List Op → List Nat
  | _, [] => []
  | first, op :: rest => if fences op && !first then [] else op.id :: releaseHeld false rest

/-- A FENCE descriptor is dispatched when every earlier operation of its ring has completed (R47). -/
def fenceDispatchable (s : State) (q : Nat) : Bool :=
  match (qpOps s q).head? with
  | some op => decide (op.st = .held)
  | none => false

/-- The held operations that the FENCE at the ring's front lets go become READY, in ring order (R47). -/
def dispatchFence (q : Nat) (s : State) : State :=
  if fenceDispatchable s q then
    let ids := releaseHeld true ((qpOps s q).filter fun op => decide (op.st = .held))
    { s with hif := { s.hif with
        ops := modWhere (fun op => ids.contains op.id) (fun op => { op with st := .ready }) s.hif.ops } }
  else s

/-! ### Coalescing time and read failures (R50, R58) -/

/-- The oldest unsignalled completion of a QP has waited for the coalescing time (R50). -/
def coalesceQp (n : Nat) (s : State) : State :=
  match findQp s n with
  | none => s
  | some q =>
    if q.unsignalled ≠ 0 ∧ q.oldest + 1024 * q.coalTime ≤ s.clk.now then
      sendMsix q.vector (modQp n (fun q => { q with unsignalled := 0 }) s)
    else s

/-- The oldest unsignalled event has waited for the event ring's coalescing time (R50, R360). -/
def coalesceEvents (s : State) : State :=
  let (_, time, vector) := eventCoalescing s
  if s.ev.unsignalled ≠ 0 ∧ s.ev.oldest + time ≤ s.clk.now then
    sendMsix vector { s with ev := { s.ev with unsignalled := 0 } }
  else s

/-- The read of the next descriptors fails: the QP stops and the error goes to advanced error reporting (R58). -/
def failFetch (s : State) : State :=
  match nextFetch s with
  | none => s
  | some (_, q) =>
    { modQp q.num (fun q => { q with stopped := true }) s with out := { s.out with aer := q.num :: s.out.aer } }

/-! ### HIF reset (R55, R352) -/

/-- A tag operation whose challenge waits for an entry: it stands in a random wait (R244, R344). -/
def waitsChallenge (s : State) (k : Nat) : Bool :=
  s.hyc.ports.any fun x => match x.act with
    | .needChallenge e _ => decide (e.why = .host k) || decide (e.why = .consume k)
    | _ => false

/-- An operation in an energy, random or splice-commit wait (R55). -/
def isWaiting (s : State) (op : Op) : Bool :=
  match op.st with
  | .energy _ | .random _ | .splice _ => true
  | .serving => waitsChallenge s op.id
  | _ => false

/-- What a HIF reset makes of an operation: a held or waiting one is gone, and so is a QP_DELETE, whose QP has gone; any other
finishes without a completion (R55). (DEDUCED: notes/assumptions/37.md) -/
def resetOp (s : State) (op : Op) : Option Op :=
  if isWaiting s op then none
  else match op.st with
    | .held | .deleting _ _ => none
    | _ => some { op with silent := true }

/-- The HIF group of the registers at its reset values (R352). -/
def resetHifRegs (r : Regs) : Regs :=
  { r with hoist := BasePair.reset, adminSq := BasePair.reset, adminCq := BasePair.reset, eventRing := BasePair.reset
           adminSizes := 0, eventSize := 0, pollPeriod := 2, msixCfg := 0, scratch := 0, setupError := false }

/-- HIF and its set-up registers are reset; counters, key identifiers, tags, the journal and READY are kept (R55, R352).
(DEDUCED: notes/assumptions/72.md) -/
def resetHif (linkDown : Bool) (s : State) : State :=
  let kept := s.hif.ops.filterMap (resetOp s)
  { s with
    regs := resetHifRegs s.regs
    hif := { Hif.reset with linkUp := s.hif.linkUp && !linkDown, ops := kept, nextOp := s.hif.nextOp
                            msixMasked := s.hif.msixMasked, msixPending := 0 }
    nsu := { s.nsu with waitS := s.nsu.waitS.filter fun k => kept.any fun op => op.id == k }
    ev := { s.ev with ring := none, next := 0, consumed := 0, unsignalled := 0 } }

end Sys2Proof.Machine
end

