-- ==== Sys2Proof/Machine/Owed.lean ====
section
/-!
DEFINITION. What the F840 owes: the owed sets, the energy certificate, admission and the energy wait
(spec/05_durability_recovery.md R135-R142, spec/03_counters.md R86-R88), and the queue of journal writes (R108).
-/
namespace Sys2Proof.Machine

/-! ### Occupancy (R135) -/

/-- Slots of the STRICT set in use, per copy (R135). -/
def strictOccupancy (s : State) : Nat := s.owed.strict.foldl (fun n e => n + e.slots) 0

/-- Slots of the BOUNDED set in use, per copy (R135). -/
def boundedOccupancy (s : State) : Nat := s.owed.bounded.length

/-- Dirty groups: the group set, with those that have returned to the pool dirty (R135, R137). -/
def dirtyGroups (s : State) : Nat := (s.ctr.groups.filter fun g => g.dirty).length + s.ctr.emptied.length

/-- Owed slots per copy, the group set and the marker included (R154). -/
def owedSlots (s : State) : Nat := dirtyGroups s + strictOccupancy s + boundedOccupancy s + 1

/-! ### The energy certificate (R140) -/

/-- V_top in mV: VHOLD measured now, at most 11.0 V, lowered for CAP_MEASURE (R140, R142). -/
def vTop (s : State) : Nat :=
  let v := min s.pmu.vhold 11000
  match s.pmu.vTopCap with
  | some low => min v low
  | none => v

/-- k: slot writes that ½ × 0.97 × C × (V² − V_end²) certifies after the factor 0.8 and the 12 mJ, at 2.75 µJ each, with C in
µF, V in mV and V_end = 4.5 V + 0.25 A × ESR, ESR in mΩ; exact integers (R140). (DEDUCED: notes/assumptions/30.md) -/
def slotWritesAt (c esr v : Nat) : Nat :=
  (388 * c * ((4 * v) ^ 2 - (18000 + esr) ^ 2) - 192 * 10 ^ 12) / (44 * 10 ^ 9)

/-- k as the certificate stands (R140). -/
def certifiedWrites (s : State) : Nat := slotWritesAt s.pmu.cMeas s.pmu.esrMeas (vTop s)

/-- b, r, C_S and C_B from k; both caps are 0 while r is below 2,048 (R140, R141). -/
def capsOf (k : Nat) : Nat × Nat × Nat × Nat :=
  let b := min 36864 (k / 2)
  let r := min 32767 (b - 4097)
  if r < 2048 then (b, r, 0, 0) else (b, r, min 16383 (r / 2), r - min 16383 (r / 2))

/-- b, r and the caps as given; READY.HOLDUP follows r (R140, R306). -/
def setCaps (b r capS capB : Nat) (s : State) : State :=
  setReady (fun y => { y with holdup := decide (2048 ≤ r) })
    { s with owed := { s.owed with b := b, r := r, capS := capS, capB := capB } }

/-- PMU recomputes the caps (R140, R141). -/
def recomputeCaps (s : State) : State :=
  let c := capsOf (certifiedWrites s)
  setCaps c.1 c.2.1 c.2.2.1 c.2.2.2 s

/-! ### Admission (R87, R141) -/

/-- What an operation needs to be admitted: places of the two sets, and its group's written ceiling (R87, R144). -/
structure Need where
  strict : Nat
  bounded : Nat
  ceiling : Bool
deriving DecidableEq, Repr

/-- An operation that needs nothing. -/
def noNeed : Need := ⟨0, 0, true⟩

/-- The entries fit: no cap is passed, and no earlier waiting operation that has its ceiling still needs a place of the same set
(R87, R141). -/
def admits (earlier : List Need) (n : Need) (s : State) : Bool :=
  n.ceiling && !s.owed.frozen &&
    (decide (n.strict = 0) || (decide (strictOccupancy s + n.strict ≤ s.owed.capS) &&
      !(earlier.any fun e => e.ceiling && decide (e.strict ≠ 0)))) &&
    (decide (n.bounded = 0) || (decide (boundedOccupancy s + n.bounded ≤ s.owed.capB) &&
      !(earlier.any fun e => e.ceiling && decide (e.bounded ≠ 0))))

/-- An operation enters an energy wait, last in the order of R87. -/
def enterEnergyWait (op : Op) (s : State) : State :=
  let s1 := setOpSt op.id (.energy s.clk.now) s
  { s1 with hif := { s1.hif with energyOrder := s1.hif.energyOrder ++ [op.id] } }

/-! ### Entries -/

/-- Two journal subjects are the same: one leaf in either form, or equal. -/
def sameSubject : What → What → Bool
  | .leaf n _, .leaf m _ => n == m
  | x, y => decide (x = y)

/-- The entry of a subject whose value JRN has not yet taken, so that a later change needs no new one (R86, R108). -/
def openEntry (w : What) (s : State) : Option Owed :=
  s.owed.strict.find? fun e => sameSubject e.what w && e.taken.isNone

/-- Slots per copy an entry of this subject costs (R135). -/
def entrySlots : What → Nat
  | .leaf _ true => 2
  | .mirror _ => 2
  | .page _ => 3
  | _ => 1

/-- Slots a change must add for its subject: none if its entry stands, one where it grows to a definition form (R86, R136). -/
def slotsNeeded (w : What) (s : State) : Nat :=
  match openEntry w s with
  | none => entrySlots w
  | some e => entrySlots w - e.slots

/-- The subject's entry stands in the STRICT set, grown where the form needs it (R86, R136). -/
def owe (w : What) (s : State) : State :=
  match openEntry w s with
  | none => { s with owed := { s.owed with strict := s.owed.strict ++ [⟨w, entrySlots w, none, false⟩] } }
  | some e =>
    if e.slots < entrySlots w then
      { s with owed := { s.owed with
          strict := modWhere (fun x => sameSubject x.what w && x.taken.isNone)
            (fun x => { x with what := w, slots := entrySlots w }) s.owed.strict } }
    else s

/-- A BOUNDED-set entry of a counter (R135). -/
def oweBounded (n : Nat) (s : State) : State :=
  if s.owed.bounded.contains n then s else { s with owed := { s.owed with bounded := s.owed.bounded ++ [n] } }

/-- A BOUNDED-set entry released (R138). -/
def releaseBounded (n : Nat) (s : State) : State :=
  { s with owed := { s.owed with bounded := s.owed.bounded.filter fun m => m != n } }

/-! ### JRN's queue (R108) -/

/-- A write of a subject is queued at a rank; one that waits already is kept, at the better rank (R108). -/
def queueWrite (rank : Nat) (w : What) (s : State) : State :=
  match s.jrn.queue.find? fun j => decide (j.what = w) with
  | some _ =>
    { s with jrn := { s.jrn with
        queue := modWhere (fun j => decide (j.what = w)) (fun j => { j with rank := min rank j.rank }) s.jrn.queue } }
  | none =>
    { s with jrn := { s.jrn with
        queue := s.jrn.queue ++ [⟨s.jrn.nextWrite, rank, w⟩], nextWrite := s.jrn.nextWrite + 1 } }

/-- The number of the write that waits for a subject. -/
def queuedId (w : What) (s : State) : List Nat := (s.jrn.queue.filter fun j => decide (j.what = w)).map fun j => j.id

/-- A record is queued at rank 4 and the operation waits for it with these results (R108). -/
def awaitRecord (op : Op) (w : What) (resA resB : W64) (s : State) : State :=
  let s1 := queueWrite 4 w s
  setOpSt op.id (.record (queuedId w s1) resA resB) s1

/-- Slots of STRICT entries whose writes are on their way: taken, released, or of a subject queued (R176). -/
def slotsUnderWay (s : State) : Nat :=
  (s.owed.strict.filter fun e => e.taken.isSome || e.released || s.jrn.queue.any fun j => sameSubject j.what e.what).foldl
    (fun n e => n + e.slots) 0

/-- Entries released oldest first until those not on their way are within the limit (R176). -/
def releaseUntil (limit : Nat) : List Owed → State → State
  | [], s => s
  | e :: rest, s =>
    if strictOccupancy s - slotsUnderWay s ≤ limit then s
    else if e.taken.isSome ∨ e.released = true ∨ (s.jrn.queue.any fun j => sameSubject j.what e.what) = true then
      releaseUntil limit rest s
    else
      let s1 := { s with owed := { s.owed with
        strict := modWhere (fun x => decide (x.what = e.what) && x.taken.isNone)
          (fun x => { x with released := true }) s.owed.strict } }
      releaseUntil limit rest (queueWrite 5 e.what s1)

/-- Placement releases STRICT-set entries oldest first while the occupancy is above 7/8 of C_S, down to 3/4; in WARN all of them
(R149, R176). -/
def releaseStrict (s : State) : State :=
  if s.owed.frozen then s
  else if s.pmu.power = .warn then releaseUntil 0 s.owed.strict s
  else if 7 * s.owed.capS < 8 * strictOccupancy s then releaseUntil (3 * s.owed.capS / 4) s.owed.strict s
  else s

end Sys2Proof.Machine
end

