-- ==== Sys2Proof/Machine/Journal.lean ====
section
/-!
DEFINITION. JRN: the layouts of the records, where a record is put, the programs of its copies, and what its being written
brings about (spec/04_journal_flash.md R95-R123).
-/
namespace Sys2Proof.Machine

/-! ### Subjects by number -/

/-- A counter changed. -/
def modLeaf (n : Nat) (f : Leaf → Leaf) (s : State) : State :=
  { s with ctr := { s.ctr with leaves := modWhere (fun l => l.num == n) f s.ctr.leaves } }

/-- A group changed. -/
def modGroup (g : Nat) (f : Group → Group) (s : State) : State :=
  { s with ctr := { s.ctr with groups := modWhere (fun x => x.num == g) f s.ctr.groups } }

/-- The live maximum of a section: the highest of its groups (R160). -/
def sectionMax (s : State) (k : Nat) : W64 :=
  BitVec.ofNat 64 ((s.ctr.groups.filter fun g => g.num / 64 == k).foldl (fun m g => max m g.liveMax.toNat) 0)

/-- The key identifier's entry; one that is not listed is FREE at generation 0, its last owner reads 0 (R183; DESIGN CHOICE:
notes/assumptions/10.md). -/
def kidOf (s : State) (k : Nat) : Kid :=
  match s.kit.kids.find? fun x => x.num == k with
  | some x => x
  | none => ⟨k, .free, 0, 0, 0, false⟩

/-- The page's image; one never written reads 0xFF in every byte (R124). -/
def pageOf (s : State) (p : Nat) : Page :=
  match s.kit.pages.find? fun x => x.num == p with
  | some x => x
  | none => ⟨p, List.replicate 64 0xFF, 0, false, 0⟩

/-- A mirror entry by its index. -/
def findMirror (s : State) (i : Nat) : Option Mirror := s.hyc.mirrors.find? fun m => m.idx == i

/-- A mirror entry changed. -/
def modMirror (i : Nat) (f : Mirror → Mirror) (s : State) : State :=
  { s with hyc := { s.hyc with mirrors := modWhere (fun m => m.idx == i) f s.hyc.mirrors } }

/-! ### Layouts (R102-R105, R251) -/

/-- The code of a class (R68). -/
def clsCode : Cls → Nat
  | .loose => 0
  | .bounded => 1
  | .strict => 2

/-- The code of a key identifier's state (R102, R194). -/
def kidCode : KidSt → Nat
  | .free => 0
  | .live => 1
  | .draining => 2

/-- The status word of a LEAF_EXACT record (R103). -/
def leafStatus (l : Leaf) : Nat :=
  clsCode l.cls + 4 * bit l.closed + 8 * bit l.inexact + 16 * bit l.repaired + 32 * (l.domain % 64) +
    2 ^ 11 * (l.group % 4096) + 2 ^ 23 * bit l.skipPending

/-- The bound field: 2^48 − B for a BOUNDED counter, else 0 (R103). -/
def boundField (l : Leaf) : Nat := if l.cls = .bounded then 2 ^ 48 - l.bound else 0

/-- The payload of a LEAF_EXACT record, value form or definition form (R102). -/
def leafPayload (l : Leaf) (defn : Bool) : List Byte :=
  let value := leBytes 8 l.v.toNat ++ leBytes 4 (leafStatus l)
  if defn then
    value ++ leBytes 8 (boundField l) ++ leBytes 8 l.lastSkip.toNat ++ leBytes 8 l.totalSkip.toNat ++ leBytes 8 l.v0.toNat
  else value

/-- The flags of a TAG_MIRROR record (R251). -/
def mirrorFlags (m : Mirror) : Nat :=
  bit m.inexact + 2 * bit m.anomaly + 4 * bit m.exhausted + 8 * bit m.present + 16 * (m.port % 64) +
    2 ^ 10 * (m.position % 16) + 2 ^ 14 * bit m.limitKnown

/-- The payload of a TAG_MIRROR record (R102). -/
def mirrorPayload (m : Mirror) : List Byte :=
  leBytes 8 m.serial.toNat ++ leBytes 2 m.family.toNat ++ leBytes 2 (mirrorFlags m) ++ leBytes 8 m.count ++
    leBytes 8 m.inserted ++ leBytes 8 m.calendar ++ leBytes 4 m.limit ++ leBytes 4 m.posec

/-- The eight groups of a page's 64 bytes (R124). (DESIGN CHOICE: notes/assumptions/36.md) -/
def pageGroups (bs : List Byte) : List (List Byte) := (List.range 8).map fun g => (bs.drop (8 * g)).take 8

/-- The payload of a PARAM_PAGE record (R102). -/
def pagePayload (p : Page) : List Byte := p.bytes ++ (pageGroups p.bytes).map Config.checkByte ++ leBytes 4 0

/-- The retired-sector map, bit 64 × bank + sector (R104, R120). -/
def retiredMap (s : State) : List Byte :=
  leBytes 32 ((s.jrn.sectors.filter fun x => decide (x.st = .retired)).foldl (fun n x => n + 2 ^ (64 * x.bank + x.idx)) 0)

/-- The domain's row: quotas and enable bit; a domain never set has none (R38). -/
def findDomain (s : State) (d : Nat) : Option Domain := s.kit.domains.find? fun x => x.num == d

/-- The image field at an offset of a firmware slot (R309). -/
def imageField (x : Slot) (offset size : Nat) : Nat := fieldAt x.bytes offset size

/-- The version of the image staged in a slot; 0 without a header. -/
def slotVersion (x : Slot) : Nat := imageField x 0x08 4

/-! ### The sealing key's work (R99, R104) -/

/-- The 32 bytes of the sealing key; a start derives it before it reads or writes a record (R99). -/
def sealingBytes (s : State) : List Byte := leBytes 32 (s.keys.sealing.getD 0).toNat

/-- w as the next CONFIG record of the retired-sector map holds it (R24, R175). -/
def nextWear (s : State) : Nat :=
  match s.plc.wearDue with
  | some (w, _) => w
  | none => s.plc.wear

/-- The payload of a CONFIG item (R104, R308; notes/assumptions/16.md for items 0x0100 and 0x0400).
(DESIGN CHOICE: notes/assumptions/16.md) -/
def configPayload (item : Nat) (s : State) : List Byte :=
  if item = 0x200 then retiredMap s ++ leBytes 1 (nextWear s) ++ leBytes 43 0
  else if item = 0x300 then leBytes 8 (calendar s) ++ leBytes 4 s.int.posec
  else if item = 0x400 then
    padTo 44 (leBytes 1 s.fw.active ++ leBytes 1 (bit s.fw.pending) ++ leBytes 1 (bit s.fw.slot0.incomplete) ++
      leBytes 1 (bit s.fw.slot1.incomplete) ++ leBytes 4 (slotVersion (if s.fw.active = 0 then s.fw.slot1 else s.fw.slot0)))
  else if item = 0x500 then leBytes 4 s.ctr.u ++ leBytes 8 0
  else if item < 0x40 then
    match findDomain s item with
    | some d =>
      padTo 44 (leBytes 4 d.counters ++ leBytes 4 d.strict ++ leBytes 4 d.bounded ++ leBytes 2 d.kids ++ leBytes 2 d.drbgs ++
        leBytes 8 (bit d.enabled))
    | none => leBytes 44 0
  else
    match s.hyc.families.find? fun f => f.1 == item - 0x100 with
    | some (_, key) => padTo 44 (wrapKey (sealingBytes s) (leBytes 16 key.toNat))
    | none => leBytes 44 0

/-- The record of a subject as it stands now: type, form, object and payload; none if the subject is gone (R102). -/
def layoutOf (w : What) (s : State) : Option (Nat × Nat × Nat × List Byte) :=
  match w with
  | .ceiling g v => (findGroup s g).map fun x =>
      (2, 0, g + 4096 * x.domain, leBytes 8 v.toNat ++ leBytes 4 s.jrn.session)
  | .groupFloor g =>
      match findGroup s g, s.ctr.emptied.find? fun x => x.1 == g with
      | some x, _ => some (3, 0, g + 4096 * x.domain, leBytes 8 x.liveMax.toNat ++ leBytes 4 s.jrn.session)
      | none, some x => some (3, 0, g + 4096 * x.2, leBytes 8 0 ++ leBytes 4 s.jrn.session)
      | none, none => none
  | .sectionFloor k => some (4, 0, k, leBytes 8 (sectionMax s k).toNat ++ leBytes 4 s.jrn.session)
  | .leaf n defn => (findLeaf s n).map fun l => (5, bit defn, (handleOf l.num l.inc).toNat, leafPayload l defn)
  | .challenge => some (5, 0, 0, leBytes 8 s.int.challenge.toNat ++ leBytes 4 2)
  | .posec => some (5, 0, 1, leBytes 8 s.int.posec ++ leBytes 4 2)
  | .antiRoll => some (5, 0, 2, leBytes 8 s.int.antiRoll ++ leBytes 4 2)
  | .kid k =>
      let x := kidOf s k
      some (6, 0, k + 2 ^ 14 * kidCode x.st + 2 ^ 16 * x.domain + 2 ^ 22 * bit x.retired,
        leBytes 4 x.gen.toNat ++ leBytes 8 x.mask.toNat)
  | .page p => some (7, 0, p, pagePayload (pageOf s p))
  | .mirror i => (findMirror s i).map fun m => (8, 0, i, mirrorPayload m)
  | .daily day payload => some (9, 0, day, padTo 108 payload)
  | .bist session payload => some (10, 0, session, padTo 44 payload)
  | .config item => some (11, 0, item, configPayload item s)
  | .session => some (1, 0, 0, leBytes 4 s.jrn.session ++ leBytes 8 s.int.posec)
  | .marker => some (12, 0, 0, leBytes 4 s.jrn.session ++ leBytes 4 s.flush.slots ++
      leBytes 4 (bit (decide (s.flush.level ≠ 0)) + 2 * bit s.flush.single))
  | .catchUp _ => none
  | .forward _ _ _ => none

/-- Slots of a record: its payload is 32 × slots − 20 bytes (R98). -/
def recSlots (r : Rec) : Nat := (r.payload.length + 20) / 32

/-- The key of a record within its type; the internal counters of incarnation 0 have keys of their own (R102,
notes/assumptions/15.md). (DEDUCED: notes/assumptions/15.md) -/
def recKey (r : Rec) : Nat × Nat :=
  let o := r.obj.toNat
  if r.typ = 5 then (if o / 2 ^ 18 = 0 then (13, o) else (5, o % 2 ^ 18))
  else if r.typ = 2 ∨ r.typ = 3 ∨ r.typ = 8 then (r.typ, o % 4096)
  else if r.typ = 4 then (4, o % 64)
  else if r.typ = 6 then (6, o % 2 ^ 14)
  else if r.typ = 7 then (7, o % 256)
  else if r.typ = 9 ∨ r.typ = 11 then (r.typ, o)
  else (r.typ, 0)

/-- The current record of a key (R102). -/
def currentRec (s : State) (key : Nat × Nat) : Option Rec := s.jrn.current.find? fun r => decide (recKey r = key)


/-! ### Bytes of records and headers (R97-R99, R105) -/

/-- The bytes of a record before its MAC: header and payload (R98). -/
def recBody (r : Rec) : List Byte := recordBytes r.typ r.form r.single r.seq r.obj.toNat r.payload

/-- The bytes of a record's slots (R98). -/
def recBytes (r : Rec) : List Byte := recBody r ++ r.mac

/-- A record with its MAC, computed once (R99, R107). -/
def sealRec (key : List Byte) (r : Rec) : Rec := { r with mac := sealMac key (recBody r) }

/-- The record that the bytes of so many slots spell; none where its MAC does not verify (R98-R100). -/
def parseRec (key bytes : List Byte) : Option Rec :=
  let n := bytes.length - 8
  if sealMac key (bytes.take n) = bytes.drop n then
    some {
      typ := fieldAt bytes 0 1, form := bitsOf (fieldAt bytes 1 1) 4 2, single := bitsOf (fieldAt bytes 1 1) 6 1 == 1
      seq := fieldAt bytes 2 6, obj := BitVec.ofNat 32 (fieldAt bytes 8 4), payload := (bytes.take n).drop 12
      mac := bytes.drop n }
  else none

/-- The bytes of a sector header before its MAC (R105). -/
def headerBody (x : Sector) : List Byte := headerFields x.bank x.idx x.erases x.eraseTime x.firstSeq x.opened

/-- The 32 bytes of a sector header (R105). -/
def headerBytes (key : List Byte) (x : Sector) : List Byte := withMac key (headerBody x)

/-- The MAC of a sector header verifies (R105). -/
def headerVerifies (key bytes : List Byte) : Bool :=
  decide (bytes.length = 32) && decide (sealMac key (bytes.take 24) = bytes.drop 24)

/-! ### The medium (R95, R96, R100, R111) -/

/-- What an erased slot reads (R95). -/
def erasedSlot : List Byte := List.replicate 32 0xFF

/-- The contents of a slot (R95). -/
def slotBytes (s : State) (bank sector slot : Nat) : Option (List Byte) :=
  match s.jrn.flash.find? fun f => f.bank == bank && f.sector == sector && f.slot == slot with
  | some f => f.bytes
  | none => some erasedSlot

/-- What a read of a slot gives, none where it is unreadable (R96). -/
def slotFound (reads : List SlotRead) (s : State) (bank sector slot : Nat) : Option (List Byte) :=
  match reads.find? fun x => x.bank == bank && x.sector == sector && x.slot == slot with
  | some x =>
    match x.found with
    | .same => slotBytes s bank sector slot
    | .other bytes => some (padTo 32 bytes)
    | .unreadable => none
  | none => slotBytes s bank sector slot

/-- The bytes of slots read one after another; none where one of them is unreadable. -/
def slotsFound (reads : List SlotRead) (s : State) (bank sector : Nat) : Nat → Nat → Option (List Byte)
  | _, 0 => some []
  | slot, n + 1 =>
    match slotFound reads s bank sector slot, slotsFound reads s bank sector (slot + 1) n with
    | some x, some rest => some (x ++ rest)
    | _, _ => none

/-- The record that starts in a slot, lies inside the sector and exists (R98, R100, R111). -/
def recordAt (reads : List SlotRead) (s : State) (key : List Byte) (bank sector slot : Nat) : Option Rec :=
  match slotFound reads s bank sector slot with
  | none => none
  | some first =>
    let typ := fieldAt first 0 1
    let n := fieldAt first 1 1 % 16 + 1
    if typ = 0 ∨ 0x0C < typ ∨ 1024 < slot + n then none
    else (slotsFound reads s bank sector slot n).bind (parseRec key)

/-- The records of a sector from a slot on, for at most so many slots (R111). -/
def walkSector (reads : List SlotRead) (s : State) (key : List Byte) (bank sector : Nat) : Nat → Nat → List Inst
  | 0, _ => []
  | n + 1, slot =>
    if 1023 < slot ∨ slotFound reads s bank sector slot = some erasedSlot then []
    else
      match recordAt reads s key bank sector slot with
      | some r => ⟨decide (2 ≤ bank), bank, sector, slot, r⟩ :: walkSector reads s key bank sector n (slot + recSlots r)
      | none => walkSector reads s key bank sector n (slot + 1)

/-- A sector's header as read, where its MAC verifies (R105). -/
def headerFound (reads : List SlotRead) (s : State) (key : List Byte) (x : Sector) : Option (List Byte) :=
  (slotFound reads s x.bank x.idx 0).filter (headerVerifies key)

/-- Every record found in the flash, in the order of bank, sector and slot (R111). -/
def foundRecords (reads : List SlotRead) (s : State) : List Inst :=
  s.jrn.sectors.flatMap fun x =>
    if (headerFound reads s (sealingBytes s) x).isSome then walkSector reads s (sealingBytes s) x.bank x.idx 1023 1 else []

/-! ### Conflicts (R113) -/

/-- The groups of a PARAM_PAGE record whose bytes do not match their check byte (R102, R129). -/
def badGroups (payload : List Byte) : List Nat :=
  (List.range 8).filter fun g =>
    decide (Config.checkByte ((payload.drop (8 * g)).take 8) ≠ nthOr 0 (64 + g) payload)

/-- Groups of a PARAM_PAGE copy that are not clean: a bit corrected in a slot that holds the group, or a check byte that does not
match (R113). -/
def dirtyGroupsOf (slots : List Nat) (payload : List Byte) : Nat :=
  ((List.range 8).filter fun g =>
    (badGroups payload).contains g || slots.contains ((8 * g + 12) / 32) || slots.contains ((8 * g + 19) / 32)).length

/-- The larger of two fields. -/
def maxField (offset size : Nat) (a b : List Byte) : List Byte := leBytes size (max (fieldAt a offset size) (fieldAt b offset size))

/-- Bits set in either of two fields, under a mask. -/
def orBits (x y mask : Nat) : Nat := Nat.land (Nat.lor x y) mask

/-- The status word of LEAF_EXACT: class the maximum; closed, inexact, repaired and skip pending set if set in either; domain and
group copy A's (R113). -/
def mergeStatus (x y : Nat) : Nat :=
  max (x % 4) (y % 4) + orBits x y (0x1C + 0x800000) + Nat.land x 0x7FFFE0

/-- The flags of TAG_MIRROR: copy A's, anomaly and limit known set if set in either (R113). -/
def mergeFlags (x y : Nat) : Nat := Nat.lor x (Nat.land y 0x4002)

/-- Generation and state of KID_GEN as one number: the higher pair wins (R113). -/
def kidRank (r : Rec) : Nat := fieldAt r.payload 0 4 * 4 + bitsOf r.obj.toNat 14 2

/-- Two copies of one record with different bytes: the record that counts, if any, and the resolution code (R113). `slotsA` and
`slotsB` are the slots in which the medium corrected a bit. -/
def resolve (slotsA slotsB : List Nat) (a b : Rec) : Option Rec × Nat :=
  let x := a.payload
  let y := b.payload
  match a.typ with
  | 5 =>
    let value := maxField 0 8 x y ++ leBytes 4 (mergeStatus (fieldAt x 8 4) (fieldAt y 8 4))
    let defn := maxField 12 8 x y ++ maxField 20 8 x y ++ maxField 28 8 x y ++ (x.drop 36).take 8
    (some { a with payload := if a.form = 1 then value ++ defn else value }, 0)
  | 2 => (some { a with payload := maxField 0 8 x y ++ maxField 8 4 x y }, 0)
  | 3 => (some { a with payload := maxField 0 8 x y ++ maxField 8 4 x y }, 0)
  | 4 => (some { a with payload := maxField 0 8 x y ++ maxField 8 4 x y }, 0)
  | 6 =>
    let high := if kidRank a < kidRank b then b else a
    let domain := if bitsOf a.obj.toNat 16 6 = bitsOf b.obj.toNat 16 6 then bitsOf a.obj.toNat 16 6
      else Config.conflictDomain a.obj b.obj % 64
    let obj := a.obj.toNat % 2 ^ 14 + 2 ^ 14 * bitsOf high.obj.toNat 14 2 + 2 ^ 16 * domain +
      2 ^ 22 * max (bitsOf a.obj.toNat 22 1) (bitsOf b.obj.toNat 22 1)
    let payload := leBytes 4 (fieldAt high.payload 0 4) ++ leBytes 8 (Nat.lor (fieldAt x 4 8) (fieldAt y 4 8))
    (some { a with obj := BitVec.ofNat 32 obj, payload := payload }, 0)
  | 8 =>
    let fields := maxField 12 8 x y ++ maxField 20 8 x y ++ maxField 28 8 x y ++ maxField 36 4 x y ++ maxField 40 4 x y
    (some { a with payload := x.take 10 ++ leBytes 2 (mergeFlags (fieldAt x 10 2) (fieldAt y 10 2)) ++ fields }, 0)
  | 7 => if dirtyGroupsOf slotsB y < dirtyGroupsOf slotsA x then (some b, 2) else (some a, 1)
  | 10 => (none, 3)
  | 12 => (none, 3)
  | _ => (some a, 1)

/-- Records of one key and sequence number that differ, brought to one; none once a rule treats them as absent (R111, R113). -/
def resolveAll : Option Rec → List Rec → Option Rec
  | r, [] => r
  | none, _ => none
  | some a, b :: rest => resolveAll (if a = b then some a else (resolve [] [] a b).1) rest

/-- The definition form from which B, V0 and the skip fields of a leaf record's counter are taken: the newest of its handle, its copies
resolved where they differ (R102, R113). (DEDUCED: notes/assumptions/63.md) -/
def definitionOf (s : State) (r : Rec) : Option Rec :=
  let forms := (s.jrn.insts.filter fun i =>
    i.record.typ == 5 && i.record.form == 1 && decide (i.record.obj = r.obj) && decide (i.record.seq ≤ r.seq)).map fun i => i.record
  (maxBy (fun d => d.seq) forms).bind fun d => resolveAll (some d) (forms.filter fun x => x.seq == d.seq)

/-- The live records: the current ones, and the definition forms behind current value forms (R102, R117). -/
def liveRecs (s : State) : List Rec :=
  s.jrn.current ++ (s.jrn.current.filter fun r => r.typ == 5 && r.form == 0).filterMap (definitionOf s)

/-! ### Where a record is put (R106, R118, R119, R177) -/

/-- A bank belongs to copy B (R95). -/
def isCopyB (bank : Nat) : Bool := decide (2 ≤ bank)

/-- The banks of a copy (R95). -/
def copyBanks (copyB : Bool) : List Nat := if copyB then [2, 3] else [0, 1]

/-- A copy is unavailable (R110). -/
def copyOut (s : State) (copyB : Bool) : Bool := if copyB then s.jrn.outB else s.jrn.outA

/-- Erased sectors of a copy. -/
def erasedCount (s : State) (copyB : Bool) : Nat :=
  (s.jrn.sectors.filter fun x => isCopyB x.bank == copyB && decide (x.st = .erased)).length

/-- The flush reserve of a copy: sectors for one copy of the largest flush the caps allow, plus one (R118). -/
def reserveSectors (s : State) : Nat := (4097 + s.owed.capS + s.owed.capB + 1022) / 1023 + 1

/-- Erased sectors of a copy outside its reserve (R118). -/
def freeSectors (s : State) (copyB : Bool) : Nat := erasedCount s copyB - reserveSectors s

/-- A sector changed. -/
def modSector (bank idx : Nat) (f : Sector → Sector) (s : State) : State :=
  { s with jrn := { s.jrn with sectors := modWhere (fun x => x.bank == bank && x.idx == idx) f s.jrn.sectors } }

/-- A sector by its place. -/
def findSector (s : State) (bank idx : Nat) : Option Sector :=
  s.jrn.sectors.find? fun x => x.bank == bank && x.idx == idx

/-- The open sector of a bank that takes a record: in use, not shut, with room; the one opened last (R106). -/
def openSector (s : State) (bank slots : Nat) : Option Sector :=
  maxBy (fun x => x.firstSeq) (s.jrn.sectors.filter fun x =>
    x.bank == bank && decide (x.st = .inUse) && !x.shut && decide (x.next + slots ≤ 1024))

/-- The erased sector of a bank with the lowest erase count (R119). -/
def freshSector (s : State) (bank : Nat) : Option Sector :=
  minBy (fun x => x.erases) (s.jrn.sectors.filter fun x => x.bank == bank && decide (x.st = .erased))

/-- A slot of the flash is programmed (R95). -/
def putSlot (bank sector slot : Nat) (bytes : Option (List Byte)) (s : State) : State :=
  { s with jrn := { s.jrn with flash := s.jrn.flash ++ [⟨bank, sector, slot, bytes⟩] } }

/-- A sector is put in use and its header written; `firstSeq` is the lowest sequence number it may hold but for records copied
forward (R105). (DEDUCED: notes/assumptions/32.md) -/
def takeFresh (x : Sector) (firstSeq : Nat) (s : State) : State :=
  let y := { x with
    st := .inUse, firstSeq := firstSeq, opened := s.int.posec / 3600, next := 1, shut := false, failures := 0, corrected := 0 }
  putSlot x.bank x.idx 0 (some (headerBytes (sealingBytes s) y)) (modSector x.bank x.idx (fun _ => y) s)

/-- What is left in a bank's sectors in use stays erased (R106). -/
def shutBank (bank : Nat) (s : State) : State :=
  { s with jrn := { s.jrn with
      sectors := modWhere (fun y => y.bank == bank && decide (y.st = .inUse)) (fun y => { y with shut := true }) s.jrn.sectors } }

/-- Where in a copy a record goes: its slots, the lowest sequence number of a sector opened for it, whether the flush reserve is open
to it, whether it starts in a fresh sector (R106, R109, R118). -/
structure Wanted where
  slots : Nat
  firstSeq : Nat
  reserve : Bool
  fresh : Bool
deriving DecidableEq, Repr

/-- A sector of the bank is opened for a record: the erased one with the lowest erase count, outside the reserve unless the flush
writes (R118, R119). -/
def placeFresh (bank : Nat) (w : Wanted) (s : State) : Option (Nat × Nat × State) :=
  if w.reserve || decide (0 < freeSectors s (isCopyB bank)) then
    (freshSector s bank).map fun x =>
      (x.idx, 1, modSector bank x.idx (fun y => { y with next := 1 + w.slots })
        (takeFresh x w.firstSeq (if w.fresh then s else shutBank bank s)))
  else none

/-- The place of a record in a bank, with a sector opened if need be: sector and first slot (R106, R109). -/
def placeInBank (bank : Nat) (w : Wanted) (s : State) : Option (Nat × Nat × State) :=
  match (if w.fresh then none else openSector s bank w.slots) with
  | some x => some (x.idx, x.next, modSector bank x.idx (fun y => { y with next := y.next + w.slots }) s)
  | none => placeFresh bank w s

/-- A bank programs nothing. -/
def bankIdle (s : State) (bank : Nat) : Bool := !(s.jrn.progs.any fun p => p.bank == bank)

/-- The erase count of a bank's open sector, for the tie of R177. -/
def openErases (s : State) (bank slots : Nat) : Nat :=
  match openSector s bank slots with
  | some x => x.erases
  | none =>
    match freshSector s bank with
    | some x => x.erases
    | none => 0

/-- The bank that REFRESH_SCAN holds: the one of the next sector it scans (R122). -/
def heldBank (s : State) : Option Nat :=
  match s.mnt.running with
  | some r => if r.req.kind = 3 then r.left.head?.map fun p => p.1 else none
  | none => none

/-- The flush writes this record (R146, R177). -/
def inFlush (s : State) (rank : Nat) : Bool := rank == 1 && decide (s.flush.why ≠ .none)

/-- The bank whose turn it is in a copy (R177). -/
def turnBank (s : State) (copyB : Bool) : Nat := if copyB then 2 + s.flush.turnB else s.flush.turnA

/-- The banks of a copy in the order in which a record goes into them: for the flush the bank whose turn it is, else the bank whose
open sector has the lower erase count; one that REFRESH_SCAN holds takes none (R122, R134, R177).
(DESIGN CHOICE: notes/assumptions/35.md) -/
def bankOrder (s : State) (copyB : Bool) (rank slots : Nat) : List Nat :=
  if inFlush s rank then sortBy (fun b => bit (b != turnBank s copyB)) (copyBanks copyB)
  else (sortBy (fun b => openErases s b slots) (copyBanks copyB)).filter fun b => heldBank s != some b

/-- The first bank of a list in which a record can be put: bank, sector, first slot. -/
def placeInBanks (w : Wanted) (s : State) : List Nat → Option (Nat × Nat × Nat × State)
  | [] => none
  | b :: rest =>
    match placeInBank b w s with
    | some (x, slot, s1) => some (b, x, slot, s1)
    | none => placeInBanks w s rest

/-- The flush's next record in this copy goes into the other bank (R177). -/
def nextTurn (bank rank : Nat) (s : State) : State :=
  if inFlush s rank then
    if isCopyB bank then { s with flush := { s.flush with turnB := 3 - bank } }
    else { s with flush := { s.flush with turnA := 1 - bank } }
  else s

/-- The lowest sequence number a sector opened for this record may hold (R105): its own, or the next one for a record that is copied
forward or caught up. -/
def firstSeqFor (j : JWrite) (r : Rec) (s : State) : Nat :=
  match j.what with
  | .forward _ _ _ => s.jrn.nextSeq
  | .catchUp _ => s.jrn.nextSeq
  | _ => r.seq

/-- What a record of a write asks of a copy. -/
def wantedFor (c : CopyWait) (s : State) : Wanted :=
  ⟨recSlots c.record, firstSeqFor c.write c.record s, inFlush s c.write.rank, c.fresh⟩

/-- A program of one copy of a record begins in an idle bank; the flush waits for the bank whose turn it is (R107, R177). -/
def startProgram (c : CopyWait) (s : State) : Option State :=
  match placeInBanks (wantedFor c s) s ((bankOrder s c.copyB c.write.rank (recSlots c.record)).filter fun b =>
      inFlush s c.write.rank || bankIdle s b) with
  | some (b, x, slot, s1) =>
    if bankIdle s b then
      some (nextTurn b c.write.rank { s1 with jrn := { s1.jrn with
        progs := s1.jrn.progs ++ [{ bank := b, sector := x, slot := slot, done := 0, write := c.write, record := c.record }] } })
    else none
  | none => none

/-! ### A record is written (R107) -/

/-- The operations that waited for a write: those that wait for nothing else complete (R107, R108). -/
def finishWaiting (id : Nat) : List Op → State → State
  | [], s => s
  | op :: rest, s =>
    match op.st with
    | .record writes resA resB =>
      if writes.contains id then
        let left := writes.filter fun w => w != id
        if left = [] then finishWaiting id rest (complete op .ok resA resB false s)
        else finishWaiting id rest (setOpSt op.id (.record left resA resB) s)
      else finishWaiting id rest s
    | _ => finishWaiting id rest s

/-- The record becomes the current one of its key; of the dailies the 128 highest days stay (R102, R317). -/
def makeCurrent (r : Rec) (s : State) : State :=
  let others := s.jrn.current.filter fun c => !(decide (recKey c = recKey r) && decide (c.seq ≤ r.seq))
  let newest := !(others.any fun c => decide (recKey c = recKey r))
  let all := if newest then others ++ [r] else others
  let days := sortBy (fun d => d) ((all.filter fun c => c.typ == 9).map fun c => c.obj.toNat)
  let dropped := days.take (days.length - 128)
  { s with jrn := { s.jrn with current := all.filter fun c => !(c.typ == 9 && dropped.contains c.obj.toNat) } }

/-- Slot writes are counted for the day and, with `rank`, for the wear budget (R175, R179, R316). -/
def countSlots (rank typ slots : Nat) (s : State) : State :=
  { s with jrn := { s.jrn with
      slotsToday := s.jrn.slotsToday + slots
      otherToday := s.jrn.otherToday + (if rank = 1 ∨ typ = 2 then 0 else slots) }
           flush := { s.flush with slots := s.flush.slots + (if rank = 1 ∧ s.flush.why ≠ .none ∧ typ ≠ 12 then slots else 0) } }

/-- The effect of a record that counts as written, by its subject (R107, R132, R137, R138, R143).
(DEDUCED: notes/assumptions/44.md) -/
def effectWritten (j : JWrite) (s : State) : State :=
  match j.what with
  | .ceiling g v =>
    let s1 := modGroup g (fun x => { x with
      ceiling := some (match x.ceiling with | some old => if old.toNat < v.toNat then v else old | none => v), ceilAt := s.clk.now, ceilQueued := if x.ceilQueued = some v then none else x.ceilQueued }) s
    { s1 with jrn := { s1.jrn with ceilToday := s1.jrn.ceilToday + 1 } }
  | .groupFloor g =>
    let s1 := modGroup g (fun x => { x with dirty := false }) s
    { s1 with ctr := { s1.ctr with emptied := s1.ctr.emptied.filter fun x => x.1 != g } }
  | .leaf n _ => if s.flush.why ≠ .none then releaseBounded n s else s
  | .page p =>
    if !(s.owed.strict.any fun e => decide (e.what = .page p)) then
      { s with kit := { s.kit with pages := modWhere (fun x => x.num == p) (fun x => { x with dirty := false }) s.kit.pages } }
    else s
  | .daily day payload =>
    { s with hmu := { s.hmu with
        dailies := lastN 128 (insertBy (fun d => d.1) (day, padTo 108 payload) (s.hmu.dailies.filter fun d => d.1 != day))
        fitDue := true } }
  | _ => s

/-- The CONFIG record of the retired-sector map takes a new w into effect, which is logged then (R24, R175, R181). -/
def wearWritten (r : Rec) (s : State) : State :=
  match s.plc.wearDue with
  | some (w, records) =>
    if r.typ = 11 ∧ r.obj = 0x200 ∧ fieldAt r.payload 32 1 = w then
      let s1 := { s with plc := { s.plc with wear := w, wearDue := none } }
      if w = s.plc.wear then s1 else logDecision 0x0B 0 s.plc.wear w records s1
    else s
  | none => s

/-- A record counts as written: it is current, its owed entry is released and the operations that waited for it go on; `one` says
that it was written in one copy only, which the flush's marker shows (R107, R138, R147). -/
def recordWritten (one : Bool) (j : JWrite) (r : Rec) (s : State) : State :=
  let s1 := { s with owed := { s.owed with strict := s.owed.strict.filter fun e => e.taken != some j.id } }
  let s2 := wearWritten r (effectWritten j (makeCurrent r s1))
  let s3 := if one && inFlush s j.rank then { s2 with flush := { s2.flush with single := true } } else s2
  finishWaiting j.id s3.hif.ops s3

/-- A copy of a record exists in the flash (R98, R107). -/
def storeCopy (bank sector slot : Nat) (r : Rec) (s : State) : State :=
  { s with jrn := { s.jrn with insts := s.jrn.insts ++ [⟨isCopyB bank, bank, sector, slot, r⟩] } }

/-- A copy of a record with this sequence number exists (R110, R112). -/
def hasCopy (s : State) (copyB : Bool) (seq : Nat) : Bool := s.jrn.insts.any fun i => i.copyB == copyB && i.record.seq == seq

/-- The record that lies at a place of the flash. -/
def instAt (s : State) (bank sector slot : Nat) : Option Inst :=
  s.jrn.insts.find? fun i => i.bank == bank && i.sector == sector && i.slot == slot

/-- A sector is being emptied (R117). -/
def isEmptying (s : State) (bank sector : Nat) : Bool := s.jrn.emptying.any fun e => e.bank == bank && e.sector == sector

/-- Another instance of the record in the same copy will outlast this one (R111, R117). -/
def movedOn (s : State) (i : Inst) : Bool :=
  s.jrn.insts.any fun x => x.copyB == i.copyB && x.record.seq == i.record.seq && decide (recKey x.record = recKey i.record) &&
    !(x.bank == i.bank && x.sector == i.sector) && !isEmptying s x.bank x.sector

/-- The copies of live records in a sector that have still to be copied forward before it is erased (R117). -/
def liveIn (s : State) (bank sector : Nat) : List Inst :=
  let live := liveRecs s
  s.jrn.insts.filter fun i =>
    i.bank == bank && i.sector == sector && (live.any fun r => decide (recKey r = recKey i.record) && r.seq == i.record.seq) &&
      !movedOn s i

/-! ### Taking the next record (R101, R108, R110) -/

/-- The subject's open entry is settled by the write that now takes its value (R108). -/
def markTaken (w : What) (id : Nat) (s : State) : State :=
  { s with owed := { s.owed with
      strict := modWhere (fun e => sameSubject e.what w && e.taken.isNone) (fun e => { e with taken := some id })
        s.owed.strict } }

/-- The form in which a subject is written now: a leaf whose entry asks for the definition form gets it (R86). -/
def formNow (w : What) (s : State) : What :=
  match w with
  | .leaf n d =>
    match openEntry w s with
    | some e => .leaf n (d || decide (e.what = .leaf n true))
    | none => w
  | _ => w

/-- The record is built once, with the next sequence number and its MAC; a copy forward keeps the bytes it has; the calendar's record
notes when (R101, R107, R308). -/
def buildRecord (j : JWrite) (single : Bool) (s : State) : Option (Rec × State) :=
  match j.what with
  | .catchUp q => (s.jrn.insts.find? fun i => i.record.seq == q).map fun i => (i.record, s)
  | .forward b x n => (instAt s b x n).map fun i => (i.record, s)
  | w =>
    match layoutOf (formNow w s) s with
    | some (typ, form, obj, payload) =>
      some (sealRec (sealingBytes s) ⟨typ, form, single, s.jrn.nextSeq, BitVec.ofNat 32 obj, payload, []⟩,
        markTaken w j.id { s with
          jrn := { s.jrn with nextSeq := s.jrn.nextSeq + 1 }
          int := { s.int with calRecordAt := if w = .config 0x300 then s.int.posec else s.int.calRecordAt } })
    | none => none

/-- PMU confirms that the stored energy covers a single-copy write on top of the flush of the present owed sets (R110). -/
def energyForSingle (slots : Nat) (s : State) : Bool := decide (2 * owedSlots s + slots ≤ certifiedWrites s)

/-- A leaf write whose entry another write has settled has nothing to write (R86). -/
def isIdleWrite (j : JWrite) (s : State) : Bool :=
  match j.what with
  | .leaf n d => (openEntry (.leaf n d) s).isNone
  | .mirror i => (openEntry (.mirror i) s).isNone
  | .catchUp q =>
    (hasCopy s false q == hasCopy s true q) || !((liveRecs s).any fun r => r.seq == q)
  | .forward b x n => !((liveIn s b x).any fun i => i.slot == n)
  | w => (layoutOf w s).isNone

/-- The first copy a write goes into: copy A, the other one while A is unavailable, the missing one for a catch-up, its own for a copy
forward (R107, R110, R117). -/
def firstCopy (j : JWrite) (s : State) : Bool :=
  match j.what with
  | .catchUp q => hasCopy s false q
  | .forward b _ _ => isCopyB b
  | _ => s.jrn.outA

/-- A write of one copy of a record that the other one has, or of one copy alone: a catch-up or a copy forward (R110, R117). -/
def isCopying (w : What) : Bool :=
  match w with
  | .catchUp _ => true
  | .forward _ _ _ => true
  | _ => false

/-- The first ceiling of the leaf's group has still to be written, and the leaf's record follows it (R143, R182). -/
def awaitsCeiling (w : What) (s : State) : Bool :=
  match w with
  | .leaf n _ =>
    match findLeaf s n with
    | some l => !l.closed && (match findGroup s l.group with | some g => g.ceiling.isNone | none => false)
    | none => false
  | _ => false

/-- A write is begun, if its record can be built and put somewhere; outside the flush a single-copy record needs the energy confirmed
(R107, R110, R147). -/
def beginWrite (j : JWrite) (s : State) : Option State :=
  let copyB := firstCopy j s
  if copyOut s copyB || (!inFlush s j.rank && awaitsCeiling j.what s) then none
  else
    let single := (s.jrn.outA || s.jrn.outB) && !isCopying j.what
    match buildRecord j single s with
    | none => none
    | some (r, s1) =>
      if single && !inFlush s j.rank && !energyForSingle (recSlots r) s then none
      else startProgram ⟨j, r, copyB, false⟩ s1

/-- The queued writes in the order of R108. -/
def byRank (q : List JWrite) : List JWrite := sortBy (fun j => j.rank) q

/-- A write leaves the queue. -/
def unqueue (id : Nat) (s : State) : State :=
  { s with jrn := { s.jrn with queue := s.jrn.queue.filter fun j => j.id != id } }

/-- The first queued write that can begin, begun; writes with nothing to write leave the queue (R108, R118). -/
def beginFirst : List JWrite → State → State
  | [], s => s
  | j :: rest, s =>
    if isIdleWrite j s then beginFirst rest (finishWaiting j.id s.hif.ops (unqueue j.id s))
    else match beginWrite j s with
      | some s1 => unqueue j.id s1
      | none => beginFirst rest s

/-- CONFIG and anti-rollback writes that dispatched operations wait for: they end before the flush's first record
(notes/assumptions/17.md). (DEDUCED: notes/assumptions/17.md) -/
def awaitedWrites (s : State) : List JWrite :=
  (byRank s.jrn.queue).filter fun j =>
    (match j.what with | .config _ => true | _ => false) &&
      s.hif.ops.any fun op => match op.st with | .record ws _ _ => ws.contains j.id | _ => false

/-- The next record of the flush is begun; a write of its subject that waited is that record (R108, R146). -/
def beginFlushRecord (s : State) : State :=
  match s.flush.plan with
  | [] => s
  | w :: rest =>
    let j : JWrite := match s.jrn.queue.find? fun q => sameSubject q.what w with
      | some q => { q with rank := 1, what := w }
      | none => ⟨s.jrn.nextWrite, 1, w⟩
    let s1 := { s with jrn := { s.jrn with nextWrite := s.jrn.nextWrite + 1, queue := s.jrn.queue.filter fun q => q.id != j.id } }
    if (layoutOf w s1).isNone then { s1 with flush := { s1.flush with plan := rest } }
    else match beginWrite j s1 with
      | some s2 => { s2 with flush := { s2.flush with plan := rest } }
      | none => s

/-- A record that could not be finished in a copy that went out of service before any copy of it was whole is built again (R110).
(DEDUCED: notes/assumptions/79.md) -/
def buildAgain (j : JWrite) (s : State) : State :=
  if isCopying j.what then s
  else
    let s1 := { s with owed := { s.owed with
      strict := modWhere (fun e => e.taken == some j.id) (fun e => { e with taken := none }) s.owed.strict } }
    if inFlush s j.rank then { s1 with flush := { s1.flush with plan := j.what :: s1.flush.plan } }
    else { s1 with jrn := { s1.jrn with queue := j :: s1.jrn.queue } }

/-- A waiting record is taken up where its copy has a bank for it; with the copy unavailable, one that is whole in copy A counts as
written, and any other is built again (R107, R109, R110). -/
def beginWaiting (c : CopyWait) (s : State) : Option State :=
  let s1 := { s with jrn := { s.jrn with waiting := s.jrn.waiting.filter fun x => decide (x ≠ c) } }
  if copyOut s c.copyB then
    if c.copyB && !c.record.single && !isCopying c.write.what then some (recordWritten true c.write c.record s1)
    else some (buildAgain c.write s1)
  else startProgram c s1

/-- Every waiting record for which there is a bank, in order. -/
def beginEach : List CopyWait → State → State
  | [], s => s
  | c :: rest, s =>
    match beginWaiting c s with
    | some s1 => beginEach rest s1
    | none => beginEach rest s

/-- JRN gives idle banks their next programs; in HOLDUP those of the flush alone (R107, R108, R149). -/
def pumpOnce (s : State) : State :=
  if s.jrn.dead then s
  else
    let s1 := beginEach s.jrn.waiting s
    if s1.flush.why ≠ .none then
      if awaitedWrites s1 ≠ [] then beginFirst (awaitedWrites s1) s1 else beginFlushRecord s1
    else if s1.ready.journal && decide (s1.pmu.power ≠ .holdup) then beginFirst (byRank s1.jrn.queue) s1
    else s1

/-- Up to four banks are served. -/
def pump (s : State) : State := pumpOnce (pumpOnce (pumpOnce (pumpOnce s)))

/-! ### Sectors emptied, erased and retired (R117, R120, R122) -/

/-- A sector takes no more records (before its erase or its retirement). -/
def shutSector (bank sector : Nat) (s : State) : State := modSector bank sector (fun x => { x with shut := true }) s

/-- Every slot programmed in the sector is gone with its erase. -/
def dropSector (bank sector : Nat) (s : State) : State :=
  { s with jrn := { s.jrn with
      insts := s.jrn.insts.filter fun i => !(i.bank == bank && i.sector == sector)
      flash := s.jrn.flash.filter fun f => !(f.bank == bank && f.sector == sector) } }

/-- All sectors of both banks of a copy are retired (R110). -/
def copyRetired (s : State) (copyB : Bool) : Bool :=
  (s.jrn.sectors.filter fun x => isCopyB x.bank == copyB).all fun x => decide (x.st = .retired)

/-- MEDIA_REFRESH (R123). -/
def postRefresh (x : Sector) (weak corrected reason : Nat) (first : Option (Nat × Nat)) (s : State) : State :=
  postEvent .mediaRefresh (x.idx + 256 * x.bank)
    (leBytes 4 weak ++ leBytes 2 (saturate corrected 65535) ++ leBytes 1 reason ++ leBytes 1 0 ++ leBytes 4 x.erases ++
      leBytes 2 (match first with | some (b, i) => i + 256 * b | none => 0xFFFF)) s

/-- Copy A goes out of service: a record whole in it that is not yet whole in copy B has its copy A written again by the catch-up
(R134). -/
def forgetHalf (s : State) : State :=
  let half : List Nat := (s.jrn.waiting.filter fun c => c.copyB && !isCopying c.write.what).map (fun c => c.record.seq) ++
    (s.jrn.progs.filter fun p => isCopyB p.bank && !isCopying p.write.what).map fun p => p.record.seq
  { s with jrn := { s.jrn with insts := s.jrn.insts.filter fun i => i.copyB || !half.contains i.record.seq } }

/-- A copy becomes unavailable (R110, R134). -/
def takeOut (copyB : Bool) (s : State) : State :=
  if copyB then { s with jrn := { s.jrn with outB := true } }
  else
    let s1 := forgetHalf s
    { s1 with jrn := { s1.jrn with outA := true } }

/-- A copy whose last sector has been retired is unavailable (R110). -/
def noteRetired (copyB : Bool) (s : State) : State := if copyRetired s copyB && !copyOut s copyB then takeOut copyB s else s

/-- A sector is retired: its bit goes into the map, and it is never used again (R120). -/
def retireSector (bank sector : Nat) (s : State) : State :=
  let s1 := modSector bank sector (fun x => { x with st := .retired, shut := true })
    { s with jrn := { s.jrn with insts := s.jrn.insts.filter fun i => !(i.bank == bank && i.sector == sector) } }
  noteRetired (isCopyB bank) (queueWrite 4 (.config 0x200) s1)

/-- The erase of a sector begins (R117). -/
def startErase (bank sector : Nat) (s : State) : State :=
  modSector bank sector (fun x => { x with st := .erasing }) (dropSector bank sector s)

/-- No live record has still to leave the sector, and no program runs in it (R117). -/
def isEmptied (s : State) (bank sector : Nat) : Bool :=
  (liveIn s bank sector).isEmpty && !(s.jrn.progs.any fun p => p.bank == bank && p.sector == sector)

/-- A refreshed sector counts for the REFRESH_SCAN that runs (R335). -/
def countRefreshed (s : State) : State :=
  match s.mnt.running with
  | some r => if r.req.kind = 3 then { s with mnt := { s.mnt with running := some { r with value := r.value + 1 } } } else s
  | none => s

/-- A sector that is emptied is erased or retired, and MEDIA_REFRESH posted where the scan asked for it (R117, R120, R122, R335). -/
def finishEmptying (e : Emptying) (s : State) : State :=
  let s1 := { s with jrn := { s.jrn with emptying := s.jrn.emptying.filter fun x => !(x.bank == e.bank && x.sector == e.sector) } }
  let s2 := match e.refresh, findSector s e.bank e.sector with
    | some (weak, corrected, reason), some x => countRefreshed (postRefresh x weak corrected reason e.first s1)
    | _, _ => s1
  if e.retire then retireSector e.bank e.sector s2 else startErase e.bank e.sector s2

/-- A copy forward that is queued, waits or runs. -/
def isForwarding (s : State) (w : What) : Bool :=
  (s.jrn.queue.any fun j => decide (j.what = w)) || (s.jrn.waiting.any fun c => decide (c.write.what = w)) ||
    s.jrn.progs.any fun p => decide (p.write.what = w)

/-- What a sector being emptied asks for next: its end, or copies forward in the order in which its records are listed (R117).
(DESIGN CHOICE: notes/assumptions/80.md) -/
def tendOne (s : State) (e : Emptying) : State :=
  if isEmptied s e.bank e.sector then finishEmptying e s
  else (liveIn s e.bank e.sector).foldl (fun s i =>
    if isForwarding s (.forward i.bank i.sector i.slot) then s else queueWrite e.rank (.forward i.bank i.sector i.slot) s) s

/-- Every sector being emptied. -/
def tendEmptying (s : State) : State := s.jrn.emptying.foldl tendOne s

/-- A sector begins to be emptied: no more records go into it (R117, R120, R122). -/
def startEmptying (e : Emptying) (s : State) : State :=
  let s1 := shutSector e.bank e.sector s
  let others := s.jrn.emptying.filter fun x => !(x.bank == e.bank && x.sector == e.sector)
  let retired : Bool := e.retire || s.jrn.emptying.any fun x => x.bank == e.bank && x.sector == e.sector && x.retire
  tendEmptying { s1 with jrn := { s1.jrn with emptying := others ++ [{ e with retire := retired }] } }

/-- Compaction and refresh stop between two records: what is copied stands, a sector that is to be retired stays so
(R121, R332). -/
def stopForward (s : State) : State :=
  { s with jrn := { s.jrn with
      emptying := s.jrn.emptying.filter fun e => e.retire
      queue := s.jrn.queue.filter fun j => match j.what with
        | .forward b x _ => s.jrn.emptying.any fun e => e.retire && e.bank == b && e.sector == x
        | _ => true } }

/-- HOLDUP abandons a copy that is being made, and the erases in progress: their sectors are invalid (R105, R121). -/
def abandonForward (s : State) : State :=
  let isForward (w : What) : Bool := match w with | .forward _ _ _ => true | _ => false
  let s1 := (s.jrn.progs.filter fun p => isForward p.write.what).foldl
    (fun s p => putSlot p.bank p.sector (p.slot + p.done) none s) s
  { s1 with jrn := { s1.jrn with
      progs := s1.jrn.progs.filter fun p => !isForward p.write.what
      waiting := s1.jrn.waiting.filter fun c => !isForward c.write.what
      queue := s1.jrn.queue.filter fun j => !isForward j.what
      emptying := s1.jrn.emptying.filter fun e => e.retire
      sectors := s1.jrn.sectors.map fun x => if x.st = .erasing then { x with st := .invalid } else x } }

/-- A sector that is invalid is erased before use (R105). -/
def eraseInvalid (s : State) : State :=
  (s.jrn.sectors.filter fun x => decide (x.st = .invalid)).foldl (fun s x => startErase x.bank x.idx s) s

/-! ### A slot program ends (R107, R109) -/

/-- Where the first record of a sector being emptied has gone (R123). -/
def noteFirst (p : Prog) (s : State) : State :=
  match p.write.what with
  | .forward b x _ =>
    { s with jrn := { s.jrn with
        emptying := modWhere (fun e => e.bank == b && e.sector == x && e.first.isNone)
          (fun e => { e with first := some (p.bank, p.sector) }) s.jrn.emptying } }
  | _ => s

/-- One copy of a record is whole: copy B follows copy A, or the record counts as written; a copy forward lets its sector go on
(R107, R110, R117). -/
def copyWhole (p : Prog) (s : State) : State :=
  let s1 := countSlots p.write.rank p.record.typ (recSlots p.record) (storeCopy p.bank p.sector p.slot p.record s)
  if isCopying p.write.what then tendEmptying (noteFirst p s1)
  else if isCopyB p.bank || p.record.single then tendEmptying (recordWritten p.record.single p.write p.record s1)
  else { s1 with jrn := { s1.jrn with waiting := s1.jrn.waiting ++ [⟨p.write, p.record, true, false⟩] } }

/-- A slot fails program-verify: the same bytes are written again in the same copy from a fresh sector, and a second failure between
two erases retires the sector (R109, R120). (DEDUCED: notes/assumptions/34.md) -/
def programFailed (p : Prog) (s : State) : State :=
  let s1 := modSector p.bank p.sector (fun x => { x with failures := x.failures + 1 })
    { s with jrn := { s.jrn with waiting := ⟨p.write, p.record, isCopyB p.bank, true⟩ :: s.jrn.waiting } }
  match findSector s1 p.bank p.sector with
  | some x => if x.failures = 2 then startEmptying ⟨p.bank, p.sector, true, 6, none, none⟩ s1 else s1
  | none => s1

/-- The i-th slot of a record's bytes (R98). -/
def slotOf (r : Rec) (i : Nat) : List Byte := ((recBytes r).drop (32 * i)).take 32

/-- A slot program of a bank ends, verified or not; a slot that failed holds nothing that can be read (R107, R109). -/
def endSlot (bank : Nat) (passed : Bool) (s : State) : State :=
  match s.jrn.progs.find? fun p => p.bank == bank with
  | none => s
  | some p =>
    let s1 := putSlot p.bank p.sector (p.slot + p.done) (if passed then some (slotOf p.record p.done) else none)
      { s with jrn := { s.jrn with progs := s.jrn.progs.filter fun x => x.bank != bank } }
    if !passed then programFailed p s1
    else if p.done + 1 < recSlots p.record then
      { s1 with jrn := { s1.jrn with progs := s1.jrn.progs ++ [{ p with done := p.done + 1 }] } }
    else copyWhole p s1

/-! ### Records written whole within one step -/

/-- The slots of a record programmed one after another. -/
def putSlots (bank sector slot : Nat) (r : Rec) (s : State) : State :=
  (List.range (recSlots r)).foldl (fun s i => putSlot bank sector (slot + i) (some (slotOf r i)) s) s

/-- A record is put in a copy at once, if there is a place for it; an unavailable copy takes none. -/
def storeNow (copyB : Bool) (j : JWrite) (r : Rec) (s : State) : Option State :=
  if copyOut s copyB then some s
  else
    match placeInBanks (wantedFor ⟨j, r, copyB, false⟩ s) s (bankOrder s copyB j.rank (recSlots r)) with
    | some (b, x, slot, s1) =>
      some (nextTurn b j.rank (countSlots j.rank r.typ (recSlots r) (storeCopy b x slot r (putSlots b x slot r s1))))
    | none => none

/-- A record is built and written within one step, in both copies or in the one that is available: none where it cannot be, for want of
a place or of the energy that a single copy needs (R107, R110, R118). -/
def tryWrite (rank : Nat) (w : What) (s : State) : Option State :=
  let j : JWrite := ⟨s.jrn.nextWrite, rank, w⟩
  let single := s.jrn.outA || s.jrn.outB
  match buildRecord j single { s with jrn := { s.jrn with nextWrite := s.jrn.nextWrite + 1 } } with
  | none => none
  | some (r, s1) =>
    if (s.jrn.outA && s.jrn.outB) || (single && !inFlush s rank && !energyForSingle (recSlots r) s) then none
    else (storeNow false j r s1).bind fun s2 => (storeNow true j r s2).map fun s3 => recordWritten single j r s3

/-- A record is written within the step that the manual gives it; where it cannot be, it is queued (R107, R115, R147, R395). -/
def writeNow (rank : Nat) (w : What) (s : State) : State :=
  match tryWrite rank w s with
  | some s1 => s1
  | none => if (layoutOf (formNow w s) s).isNone then s else queueWrite rank w s

/-- Several records written in order. -/
def writeAll (rank : Nat) : List What → State → State
  | [], s => s
  | w :: rest, s => writeAll rank rest (writeNow rank w s)

/-- The live records that lack a copy, queued at rank 5 in sequence order (R110). -/
def queueCatchUp (s : State) : State :=
  let lacking := (liveRecs s).filter fun r => hasCopy s false r.seq != hasCopy s true r.seq
  (sortBy (fun r => r.seq) lacking).foldl (fun s r => queueWrite 5 (.catchUp r.seq) s) s

/-! ### What a read of a sector shows (R96, R100, R341) -/

/-- Corrected groups of a read of programmed slots of a sector in use count for the sector and for the day (R96, R316). -/
def countCorrected (reads : List SlotRead) (s : State) : State :=
  reads.foldl (fun s x =>
    match findSector s x.bank x.sector with
    | some y =>
      if y.st = .inUse ∧ slotBytes s x.bank x.sector x.slot ≠ some erasedSlot then
        modSector x.bank x.sector (fun y => { y with corrected := y.corrected + x.corrected.length })
          { s with jrn := { s.jrn with correctedToday := s.jrn.correctedToday + x.corrected.length } }
      else s
    | none => s) s

/-- A copy of a record one of whose slots a read found unreadable. -/
def isUnreadable (reads : List SlotRead) (i : Inst) : Bool :=
  reads.any fun x => decide (x.found = .unreadable) && x.bank == i.bank && x.sector == i.sector && decide (i.slot ≤ x.slot) &&
    decide (x.slot < i.slot + recSlots i.record)

/-- Copies with an unreadable slot exist no more; a live record is taken from its other copy and written again where it was lost, and
with `both` forward in the other copy too, at rank 5 (R100, R341). (DEDUCED: notes/assumptions/55.md) -/
def loseUnreadable (reads : List SlotRead) (both : Bool) (s : State) : State :=
  let lost := s.jrn.insts.filter (isUnreadable reads)
  let hit := (liveRecs s).filter fun r => lost.any fun i => i.record.seq == r.seq && decide (recKey i.record = recKey r)
  let s1 := { s with jrn := { s.jrn with insts := s.jrn.insts.filter fun i => !isUnreadable reads i } }
  hit.foldl (fun s r =>
    match s.jrn.insts.find? fun i => i.record.seq == r.seq && decide (recKey i.record = recKey r) with
    | some i =>
      let s2 := queueWrite 5 (.catchUp r.seq) s
      if both then queueWrite 5 (.forward i.bank i.sector i.slot) s2 else s2
    | none => s) s1

end Sys2Proof.Machine
end

