-- ==== Sys2Proof/Machine/Tree.lean ====
section
/-!
DEFINITION. CTT: groups and their live maxima, coverage, ceilings, the choice of a group, moves, and the repair of uncorrectable
words (spec/03_counters.md; spec/05_durability_recovery.md R137-R144, R159-R161; spec/06_placement.md R166-R174, R390).
-/
namespace Sys2Proof.Machine

/-! ### Members and coverage -/

/-- The counters that live in a group: open ones (R82). -/
def members (s : State) (g : Nat) : List Leaf := s.ctr.leaves.filter fun l => !l.closed && l.group == g

/-- The highest V of a list of counters. -/
def topV (ls : List Leaf) : Nat := ls.foldl (fun m l => max m l.v.toNat) 0

/-- V + B of a BOUNDED counter, as an exact number. -/
def reach (l : Leaf) : Nat := l.v.toNat + l.bound

/-- The lowest V + B over the BOUNDED members of a group; 2^64 − 1 if there are none (R85). -/
def lowestReach (s : State) (g : Nat) : Nat :=
  ((members s g).filter fun l => decide (l.cls = .bounded)).foldl (fun m l => min m (reach l)) maxV

/-- covered(g) for a value: no BOUNDED member is left uncovered by it (R139, R167). -/
def coveredFor (s : State) (g v : Nat) : Bool :=
  (members s g).all fun l => decide (l.cls ≠ .bounded) || decide (v ≤ reach l)

/-- A BOUNDED counter is uncovered where a live maximum exceeds its V + B (R139). -/
def uncoveredAt (live : Nat) (l : Leaf) : Bool := decide (l.cls = .bounded) && decide (reach l < live)

/-- A BOUNDED counter within its bound of a live maximum: its BOUNDED-set entry ends (R138, R139). -/
def coveredAt (live : Nat) (l : Leaf) : Bool := decide (l.cls = .bounded) && decide (live ≤ reach l)

/-! ### Nodes above the leaves (R160) -/

/-- The section node and the root copies follow the group nodes. -/
def refreshNodes (g : Nat) (s : State) : State :=
  let s1 := { s with ctr := { s.ctr with sections := modNth (fun _ => sectionMax s (g / 64)) (g / 64) s.ctr.sections } }
  let root : W64 := BitVec.ofNat 64 (s1.ctr.sections.foldl (fun m v => max m v.toNat) 0)
  { s1 with ctr := { s1.ctr with roots := [root, root, root] } }

/-- A group takes a live maximum; the rise counts for its rate (R166). -/
def putLive (g live : Nat) (s : State) : State :=
  refreshNodes g (modGroup g (fun x => { x with
    liveMax := BitVec.ofNat 64 live
    windowRise := x.windowRise + (live - x.liveMax.toNat)
    roseAt := if x.liveMax.toNat < live then some s.clk.now else x.roseAt }) s)

/-- A group is dirty (R137). -/
def markDirty (g : Nat) (s : State) : State := modGroup g (fun x => { x with dirty := true }) s

/-- A group takes a live maximum with a change of a member, and is dirty (R137). -/
def setLive (g live : Nat) (s : State) : State := markDirty g (putLive g live s)

/-- A member has left a group: its live maximum follows the others, and the one it had is noted where it was the last
(R82, R181). -/
def recountLive (g : Nat) (s : State) : State :=
  let left := members s g
  setLive g (topV left) (if left.isEmpty then modGroup g (fun x => { x with lastLive := x.liveMax }) s else s)

/-! ### Ceilings (R143, R144, R174) -/

/-- A GROUP_CEILING is queued at rank 3, unless one as high is queued already (R108, R144). -/
def queueCeiling (g v : Nat) (s : State) : State :=
  let v := min v maxV
  match findGroup s g with
  | none => s
  | some x =>
    match x.ceilQueued with
    | some q =>
      if v ≤ q.toNat then s
      else queueWrite 3 (.ceiling g (BitVec.ofNat 64 v)) (modGroup g (fun x => { x with ceilQueued := some (BitVec.ofNat 64 v) }) s)
    | none =>
      queueWrite 3 (.ceiling g (BitVec.ofNat 64 v)) (modGroup g (fun x => { x with ceilQueued := some (BitVec.ofNat 64 v) }) s)

/-- The written ceiling of a group as a number; none reads as no value allowed. -/
def ceilingAllows (s : State) (g v : Nat) : Bool :=
  match findGroup s g with
  | some x =>
    match x.ceiling with
    | some c => decide (v ≤ c.toNat)
    | none => false
  | none => false

/-- Placement queues the next ceiling once the live maximum passes the written one less half a step (R144, R174). -/
def scheduleCeiling (g : Nat) (s : State) : State :=
  match findGroup s g with
  | none => s
  | some x =>
    match x.ceiling with
    | none => s
    | some c =>
      if x.ceilQueued.isNone ∧ c.toNat < maxV ∧ c.toNat < x.liveMax.toNat + x.step / 2 then
        queueCeiling g (max c.toNat x.liveMax.toNat + x.step) s
      else s

/-- A waiting operation needs a value above its group's ceiling: V needed plus the step is queued (R144, R174). -/
def queueNeededCeiling (g needed : Nat) (s : State) : State :=
  match findGroup s g with
  | none => s
  | some x =>
    if ceilingAllows s g needed then s
    else
      match x.ceilQueued with
      | some q => if needed ≤ q.toNat then s else queueCeiling g (needed + x.step) s
      | none => queueCeiling g (needed + x.step) s

/-! ### A counter's V rises (R77-R79, R86) -/

/-- BOUNDED members a new V of one of them leaves uncovered and that hold no BOUNDED-set entry (R86, R139). -/
def newlyUncovered (s : State) (l : Leaf) (v : Nat) : List Nat :=
  let live := max (topV (members s l.group)) v
  ((members s l.group).filter fun m =>
    uncoveredAt live (if m.num == l.num then { m with v := BitVec.ofNat 64 v } else m) && !s.owed.bounded.contains m.num).map
      fun m => m.num

/-- What a rise of a counter to V needs (R86, R144). (DEDUCED: notes/assumptions/33.md) -/
def riseNeed (s : State) (l : Leaf) (v : Nat) : Need where
  strict := if l.cls = .strict then slotsNeeded (.leaf l.num false) s else 0
  bounded := (newlyUncovered s l v).length
  ceiling := ceilingAllows s l.group v

/-- A counter's leaf, shadow and group node take a higher V, with the entries it owes (R86, R137, R138). -/
def raiseLeaf (l : Leaf) (v : Nat) (s : State) : State :=
  let owing := newlyUncovered s l v
  let s1 := modLeaf l.num (fun x => { x with
    v := BitVec.ofNat 64 v, windowRise := x.windowRise + (v - x.v.toNat)
    shadow := if x.cls = .strict then BitVec.ofNat 64 v else x.shadow }) s
  let live := match findGroup s l.group with
    | some x => max x.liveMax.toNat v
    | none => v
  let s2 := setLive l.group live s1
  let s3 := if l.cls = .strict then owe (.leaf l.num false) s2 else s2
  let s4 := owing.foldl (fun s n => oweBounded n s) s3
  let s5 := if coveredAt live { l with v := BitVec.ofNat 64 v } then releaseBounded l.num s4 else s4
  scheduleCeiling l.group s5

/-! ### Engine load (R73, R172) -/

/-- An operation of a counter counts against its engine and its group, class 0 apart (R73, R172). -/
def countWork (g units : Nat) (class0 : Bool) (s : State) : State :=
  let s1 := modGroup g (fun x => { x with
    windowOps := x.windowOps + units, windowOps0 := x.windowOps0 + (if class0 then units else 0) }) s
  { s1 with ctr := { s1.ctr with
      engines := modNth (fun e => { e with ops := e.ops + units, ops0 := e.ops0 + (if class0 then units else 0) })
        (engineOf s g) s1.ctr.engines } }

/-! ### Groups from and to the pool (R167, R390) -/

/-- The pool holds an empty group: the lowest number not in use (R390). -/
def emptyGroup (s : State) : Option Nat :=
  if s.ctr.groups.length < 4096 then
    (List.range (s.ctr.groups.length + 1)).find? fun g => !(s.ctr.groups.any fun x => x.num == g)
  else none

/-- The step for a rate of 0 (R174). -/
def firstStep : Nat := 2 ^ 16

/-- A group opened for a domain with a group key (R390, R181). -/
def openGroup (g domain : Nat) (key : W32) (s : State) : State :=
  let e := engineForNew s
  logDecision 0x01 g domain e key.toNat { s with ctr := { s.ctr with
    emptied := s.ctr.emptied.filter fun x => x.1 != g
    groups := insertBy (fun x => x.num)
      { num := g, domain := domain, engine := e, key := key, liveMax := 0, dirty := true, ceiling := none, ceilQueued := none
        ceilAt := 0, step := firstStep, rate := 0, windowRise := 0, windowOps := 0, windowOps0 := 0, lastOps := 0
        lastOps0 := 0, roseAt := none, openedAt := s.clk.now, moves := 0, lastLive := 0, forMove := none } s.ctr.groups } }

/-- A group without members and without a queued ceiling returns to the pool; one that is dirty still owes its floor (R137, R181, R182).
(DESIGN CHOICE: notes/assumptions/18.md) -/
def returnIfEmpty (g : Nat) (s : State) : State :=
  match findGroup s g with
  | none => s
  | some x =>
    if (members s g).isEmpty ∧ x.ceilQueued.isNone then
      refreshNodes g (logDecision 0x02 g x.domain 0 x.lastLive.toNat
        { s with ctr := { s.ctr with
            groups := s.ctr.groups.filter fun y => y.num != g
            emptied := if x.dirty then s.ctr.emptied ++ [(g, x.domain)] else s.ctr.emptied } })
    else s

/-- Emptied groups whose queued ceiling has been written return to the pool (R182); one opened for a move keeps waiting for its
counter for two windows of R166 (notes/assumptions/18.md). -/
def returnEmptied (s : State) : State :=
  (s.ctr.groups.filter fun g => g.forMove.isNone || decide (g.openedAt + 2 ^ 25 ≤ s.clk.now)).foldl
    (fun s g => returnIfEmpty g.num s) s

/-- Where a new counter goes (R167). -/
inductive Choice where
  | existing (g : Nat)
  | fresh (g : Nat) (key : W32)
  | full
deriving DecidableEq, Repr

/-- choose_group of R167, for a class, V0, B and affinity key. -/
def chooseGroup (s : State) (domain : Nat) (cls : Cls) (v0 bound : Nat) (key : W32) : Choice :=
  let able := s.ctr.groups.filter fun g =>
    g.domain == domain && decide ((members s g.num).length < 64) && coveredFor s g.num v0 &&
      (decide (cls ≠ .bounded) || decide (g.liveMax.toNat ≤ v0 + bound))
  let keyed := able.filter fun g => decide (g.key = key)
  let unkeyed := able.filter fun g => decide (g.key = 0) && decide (v0 ≤ g.liveMax.toNat)
  match (if key = 0 then none else maxBy (fun g => (members s g.num).length) keyed), emptyGroup s with
  | some g, _ => .existing g.num
  | none, pool =>
    match (if key = 0 then none else pool) with
    | some g => .fresh g key
    | none =>
      match minBy (fun g => g.liveMax.toNat) unkeyed, pool with
      | some g, _ => .existing g.num
      | none, some g => .fresh g 0
      | none, none =>
        match minBy (fun g => g.liveMax.toNat) able with
        | some g => .existing g.num
        | none => .full

/-! ### Moves (R169-R171) -/

/-- A group a counter may move into: same domain, another group, a free leaf, its ceiling at or above V, covered for V
(R139, R143, R169, R170). -/
def moveTargets (s : State) (l : Leaf) : List Group :=
  s.ctr.groups.filter fun g =>
    g.domain == l.domain && g.num != l.group && decide ((members s g.num).length < 64) && ceilingAllows s g.num l.v.toNat &&
      coveredFor s g.num l.v.toNat

/-- The target of a BOUNDED move: live maximum at or below V + B, closest to V, then the lowest number (R170). -/
def boundedTarget (s : State) (l : Leaf) : Option Group :=
  minBy (fun g => distance g.liveMax.toNat l.v.toNat) ((moveTargets s l).filter fun g => decide (g.liveMax.toNat ≤ reach l))

/-- A move, in one step: leaf, shadow and indirection entry, both groups dirty, the leaf's exact entry owed, the BOUNDED-set entry
released where the target covers it; the engine that owned the counter runs the step, which counts as 8 operations
(R73, R171, R181). -/
def moveLeaf (l : Leaf) (target code : Nat) (defn : Bool) (s : State) : State :=
  let s0 := countWork l.group 8 false s
  let s1 := modLeaf l.num (fun x => { x with group := target, movedAt := some s.clk.now, slowWindows := 0 }) s0
  let live := match findGroup s1 target with
    | some x => max x.liveMax.toNat l.v.toNat
    | none => l.v.toNat
  let s2 := setLive target live (recountLive l.group s1)
  let s3 := modGroup target (fun x => { x with moves := x.moves + 1, forMove := none }) (modGroup l.group (fun x => { x with moves := x.moves + 1 }) s2)
  let s4 := owe (.leaf l.num defn) s3
  let s5 := if coveredAt live l then releaseBounded l.num s4 else s4
  let s6 := scheduleCeiling target s5
  let s7 := { s6 with plc := { s6.plc with movesToday := s6.plc.movesToday + 1 } }
  returnIfEmpty l.group (logDecision code (handleOf l.num l.inc).toNat l.group target l.v.toNat s7)

/-- An operation on a counter, by its number: a counter operation with a handle, or FAULT_REPORT (R198). -/
def isOnCounter (n : Nat) (op : Op) : Bool :=
  ((decide (0x11 ≤ op.opcode) && decide (op.opcode ≤ 0x17)) || op.opcode == 0x25) && handleNumber op.obj == n

/-- No operation on the counter is in flight (R11, R171). -/
def counterQuiet (s : State) (n : Nat) : Bool := !(s.hif.ops.any (isOnCounter n))

/-- No operation on a member of the group is in flight, so that the group may go to another engine (R11). -/
def groupQuiet (s : State) (g : Nat) : Bool := (members s g).all fun l => counterQuiet s l.num

/-! ### Repairs (R160, R161) -/

/-- L of a counter: the V of its current record, or V0 (R92). -/
def provenV (s : State) (l : Leaf) : Nat :=
  match currentRec s (5, l.num) with
  | some r => if r.obj = handleOf l.num l.inc then fieldAt r.payload 0 8 else l.v0.toNat
  | none => l.v0.toNat

/-- The skip F − L is recorded: last skip, total skipped, SKIPPED pending (R92). -/
def recordSkip (l : Leaf) (proven : Nat) : Leaf :=
  let skip := l.v.toNat - proven
  if skip = 0 then l
  else { l with lastSkip := BitVec.ofNat 64 skip, skipPending := true
                totalSkip := BitVec.ofNat 64 (min maxV (l.totalSkip.toNat + skip)) }

/-- A repaired leaf whose skip waits for its definition form gets its slots at the first moment they fit; until then a STRICT leaf's entry
stands at one slot, once that fits; the repaired value itself stands at once (R24, R86, R160).
(DESIGN CHOICE: notes/assumptions/83.md) -/
def admitRepair (n : Nat) (s : State) : State :=
  match findLeaf s n with
  | none => s
  | some l =>
    if l.defOwed && admits [] ⟨slotsNeeded (.leaf n true) s, 0, true⟩ s then
      queueWrite 4 (.leaf n true) (owe (.leaf n true) (modLeaf n (fun x => { x with defOwed := false }) s))
    else if l.defOwed && decide (l.cls = .strict) && admits [] ⟨slotsNeeded (.leaf n false) s, 0, true⟩ s then
      owe (.leaf n false) s
    else s

/-- The same for every repaired leaf, ahead of every operation in an energy wait (R86). -/
def admitRepairs (s : State) : State :=
  (s.ctr.leaves.filter fun l => l.defOwed).foldl (fun s l => admitRepair l.num s) s

/-- A leaf takes a live maximum from above it: its skip is recorded, res_b [4] set, inexact for a STRICT leaf, and the rise counts for
its rate (R160, R166). -/
def repairFrom (n source : Nat) (s : State) : State :=
  match findLeaf s n with
  | none => s
  | some l =>
    let fixed := recordSkip { l with v := BitVec.ofNat 64 source, shadow := BitVec.ofNat 64 source, repaired := true
                                     inexact := l.inexact || decide (l.cls = .strict), defOwed := true
                                     windowRise := l.windowRise + (source - l.v.toNat) } (provenV s l)
    let s1 := markDirty l.group (modLeaf n (fun _ => fixed) s)
    let s2 := if coveredAt source fixed then releaseBounded n s1 else s1
    admitRepair n s2

/-- The details of MEM_REPAIR (R161). -/
def memRepair (object level action leaves value : Nat) (s : State) : State :=
  postEvent .memRepair object
    (leBytes 1 level ++ leBytes 1 action ++ leBytes 2 leaves ++ leBytes 4 0 ++ leBytes 8 value) s

/-- A word is among the uncorrectable ones. -/
def isBad (bad : List BadWord) (w : BadWord) : Bool := bad.any fun x => decide (x = w)

/-- A bad leaf: a STRICT one with a good shadow takes its shadow, any other the live maximum given (R160). -/
def repairLeaf (bad : List BadWord) (source : Nat) (l : Leaf) (s : State) : State :=
  if l.cls = .strict ∧ isBad bad (.shadow l.num) = false then s else repairFrom l.num source s

/-- The leaves of a group that are bad. -/
def badLeaves (bad : List BadWord) (s : State) (g : Nat) : List Leaf :=
  (members s g).filter fun l => isBad bad (.leaf l.num)

/-- After a repair: the group node recomputed, members that it leaves uncovered entered at once, the next ceiling scheduled; the group
is dirty only where a leaf changed (R137, R139, R144, R160). (DESIGN CHOICE: notes/assumptions/83.md) -/
def settleGroup (g : Nat) (s : State) : State :=
  let live := topV (members s g)
  let s1 := putLive g live s
  let s2 := ((members s1 g).filter fun l => uncoveredAt live l).foldl (fun s l => oweBounded l.num s) s1
  scheduleCeiling g s2

/-- A bad section node, with its bad group nodes and leaves (R160, level 3). -/
def repairSection (bad : List BadWord) (k : Nat) (s : State) : State :=
  let groups := s.ctr.groups.filter fun g => g.num / 64 == k && isBad bad (.group g.num)
  let leaves := groups.flatMap fun g => badLeaves bad s g.num
  let root := match s.ctr.roots with
    | r :: _ => r.toNat
    | [] => 0
  let s1 := leaves.foldl (fun s l => repairLeaf bad root l s) s
  let s2 := groups.foldl (fun s g => settleGroup g.num s) s1
  memRepair k 3 (if groups.isEmpty then 3 else 5) leaves.length (sectionMax s2 k).toNat s2

/-- A bad group node in a good section, with its bad leaves (R160, level 2). -/
def repairGroup (bad : List BadWord) (g : Nat) (s : State) : State :=
  let leaves := badLeaves bad s g
  let source := (nthOr 0 (g / 64) s.ctr.sections).toNat
  let s1 := settleGroup g (leaves.foldl (fun s l => repairLeaf bad source l s) s)
  memRepair g 2 (if leaves.isEmpty then 3 else 2) leaves.length (topV (members s1 g)) s1

/-- A bad leaf of a good group (R160, level 0). -/
def repairOneLeaf (bad : List BadWord) (l : Leaf) (s : State) : State :=
  let live := match findGroup s l.group with
    | some g => g.liveMax.toNat
    | none => l.v.toNat
  let handle := (handleOf l.num l.inc).toNat
  if l.cls = .strict ∧ isBad bad (.shadow l.num) = false then memRepair handle 0 0 1 l.v.toNat s
  else memRepair handle 0 1 1 live (settleGroup l.group (repairFrom l.num live s))

/-- A bad shadow of a good leaf is rewritten from the leaf (R160, level 1). -/
def repairShadow (l : Leaf) (s : State) : State := memRepair (handleOf l.num l.inc).toNat 1 3 0 l.v.toNat s

/-- One copy of a counter's indirection entry rewritten from the other: the value set is the entry's group (R160, R161).
(DESIGN CHOICE: notes/assumptions/84.md) -/
def repairEntry (s : State) (w : BadWord) : State :=
  match w with
  | .indirection n 1 =>
    memRepair 0 5 4 0 (match findLeaf s n with | some l => l.group | none => 0) s
  | _ => s

/-- The copies of the root or of indirection entries found bad: rewritten from the others, while some are good (R160). -/
def repairCopies (bad : List BadWord) (s : State) : State :=
  let root := match s.ctr.roots with
    | r :: _ => r.toNat
    | [] => 0
  bad.foldl repairEntry (if isBad bad (.root 1) || isBad bad (.root 2) then memRepair 0 4 4 0 root s else s)

/-- The counter tree cannot be repaired: all root copies, or both copies of an indirection entry (R160, R336). -/
def treeLost (bad : List BadWord) : Bool :=
  bad.any fun w => match w with
    | .root n => decide (3 ≤ n)
    | .indirection _ n => decide (2 ≤ n)
    | _ => false

/-- Uncorrectable words are repaired before any operation uses them; what cannot be repaired is left to SAFE (R160). -/
def repairTree (bad : List BadWord) (s : State) : State :=
  let sections := (List.range 64).filter fun k => isBad bad (.sect k)
  let groups := (s.ctr.groups.filter fun g => isBad bad (.group g.num) && !isBad bad (.sect (g.num / 64))).map fun g => g.num
  let loners := s.ctr.leaves.filter fun l => !l.closed && isBad bad (.leaf l.num) && !isBad bad (.group l.group)
  let shadows := s.ctr.leaves.filter fun l =>
    !l.closed && decide (l.cls = .strict) && isBad bad (.shadow l.num) && !isBad bad (.leaf l.num)
  let s1 := sections.foldl (fun s k => repairSection bad k s) s
  let s2 := groups.foldl (fun s g => repairGroup bad g s) s1
  let s3 := loners.foldl (fun s l => repairOneLeaf bad l s) s2
  repairCopies bad (shadows.foldl (fun s l => repairShadow l s) s3)

end Sys2Proof.Machine
end

