-- ==== Sys2Proof/Machine/Safe.lean ====
section
/-!
DEFINITION. The end of a maintenance activity and entering SAFE (spec/12_health_selftest.md R331, R335-R337;
spec/06_placement.md R173).
-/
namespace Sys2Proof.Machine

/-! ### The end of an activity (R335) -/

/-- MAINT_DONE is posted, and the ticket is kept among the last 64 ended ones (R334, R335). -/
def postDone (m : Maint) (started result value : Nat) (s : State) : State :=
  postEvent .maintDone (m.kind + 2 ^ 8 * m.block + 2 ^ 16 * m.mode)
    (leBytes 4 m.ticket ++ leBytes 1 result ++ leBytes 1 (bit (m.ticket != 0)) ++ leBytes 2 0 ++
      leBytes 4 ((s.clk.now - started) / 1024) ++ leBytes 4 value)
    { s with mnt := { s.mnt with
        ended := if m.ticket = 0 then s.mnt.ended else ((m.ticket, result, s.clk.now) :: s.mnt.ended).take 64 } }

/-- The running activity has ended with MAINT_DONE, and none runs (R332, R335). -/
def maintDone (m : Maint) (started result value : Nat) (s : State) : State :=
  postDone m started result value { s with mnt := { s.mnt with running := none } }

/-- A drained block as the decision log names it (R179, R181). -/
def drainCode (block : Nat) : Nat :=
  if block < 4 then 0x10 + block
  else if block = 0x10 then 1
  else if block = 0x11 then 2
  else if block = 0x20 then 3
  else if block = 0x21 then 4
  else 5

/-- A source changed. -/
def modSource (n : Nat) (f : Source → Source) (s : State) : State :=
  { s with nsu := { s.nsu with sources := modWhere (fun x => x.code == n) f s.nsu.sources } }

/-- A source by its code. -/
def findSource (s : State) (n : Nat) : Option Source := s.nsu.sources.find? fun x => x.code == n

/-- A drained block is re-initialised and returned to service; a copy is caught up (R110, R173, R331). `early` is the from field of
decision 0x09. -/
def returnBlock (block early : Nat) (s : State) : State :=
  let s1 :=
    if block < 4 then
      { s with ctr := { s.ctr with engines := modNth (fun e => { e with drained := false }) block s.ctr.engines } }
    else if block = 0x20 then queueCatchUp { s with jrn := { s.jrn with outA := copyRetired s false } }
    else if block = 0x21 then queueCatchUp { s with jrn := { s.jrn with outB := copyRetired s true } }
    else if 0x30 ≤ block ∧ block ≤ 0x39 then
      modSource (block - 0x30) (fun x =>
        if x.st = .drained then { x with st := .starting, second := false, passed := false }
        else if x.st = .active then { x with switchDue := none }
        else x) s
    else s
  logDecision 0x09 (drainCode block) early 0 0 s1

/-- What the running activity holds is given back: a drained block, or the hold-up bank (R121, R142, R173). -/
def releaseActivity (r : Running) (early : Nat) (s : State) : State :=
  if r.catching then s
  else if r.req.kind = 1 then returnBlock r.req.block early s
  else if r.req.kind = 4 then recomputeCaps { s with pmu := { s.pmu with vTopCap := none, drawing := false } }
  else s

/-- The activity value of an activity that is abandoned: the sectors done so far, or C_meas as it stands (R335).
(DEDUCED: notes/assumptions/51.md) -/
def doneValue (r : Running) (s : State) : Nat := if r.req.kind = 1 then 0 else if r.req.kind = 4 then s.pmu.cMeas else r.value

/-- The running activity is abandoned with a result (R121, R335). -/
def endActivity (result early : Nat) (s : State) : State :=
  match s.mnt.running with
  | none => s
  | some r => maintDone r.req r.started result (doneValue r s) (releaseActivity r early s)

/-- The catch-up of a tested copy has ended: MAINT_DONE follows (R110, R331). -/
def endCatchUp (s : State) : State :=
  match s.mnt.running with
  | some r =>
    let isCatchUp (w : What) : Bool := match w with | .catchUp _ => true | _ => false
    let open_ := (s.jrn.queue.any fun j => isCatchUp j.what) || (s.jrn.waiting.any fun c => isCatchUp c.write.what) ||
      s.jrn.progs.any fun p => isCatchUp p.write.what
    if r.catching && !open_ then maintDone r.req r.started 0 0 s else s
  | none => s

/-! ### SAFE (R336, R337) -/

/-- Every waiting operation that satisfies `p` completes with a status and no effect (R55, R337). -/
def refuseWaits (p : Op → Bool) (st : Status) (s : State) : State :=
  (s.hif.ops.filter fun op => isWaiting s op && p op).foldl (fun s op => refuse op st s) s

/-- A host operation on a tag or a slate that has been dispatched and waits for its port's line, or has it (R261). -/
def isTagWork (op : Op) : Bool :=
  (op.opcode == 0x30 || op.opcode == 0x31 || op.opcode == 0x32) &&
    match op.st with
    | .queued | .serving => true
    | _ => false

/-- A cause of SAFE is set until reset, and READY_CHANGE shows it (R306, R336). -/
def setSafe (cause : Nat) (s : State) : State :=
  let t := { s with regs := { s.regs with safeCause := s.regs.safeCause ||| BitVec.ofNat 32 (2 ^ cause) } }
  postEvent .readyChange (readyWord t).toNat (leBytes 4 (readyWord s).toNat ++ leBytes 4 t.regs.safeCause.toNat) t

/-- SAFE with a new cause: waits and host tag operations end with SAFE_STATE, maintenance is abandoned, its copies and its erase with
it (R121, R202, R261, R285, R336, R337). (DEDUCED: notes/assumptions/39.md) (DEDUCED: notes/assumptions/45.md) -/
def enterSafe (cause : Nat) (s : State) : State :=
  if s.regs.safeCause.getLsbD cause then s
  else
    let s1 := setSafe cause s
    let moving := match s1.mnt.running with
      | some r => r.req.kind == 2 || r.req.kind == 3
      | none => false
    let s2 := endActivity 6 0 (if moving then tendEmptying (abandonForward s1) else s1)
    let s3 := refuseWaits (fun _ => true) .safeState { s2 with mnt := { s2.mnt with queue := [] } }
    (s3.hif.ops.filter isTagWork).foldl (fun s op => refuse op .safeState s) s3

/-- Uncorrectable words: repaired, or SAFE with the tree named (R160). -/
def repairOrSafe (bad : List BadWord) (s : State) : State :=
  let s1 := repairTree bad s
  if treeLost bad then enterSafe 1 s1 else s1

end Sys2Proof.Machine
end

