-- ==== Sys2Proof/Machine/Counters.lean ====
section
/-!
DEFINITION. The counter operations at their point of effect: their checks in the order of R72, what they need and what they do
(spec/03_counters.md R63-R93; spec/07_key_identifiers.md R198-R201 for FAULT_REPORT).
-/
namespace Sys2Proof.Machine

/-- What an operation does once it is admitted: its need, the group whose ceiling it needs and the V it needs there, and its
effect with its completion. -/
structure Plan where
  need : Need
  group : Nat
  needed : Nat
  run : State → State

/-- A plan that needs nothing. -/
def freePlan (run : State → State) : Plan := ⟨noNeed, 0, 0, run⟩

/-! ### Checks (R71, R72) -/

/-- Rows 1 and 2 of every status table: SAFE, and the readiness rule or R324 (R60, R324, R389). -/
def gate (op : Op) (ready : Bool) (s : State) : Option Status :=
  if inSafe s && !servedInSafe op then some .safeState
  else if !ready || (s.pmu.shutdown && !servedAfterShutdown op.opcode) then some .notReady
  else none

/-- A counter by its handle: open or closed, of the handle's incarnation (R65). -/
def byHandle (s : State) (h : W32) : Option Leaf :=
  match findLeaf s (handleNumber h) with
  | some l => if handleInc h ≠ 0 ∧ l.inc = handleInc h then some l else none
  | none => none

/-- The operation may not act on an object of this domain (R37). -/
def foreign (op : Op) (domain : Nat) : Bool :=
  op.domain != domain && !(decide (op.qp = 0) && [0x11, 0x17, 0x24, 0x33].contains op.opcode)

/-- Open counters of a class, in a domain or in all. -/
def openCount (s : State) (p : Leaf → Bool) : Nat := (s.ctr.leaves.filter fun l => !l.closed && p l).length

/-- A new or reclassed counter would pass a device total or a quota of the domain (R38, R68, R69). `fresh` counts it among all
classes too. -/
def classFull (s : State) (domain : Nat) (cls : Cls) (fresh : Bool) : Bool :=
  let quota (f : Domain → Nat) (n : Nat) : Bool :=
    match findDomain s domain with
    | some d => decide (domain ≠ 0) && decide (f d ≤ n)
    | none => false
  let mine (p : Leaf → Bool) := openCount s fun l => l.domain == domain && p l
  (fresh && (decide (262144 ≤ openCount s fun _ => true) || quota (fun d => d.counters) (mine fun _ => true))) ||
    (decide (cls = .strict) && (decide (16384 ≤ openCount s fun l => decide (l.cls = .strict)) ||
      quota (fun d => d.strict) (mine fun l => decide (l.cls = .strict)))) ||
    (decide (cls = .bounded) && (decide (65536 ≤ openCount s fun l => decide (l.cls = .bounded)) ||
      quota (fun d => d.bounded) (mine fun l => decide (l.cls = .bounded))))

/-- The operation counts as a counter operation and against its engine (R73, R316). -/
def chargeWork (op : Op) (g units : Nat) (s : State) : State :=
  let s1 := countWork g units (decide (op.cls = 0)) s
  { s1 with hmu := { s1.hmu with ctrOps := s1.hmu.ctrOps + 1 } }

/-- An operation on a handle completes OK: the first completion after a skip carries SKIPPED, and writing it clears the pending
flag (R93). -/
def completeOn (op : Op) (n : Nat) (resA resB : W64) (s : State) : State :=
  match findLeaf s n with
  | some l =>
    let s1 := if l.skipPending && !op.silent then modLeaf n (fun x => { x with skipPending := false }) s else s
    complete op .ok resA resB l.skipPending s1
  | none => complete op .ok resA resB false s

/-- The counter an operation may act on: open, of its domain (rows 4 and 5 of R72). -/
def openTarget (op : Op) (s : State) : Except Status Leaf :=
  match byHandle s op.obj with
  | none => .error .noObject
  | some l => if l.closed then .error .noObject else if foreign op l.domain then .error .wrongDomain else .ok l

/-! ### Numbers (R66, R67) -/

/-- The incarnation after I at a free number's next use: I + 1 + U (R66, R67). -/
def nextInc (s : State) (inc : Nat) : Nat := inc + 1 + s.ctr.u

/-- A number retired (R66, R181). -/
def retireNumber (n : Nat) (s : State) : State :=
  logDecision 0x0E n 0 0 0 { s with ctr := { s.ctr with
    retired := s.ctr.retired ++ [n], closedOrder := s.ctr.closedOrder.filter fun m => m != n } }

/-- The incarnation a free number takes at its next use (R66, R67). -/
def incOfNext (s : State) (n : Nat) : Nat :=
  match findLeaf s n with
  | some l => nextInc s l.inc
  | none => nextInc s 0

/-- The lowest number from `n` on that no counter of the table has; the table is in ascending order. -/
def unusedFrom (s : State) (n : Nat) : Nat := s.ctr.leaves.foldl (fun n l => if l.num = n then n + 1 else n) n

/-- The numbers never used (R66). -/
def unusedNumbers (s : State) : List Nat :=
  ((List.range (262144 - s.ctr.nextNumber)).map fun i => s.ctr.nextNumber + i).filter fun n =>
    !(s.ctr.leaves.any fun l => l.num == n) && !s.ctr.retired.contains n

/-- Free numbers whose next incarnation would pass 16,383 are retired: U has risen at this start (R67). -/
def retireSpent (s : State) : State :=
  let s1 := if 16383 < nextInc s 0 then (unusedNumbers s).foldl (fun s n => retireNumber n s) s else s
  (s1.ctr.closedOrder.filter fun n => decide (16383 < incOfNext s1 n)).foldl (fun s n => retireNumber n s) s1

/-- The number and the incarnation of a new counter: the lowest number never used, else the one closed longest ago (R66, R67). -/
def takeNumber (s : State) : Option (Nat × Nat × State) :=
  if s.ctr.nextNumber < 262144 ∧ nextInc s 0 ≤ 16383 then
    some (s.ctr.nextNumber, nextInc s 0, { s with ctr := { s.ctr with nextNumber := unusedFrom s (s.ctr.nextNumber + 1) } })
  else match s.ctr.closedOrder.find? fun n => decide (incOfNext s n ≤ 16383) with
    | some n => some (n, incOfNext s n, { s with ctr := { s.ctr with
        closedOrder := s.ctr.closedOrder.filter fun m => m != n } })
    | none => none

/-! ### CTR_CREATE (R74-R76, R167, R168) -/

/-- The class a two-bit code names (R68, R74). -/
def clsOf (code : Nat) : Option Cls :=
  if code = 0 then some .loose else if code = 1 then some .bounded else if code = 2 then some .strict else none

/-- B is in range for the class (R74, R75). -/
def boundOk (cls : Cls) (b : Nat) : Bool :=
  if cls = .bounded then decide (1 ≤ b) && decide (b ≤ 2 ^ 48) else decide (b = 0)

/-- The new counter stands in its group and owes its definition form (R75, R86, R168). -/
def placeCounter (op : Op) (cls : Cls) (n inc g : Nat) (s : State) : State :=
  let l : Leaf := {
    num := n, inc := inc, v := op.a, shadow := op.a, cls := cls, bound := op.b.toNat, v0 := op.a, domain := op.domain
    group := g, closed := false, inexact := false, repaired := false, lastSkip := 0, totalSkip := 0, skipPending := false
    defOwed := false
    rate := match findGroup s g with
      | some x => x.rate
      | none => 0
    windowRise := 0, slowWindows := 0, movedAt := none }
  let s1 := { s with ctr := { s.ctr with leaves := insertBy (fun x => x.num) l (s.ctr.leaves.filter fun x => x.num != n) } }
  let live := match findGroup s1 g with
    | some x => max x.liveMax.toNat op.a.toNat
    | none => op.a.toNat
  let s2 := queueWrite 4 (.leaf n true) (owe (.leaf n true) (setLive g live s1))
  let s3 := logDecision 0x03 (handleOf n inc).toNat 0 g op.a.toNat (scheduleCeiling g s2)
  complete op .ok (BitVec.zeroExtend 64 (handleOf n inc)) (BitVec.ofNat 64 (g + 4096 * engineOf s3 g)) false
    (chargeWork op g 8 s3)

/-- CTR_CREATE at its point of effect (R72 rows 7 to 9, R167, R168). -/
def createPlan (op : Op) (s : State) : Except Status Plan :=
  match clsOf (opBits op.c 0 2) with
  | none => .error .badField
  | some cls =>
    if classFull s op.domain cls true then .error .limitReached
    else
      let key : W32 := BitVec.ofNat 32 (opBits op.c 32 32)
      match takeNumber s, chooseGroup s op.domain cls op.a.toNat op.b.toNat key with
      | none, _ => .error .limitReached
      | some _, .full => .error .limitReached
      | some _, .existing g =>
        .ok ⟨⟨2, 0, ceilingAllows s g op.a.toNat⟩, g, op.a.toNat, fun s =>
          match takeNumber s with
          | some (n, inc, s1) => placeCounter op cls n inc g s1
          | none => s⟩
      | some _, .fresh g k =>
        .ok ⟨⟨2, 0, true⟩, g, op.a.toNat, fun s =>
          match takeNumber s with
          | some (n, inc, s1) =>
            placeCounter op cls n inc g (queueCeiling g (op.a.toNat + firstStep) (openGroup g op.domain k s1))
          | none => s⟩

/-! ### CTR_RESERVE, CTR_ADVANCE, CTR_RAISE, FAULT_REPORT (R77-R79, R198) -/

/-- A rise of an open counter to V with its results (R77-R79). -/
def risePlan (op : Op) (l : Leaf) (v units : Nat) (after : State → State × W64 × W64) (s : State) : Plan where
  need := riseNeed s l v
  group := l.group
  needed := v
  run := fun s =>
    let (s1, resA, resB) := after (chargeWork op l.group units (raiseLeaf l v s))
    completeOn op l.num resA resB s1

/-- CTR_RESERVE at its point of effect (R77). -/
def reservePlan (op : Op) (s : State) : Except Status Plan := do
  let l ← openTarget op s
  let v := l.v.toNat + op.a.toNat
  if maxV < v then .error .rangeEnd
  else .ok (risePlan op l v 1 (fun s => (s, l.v + 1, BitVec.ofNat 64 v)) s)

/-- CTR_ADVANCE at its point of effect (R78). -/
def advancePlan (op : Op) (s : State) : Except Status Plan := do
  let l ← openTarget op s
  let v := l.v.toNat + op.a.toNat
  if maxV < v then .error .rangeEnd
  else .ok (risePlan op l v 1 (fun s => (s, BitVec.ofNat 64 v, l.v)) s)

/-- CTR_RAISE at its point of effect (R79). -/
def raisePlan (op : Op) (s : State) : Except Status Plan := do
  let l ← openTarget op s
  if op.a.toNat ≤ l.v.toNat then .ok (freePlan fun s => completeOn op l.num l.v 0 (chargeWork op l.group 1 s))
  else .ok (risePlan op l op.a.toNat 1 (fun s => (s, op.a, 1)) s)

/-! ### Fault-storm windows (R199-R201) -/

/-- A window still takes reports: 2^20 CLK have not passed since its opening (R199). -/
def windowTakes (s : State) (w : Window) : Bool := decide (s.clk.now < w.opened + 2 ^ 20)

/-- The open window of a key (R199). -/
def findWindow (s : State) (domain : Nat) (peer : W32) (cause : Nat) : Option Window :=
  s.kit.windows.find? fun w =>
    !w.overflow && w.domain == domain && decide (w.peer = peer) && w.cause == cause && windowTakes s w

/-- A report counted in a window (R199, R200). -/
def countIn (w : Window) (n : Nat) (assoc : W32) : Window :=
  { w with reports := w.reports + 1, sum := w.sum + n, last := assoc }

/-- A report is counted in the window of its key, in a new one, or in the overflow window (R199, R201): what res_b says, and the
state. -/
def countReport (domain : Nat) (peer : W32) (cause n : Nat) (assoc : W32) (s : State) : State × W64 :=
  let put (ws : List Window) : State := { s with kit := { s.kit with windows := ws } }
  let fresh (spill : Bool) : Window := ⟨domain, peer, cause, s.clk.now, 1, n, assoc, assoc, spill⟩
  match findWindow s domain peer cause with
  | some w => (put (modWhere (fun x => decide (x = w)) (fun x => countIn x n assoc) s.kit.windows), 0)
  | none =>
    if (s.kit.windows.filter fun w => !w.overflow && windowTakes s w).length < 1024 then (put (s.kit.windows ++ [fresh false]), 1)
    else if s.kit.windows.any (fun w => w.overflow && windowTakes s w) then
      (put (modWhere (fun w => w.overflow && windowTakes s w) (fun w => countIn w n assoc) s.kit.windows), 2)
    else (put (s.kit.windows ++ [fresh true]), 3)

/-- A window closes and its FAULT_STORM is posted (R199-R201). -/
def closeWindow (w : Window) (s : State) : State :=
  postEvent .faultStorm (if w.overflow then 0xFFFFFFFF else w.peer.toNat)
    (leBytes 1 (if w.overflow then 0xFF else w.cause) ++ leBytes 1 (if w.overflow then 0xFF else w.domain) ++
      leBytes 2 (saturate w.reports 65535) ++ leBytes 4 (saturate w.sum (2 ^ 32 - 1)) ++ leBytes 4 w.first.toNat ++
      leBytes 4 w.last.toNat)
    { s with kit := { s.kit with windows := s.kit.windows.filter fun x => decide (x ≠ w) } }

/-- Windows close in the order they opened (R202). -/
def closeWindows (ws : List Window) (s : State) : State := ws.foldl (fun s w => closeWindow w s) s

/-- FAULT_REPORT at its point of effect (R198). -/
def faultReportPlan (op : Op) (s : State) : Except Status Plan := do
  let l ← openTarget op s
  if l.cls ≠ .loose then .error .classRule
  else
    let n := opBits op.a 0 32
    let v := min (l.v.toNat + n) maxV
    .ok (risePlan op l v 2 (fun s =>
      let (s1, how) := countReport op.domain (BitVec.ofNat 32 (opBits op.b 0 32)) (opBits op.a 32 8) n op.obj s
      (s1, BitVec.ofNat 64 v, how + (if maxV < l.v.toNat + n then 4 else 0))) s)

/-! ### CTR_READ, CTR_GROUP_READ (R80, R82, R85) -/

/-- CTR_READ res_b (R80). -/
def readResB (l : Leaf) : W64 :=
  BitVec.ofNat 64 (clsCode l.cls + 4 * bit l.closed + 8 * bit l.inexact + 16 * bit l.repaired +
    256 * saturate l.lastSkip.toNat (2 ^ 56 - 1))

/-- The 32 bytes of the CTR_READ buffer (R80). -/
def readBuffer (l : Leaf) : List Byte :=
  leBytes 8 l.v.toNat ++ leBytes 8 l.lastSkip.toNat ++ leBytes 8 l.totalSkip.toNat ++
    leBytes 8 (if l.cls = .bounded then l.bound else 0)

/-- CTR_READ at its point of effect: a closed counter answers it too (R80, R82). -/
def readPlan (op : Op) (s : State) : Except Status Plan :=
  match byHandle s op.obj with
  | none => .error .noObject
  | some l =>
    if foreign op l.domain then .error .wrongDomain
    else .ok (freePlan fun s =>
      let s1 := if op.c = 0 then s else writeHost op.c.toNat (readBuffer l) s
      completeOn op l.num l.v (readResB l) (chargeWork op l.group 1 s1))

/-- The value of a group's current floor or ceiling record; 0 with none. -/
def recordValue (s : State) (typ g : Nat) : Nat :=
  match currentRec s (typ, g) with
  | some r => fieldAt r.payload 0 8
  | none => 0

/-- The 64 bytes of the CTR_GROUP_READ buffer (R85). -/
def groupBuffer (s : State) (g : Group) : List Byte :=
  let ms := members s g.num
  let count (c : Cls) := (ms.filter fun l => decide (l.cls = c)).length
  let owedOf := (s.owed.strict.filter fun e => ms.any fun l => sameSubject e.what (.leaf l.num false)).length +
    (s.owed.bounded.filter fun n => ms.any fun l => l.num == n).length
  leBytes 2 g.num ++ leBytes 1 g.engine ++ leBytes 1 g.domain ++ leBytes 1 (bit g.dirty + 2 * bit g.ceilQueued.isSome) ++
    leBytes 1 (count .strict) ++ leBytes 1 (count .bounded) ++ leBytes 1 (count .loose) ++ leBytes 2 owedOf ++ leBytes 6 0 ++
    leBytes 8 g.liveMax.toNat ++ leBytes 8 (recordValue s 3 g.num) ++
    leBytes 8 (match g.ceiling with | some c => c.toNat | none => 0) ++ leBytes 8 g.step ++ leBytes 8 (lowestReach s g.num) ++
    leBytes 8 g.ceilAt

/-- CTR_GROUP_READ at its point of effect (R85). -/
def groupReadPlan (op : Op) (s : State) : Except Status Plan := do
  let l ← openTarget op s
  match findGroup s l.group with
  | none => .error .noObject
  | some g => .ok (freePlan fun s =>
      completeOn op l.num g.liveMax (BitVec.ofNat 64 (g.num + 4096 * g.engine))
        (chargeWork op g.num 2 (writeHost op.c.toNat (groupBuffer s g) s)))

/-! ### CTR_CLOSE, CTR_RECLASS (R81-R84) -/

/-- The counter is frozen, leaves its group, and its number waits for reuse or is retired (R66, R67, R81, R82). -/
def closeLeaf (l : Leaf) (s : State) : State :=
  let s1 := recountLive l.group (modLeaf l.num (fun x => { x with closed := true }) s)
  let s2 := if nextInc s1 l.inc ≤ 16383 then { s1 with ctr := { s1.ctr with closedOrder := s1.ctr.closedOrder ++ [l.num] } }
    else retireNumber l.num s1
  returnIfEmpty l.group (queueWrite 4 (.leaf l.num true) (owe (.leaf l.num true) s2))

/-- CTR_CLOSE at its point of effect (R81). -/
def closePlan (op : Op) (s : State) : Except Status Plan := do
  let l ← openTarget op s
  .ok ⟨⟨slotsNeeded (.leaf l.num true) s, 0, true⟩, l.group, 0, fun s =>
    completeOn op l.num l.v 0 (closeLeaf l (chargeWork op l.group 8 s))⟩

/-- The outcome of a reclass by class and bound (R83): true where it is allowed. -/
def reclassAllowed (l : Leaf) (cls : Cls) (b : Nat) : Bool :=
  match l.cls, cls with
  | .loose, .bounded => true
  | .loose, .strict => true
  | .bounded, .bounded => decide (b < l.bound)
  | .bounded, .strict => true
  | _, _ => false

/-- The class and bound change in place, and the definition form is owed (R84, R86). -/
def setClass (l : Leaf) (cls : Cls) (b : Nat) (s : State) : State :=
  queueWrite 4 (.leaf l.num true) (owe (.leaf l.num true) (markDirty l.group
    (modLeaf l.num (fun x => { x with cls := cls, bound := b, shadow := x.v }) s)))

/-- A reclass completes with V, group, engine and class (R84). -/
def finishReclass (op : Op) (l : Leaf) (cls : Cls) (s : State) : State :=
  let g := match findLeaf s l.num with
    | some x => x.group
    | none => l.group
  completeOn op l.num l.v (BitVec.ofNat 64 (g + 4096 * engineOf s g + 2 ^ 16 * clsCode cls)) (chargeWork op g 8 s)

/-- The group opened for a counter's move that still waits for it, its ceiling on its way or written at or above V (R143, R170). -/
def waitingGroup (s : State) (n v : Nat) : Option Group :=
  s.ctr.groups.find? fun g =>
    decide (g.forMove = some n) && (ceilingAllows s g.num v ||
      match g.ceilQueued with | some q => decide (v ≤ q.toNat) | none => false)

/-- A group opened for the move of a counter, its first ceiling at V plus the step (R84, R143, R170). -/
def openForMove (g : Nat) (l : Leaf) (s : State) : State :=
  queueCeiling g (l.v.toNat + firstStep) (modGroup g (fun x => { x with forMove := some l.num }) (openGroup g l.domain 0 s))

/-- CTR_RECLASS at its point of effect (R83, R84): a BOUNDED counter left uncovered moves in the same step to a target; where a
group must be opened first it waits for that group's ceiling (R143); with no group left it stays, with its BOUNDED-set entry. -/
def reclassPlan (op : Op) (s : State) : Except Status Plan := do
  let l ← openTarget op s
  match clsOf (opBits op.a 0 2) with
  | none => .error .badField
  | some cls =>
    let b := op.b.toNat
    if !reclassAllowed l cls b then .error .classRule
    else if classFull s op.domain cls false && decide (l.cls ≠ cls) then .error .limitReached
    else
      let defn := slotsNeeded (.leaf l.num true) s
      let l' := { l with cls := cls, bound := b }
      let live := match findGroup s l.group with
        | some g => g.liveMax.toNat
        | none => 0
      let stay (extra : Nat) (after : State → State) : Plan :=
        ⟨⟨defn, extra, true⟩, l.group, 0, fun s => finishReclass op l cls (after (setClass l cls b s))⟩
      if !uncoveredAt live l' then .ok (stay 0 fun s => s)
      else
        match boundedTarget s l' with
        | some g => .ok (stay 0 fun s => moveLeaf l' g.num 0x06 true s)
        | none =>
          match waitingGroup s l.num l.v.toNat, emptyGroup s with
          | some g, _ => .ok ⟨⟨defn, 0, false⟩, g.num, l.v.toNat, fun s => s⟩
          | none, some g => .ok ⟨⟨defn, 0, false⟩, g, l.v.toNat, fun s => s⟩
          | none, none => .ok (stay (if s.owed.bounded.contains l.num then 0 else 1) fun s => oweBounded l.num s)

/-- A reclass that needs a new group opens it, once, with its first ceiling at V plus the step (R84, R143, R170). -/
def openForReclass (op : Op) (s : State) : State :=
  match openTarget op s with
  | .ok l =>
    if op.opcode = 0x16 ∧ (boundedTarget s { l with cls := .bounded, bound := op.b.toNat }).isNone ∧
        (waitingGroup s l.num l.v.toNat).isNone then
      match emptyGroup s with
      | some g => openForMove g l s
      | none => s
    else s
  | .error _ => s

/-! ### By opcode -/

/-- The counter operations and FAULT_REPORT at their point of effect (R60). -/
def ctrPlan (op : Op) (s : State) : Except Status Plan :=
  match op.opcode with
  | 0x10 => createPlan op s
  | 0x11 => readPlan op s
  | 0x12 => advancePlan op s
  | 0x13 => reservePlan op s
  | 0x14 => raisePlan op s
  | 0x15 => closePlan op s
  | 0x16 => reclassPlan op s
  | 0x17 => groupReadPlan op s
  | _ => faultReportPlan op s

/-- The fields of a counter operation are in range and no reserved bit is set (row 3 of R72; R74, R75, R77-R85, R198). -/
def ctrFields (op : Op) : Bool :=
  match op.opcode with
  | 0x10 =>
    fieldsFree op 0 allBits allBits 0xFFFFFFFF00000003 &&
      (match clsOf (opBits op.c 0 2) with
       | some cls => boundOk cls op.b.toNat
       | none => false)
  | 0x11 => fieldsFree op allObj 0 0 allBits && bufferAligned op.c
  | 0x12 => fieldsFree op allObj allBits 0 0 && decide (op.a ≠ 0)
  | 0x13 => fieldsFree op allObj allBits 0 0 && decide (1 ≤ op.a.toNat) && decide (op.a.toNat ≤ 2 ^ 32)
  | 0x14 => fieldsFree op allObj allBits 0 0
  | 0x15 => fieldsFree op allObj 0 0 0
  | 0x16 =>
    fieldsFree op allObj 3 allBits 0 &&
      (match clsOf (opBits op.a 0 2) with
       | some cls => boundOk cls op.b.toNat
       | none => false)
  | 0x17 => fieldsFree op allObj 0 0 allBits && bufferAligned op.c && decide (op.c ≠ 0)
  | _ =>
    fieldsFree op allObj 0x00003FFFFFFFFFFF 0x00000000FFFFFFFF 0 && decide (1 ≤ opBits op.a 0 32) &&
      (decide (opBits op.a 32 8 ≤ 3) || decide (0x80 ≤ opBits op.a 32 8)) && decide (opBits op.b 0 32 ≠ 0xFFFFFFFF)

/-- The checks at dispatch, rows 1 to 3 of R72. -/
def ctrGate (op : Op) (s : State) : Option Status :=
  match gate op s.ready.counters s with
  | some st => some st
  | none => if ctrFields op then none else some .badField

end Sys2Proof.Machine
end

