-- ==== Sys2Proof/Machine/Keys.lean ====
section
/-!
DEFINITION. Key identifier operations and the parameter store at their point of effect (spec/07_key_identifiers.md R183-R197;
spec/04_journal_flash.md R124-R132).
-/
namespace Sys2Proof.Machine

/-! ### Key identifiers -/

/-- A key identifier's entry is set (R183). -/
def setKid (x : Kid) (s : State) : State :=
  { s with kit := { s.kit with kids := insertBy (fun y => y.num) x (s.kit.kids.filter fun y => y.num != x.num) } }

/-- The identifier an operation names (R187). -/
def kidNumber (op : Op) : Nat := op.obj.toNat % 2 ^ 14

/-- The generation an operation gives (R190-R192). -/
def kidGeneration (op : Op) : W32 := BitVec.truncate 32 op.b

/-- A KID_SPLICE_COMMIT that waits on the identifier (R192, R194). -/
def waitingCommit (s : State) (k : Nat) : Option Op :=
  s.hif.ops.find? fun op => op.opcode == 0x23 && kidNumber op == k && isWaiting s op

/-- Identifiers of a domain that count against its quota: LIVE or DRAINING (R189). -/
def kidsOf (s : State) (domain : Nat) : Nat :=
  (s.kit.kids.filter fun x => decide (x.st ≠ .free) && x.domain == domain).length

/-- The domain's quota of key identifiers is used up; domain 0 has the device total alone (R38, R69, R189). -/
def kidQuotaFull (s : State) (domain : Nat) : Bool :=
  match findDomain s domain with
  | some d => decide (domain ≠ 0) && decide (d.kids ≤ kidsOf s domain)
  | none => false

/-- The identifier belongs to another domain: LIVE or DRAINING, and the operation is not a KID_READ of QP 0 (R37, R187). -/
def kidForeign (op : Op) (x : Kid) : Bool := decide (x.st ≠ .free) && foreign op x.domain

/-- A need of one KID_GEN entry (R135, R136). -/
def kidNeed (k : Nat) (s : State) : Need := ⟨slotsNeeded (.kid k) s, 0, true⟩

/-- KID_ALLOC (R189). -/
def allocPlan (op : Op) (x : Kid) (s : State) : Except Status Plan :=
  if x.retired || kidQuotaFull s op.domain then .error .limitReached
  else if x.st ≠ .free then .error .kidState
  else .ok ⟨kidNeed x.num s, 0, 0, fun s =>
    complete op .ok (BitVec.zeroExtend 64 x.gen) op.a false
      (owe (.kid x.num) (setKid { x with st := .live, domain := op.domain, mask := op.a } s))⟩

/-- KID_SPLICE_BEGIN (R190). -/
def beginPlan (op : Op) (x : Kid) (s : State) : Except Status Plan :=
  if x.st ≠ .live ∨ x.gen ≠ kidGeneration op then .error .kidState
  else .ok ⟨kidNeed x.num s, 0, 0, fun s =>
    awaitRecord op (.kid x.num) (BitVec.zeroExtend 64 x.gen) x.mask
      (owe (.kid x.num) (setKid { x with st := .draining } s))⟩

/-- The bit of a unit in a mask (R186). -/
def unitBit (n : Nat) : W64 := BitVec.ofNat 64 (2 ^ n)

/-- KID_FLUSHED (R191). -/
def flushedPlan (op : Op) (x : Kid) (s : State) : Except Status Plan :=
  if x.st ≠ .draining ∨ x.gen ≠ kidGeneration op then .error .kidState
  else
    let u := unitBit (opBits op.a 0 6)
    if x.mask &&& u = 0 then .ok (freePlan fun s => complete op .ok x.mask 0 false s)
    else .ok ⟨kidNeed x.num s, 0, 0, fun s =>
      complete op .ok (x.mask &&& ~~~u) 1 false (owe (.kid x.num) (setKid { x with mask := x.mask &&& ~~~u } s))⟩

/-- Units a commit still waits for: outstanding and not excused (R192). -/
def missingUnits (op : Op) (x : Kid) : W64 := x.mask &&& ~~~op.a

/-- The end of a splice: generation raised or the identifier retired, FREE, no unit left; it waits for its record (R185, R192). -/
def finishCommit (op : Op) (x : Kid) (s : State) : State :=
  let last := decide (x.gen = 0xFFFFFFFF)
  let y := { x with st := .free, gen := if last then x.gen else x.gen + 1, mask := 0, retired := x.retired || last }
  awaitRecord op (.kid x.num) (BitVec.zeroExtend 64 y.gen) (x.mask &&& op.a) (owe (.kid x.num) (setKid y s))

/-- KID_SPLICE_COMMIT (R192): it waits for units, or admits its entry and ends the splice. -/
def commitPlan (op : Op) (x : Kid) (s : State) : Except Status Plan :=
  if x.st ≠ .draining ∨ x.gen ≠ kidGeneration op then .error .kidState
  else if (s.hif.ops.any fun o => o.opcode == 0x23 && o.id != op.id && kidNumber o == x.num && isWaiting s o) = true then
    .error .kidState
  else if missingUnits op x ≠ 0 then .ok (freePlan fun s => setOpSt op.id (.splice (s.clk.now + hundredMs)) s)
  else .ok ⟨kidNeed x.num s, 0, 0, finishCommit op x⟩

/-- KID_READ (R194). -/
def kidReadPlan (op : Op) (x : Kid) : Plan :=
  freePlan fun s =>
    complete op .ok (BitVec.ofNat 64 (x.gen.toNat + 2 ^ 32 * kidCode x.st + 2 ^ 34 * bit x.retired +
      2 ^ 35 * bit (waitingCommit s x.num).isSome + 2 ^ 36 * x.domain)) x.mask false s

/-- Key identifier operations at their point of effect, rows 4 to 8 of R187. -/
def kidPlan (op : Op) (s : State) : Except Status Plan :=
  let x := kidOf s (kidNumber op)
  if kidForeign op x then .error .wrongDomain
  else
    match op.opcode with
    | 0x20 => allocPlan op x s
    | 0x21 => beginPlan op x s
    | 0x22 => flushedPlan op x s
    | 0x23 => commitPlan op x s
    | _ => .ok (kidReadPlan op x)

/-- The fields of a key identifier operation (R187, R189-R194). -/
def kidFields (op : Op) : Bool :=
  match op.opcode with
  | 0x20 => fieldsFree op 0x3FFF allBits 0 0 && decide (op.a ≠ 0)
  | 0x21 => fieldsFree op 0x3FFF 0 0xFFFFFFFF 0
  | 0x22 => fieldsFree op 0x3FFF 0x3F 0xFFFFFFFF 0
  | 0x23 => fieldsFree op 0x3FFF allBits 0xFFFFFFFF 0
  | _ => fieldsFree op 0x3FFF 0 0 0

/-- Rows 1 to 3 of R187. -/
def kidGate (op : Op) (s : State) : Option Status :=
  match gate op s.ready.counters s with
  | some st => some st
  | none => if kidFields op then none else some .badField

/-! ### The parameter store -/

/-- The page an operation names. -/
def pageNumber (op : Op) : Nat := op.obj.toNat % 256

/-- The page byte that byte i of the buffer corresponds to (R125). -/
def pageByte (op : Op) (i : Nat) : Nat := (opBits op.a 0 6 + i) % 64

/-- Page bytes an operation names, in buffer order (R125). -/
def pageRange (op : Op) : List Nat := (List.range (opBits op.a 8 7)).map (pageByte op)

/-- Groups an operation touches (R124). -/
def touchedGroups (op : Op) : List Nat := (List.range 8).filter fun g => (pageRange op).any fun i => decide (i / 8 = g)

/-- Groups whose every byte an operation writes (R129). -/
def coveredGroups (op : Op) : List Nat :=
  (List.range 8).filter fun g => (List.range 8).all fun j => (pageRange op).contains (8 * g + j)

/-- A set of groups as a byte (R128). -/
def groupMask (gs : List Nat) : Byte := gs.foldl (fun m g => m ||| BitVec.ofNat 8 (2 ^ g)) 0

/-- A page's image is set (R124). -/
def setPage (x : Page) (s : State) : State :=
  { s with kit := { s.kit with pages := insertBy (fun y => y.num) x (s.kit.pages.filter fun y => y.num != x.num) } }

/-- The bytes of a page with those a write names replaced, in buffer order; later bytes win (R125, R126). -/
def writePageBytes (op : Op) (buffer page : List Byte) : List Byte :=
  ((pageRange op).zip buffer).foldl (fun bs x => modNth (fun _ => x.2) x.1 bs) page

/-- The groups of a page in which the medium corrected a bit of a PARAM_PAGE copy: page group g lies in the record's 8-byte groups g + 1
and g + 2 (R96, R98, R102, R128; DESIGN CHOICE: notes/assumptions/36.md). -/
def correctedGroups (reads : List SlotRead) (i : Inst) : List Nat :=
  let hit (m : Nat) : Bool := reads.any fun x =>
    x.bank == i.bank && x.sector == i.sector && x.slot == i.slot + m / 4 && x.corrected.contains (m % 4)
  (List.range 8).filter fun g => hit (g + 1) || hit (g + 2)

/-- The copies of a page's current record (R129). -/
def pageCopies (s : State) (r : Rec) : List Inst :=
  s.jrn.insts.filter fun i => decide (recKey i.record = recKey r) && i.record.seq == r.seq

/-- The page's image loaded from its current record, as the reads of the flash give it: groups corrected on the way are noted, groups
that fail their check byte in every copy are lost; a page without a record reads 0xFF (R124, R128, R129). -/
def loadPage (reads : List SlotRead) (p : Nat) (s : State) : State :=
  match currentRec s (7, p) with
  | some r =>
    let status := match (pageCopies s r).find? fun i => decide (i.record.payload = r.payload) with
      | some i => groupMask (correctedGroups reads i)
      | none => 0
    let lost := (badGroups r.payload).filter fun g => (pageCopies s r).all fun i => (badGroups i.record.payload).contains g
    setPage ⟨p, r.payload.take 64, status, false, groupMask lost⟩ s
  | none => s

/-- Single-bit corrections of the image are noted; an uncorrectable group reloads the page if it has no unwritten change, and is
lost otherwise (R128, R129). The status bit of a group restored by a reload is set (DESIGN CHOICE: notes/assumptions/36.md). -/
def noteImageErrors (p : Nat) (corrected uncorrectable : List Nat) (s : State) : State :=
  let x := pageOf s p
  let s1 := if corrected = [] then s else setPage { x with status := x.status ||| groupMask corrected } s
  if uncorrectable = [] then s1
  else
    let y := pageOf s1 p
    if y.dirty then setPage { y with lost := y.lost ||| groupMask uncorrectable } s1
    else
      let s2 := loadPage [] p s1
      let z := pageOf s2 p
      if (currentRec s (7, p)).isSome then setPage { z with status := y.status ||| groupMask uncorrectable } s2
      else setPage { y with bytes := List.replicate 64 0xFF, status := y.status ||| groupMask uncorrectable } s2

/-- PARAM_READ at its point of effect (R127, R129). -/
def paramReadPlan (op : Op) (s : State) : Except Status Plan :=
  let x := pageOf s (pageNumber op)
  if x.lost &&& groupMask (touchedGroups op) ≠ 0 then .error .mediaError
  else .ok (freePlan fun s =>
    complete op .ok (BitVec.ofNat 64 (x.status.toNat + 256 * bit x.dirty)) 0 false
      (writeHost op.c.toNat ((pageRange op).map fun i => nthOr 0xFF i x.bytes) s))

/-- PARAM_WRITE at its point of effect: the page is owed, its bytes and its group status change in one step (R126, R132). -/
def paramWritePlan (op : Op) (s : State) : Except Status Plan :=
  let p := pageNumber op
  .ok ⟨⟨slotsNeeded (.page p) s, 0, true⟩, 0, 0, fun s =>
    let x := pageOf s p
    let buffer := readHost s op.c.toNat (opBits op.a 8 7)
    let status := x.status &&& ~~~groupMask (touchedGroups op)
    complete op .ok (BitVec.zeroExtend 64 status) 0 false (owe (.page p) (setPage
      { x with bytes := writePageBytes op buffer x.bytes, status := status, dirty := true
               lost := x.lost &&& ~~~groupMask (coveredGroups op) } s))⟩

/-- The write that will carry a page's image: one queued now at rank 4 while a change waits to be taken, else the last of those under
way (R130). -/
def syncPage (p : Nat) (s : State) : List Nat × State :=
  let entries := s.owed.strict.filter fun e => decide (e.what = .page p)
  if entries.any fun e => e.taken.isNone then
    let s1 := queueWrite 4 (.page p) s
    (queuedId (.page p) s1, s1)
  else (lastN 1 (entries.filterMap fun e => e.taken), s)

/-- The writes of several pages (R130). -/
def syncPages : List Nat → State → List Nat × State
  | [], s => ([], s)
  | p :: rest, s =>
    let (ids, s1) := syncPage p s
    let (more, s2) := syncPages rest s1
    (ids ++ more, s2)

/-- PARAM_SYNC at its point of effect (R130). -/
def paramSyncPlan (op : Op) : Plan :=
  freePlan fun s =>
    let pages := (s.kit.pages.filter fun x => x.dirty && (decide (op.obj = 0xFFFFFFFF) || x.num == op.obj.toNat)).map fun x => x.num
    let (ids, s1) := syncPages pages s
    if ids = [] then complete op .ok 0 0 false s1
    else setOpSt op.id (.record ids (BitVec.ofNat 64 ids.length) 0) s1

/-- Parameter store operations at their point of effect: pages belong to domain 0 (R131). -/
def paramPlan (op : Op) (s : State) : Except Status Plan :=
  if op.domain ≠ 0 then .error .wrongDomain
  else
    match op.opcode with
    | 0x50 => paramReadPlan op s
    | 0x51 => paramWritePlan op s
    | _ => .ok (paramSyncPlan op)

/-- The fields of a parameter store operation (R125, R130). -/
def paramFields (op : Op) : Bool :=
  if op.opcode = 0x52 then
    if op.obj = 0xFFFFFFFF then fieldsFree op allObj 0 0 0 else fieldsFree op 0xFF 0 0 0
  else
    fieldsFree op 0xFF 0x7F3F 0 allBits && bufferAligned op.c && decide (1 ≤ opBits op.a 8 7) && decide (opBits op.a 8 7 ≤ 64)

/-- SAFE, READY.JOURNAL and the fields (R131, R389). -/
def paramGate (op : Op) (s : State) : Option Status :=
  match gate op s.ready.journal s with
  | some st => some st
  | none => if paramFields op then none else some .badField

end Sys2Proof.Machine
end

