-- ==== Sys2Proof/Machine/Random.lean ====
section
/-!
DEFINITION. NSU and DRB: health tests, source states, seed entries and their queues, the DRBG operations
(spec/10_random.md R262-R285).
-/
namespace Sys2Proof.Machine

/-! ### Sources (R262) -/

/-- Kinds of noise source by code: 0 thermal, 1 jitter, 2 metastable (R262, R274). -/
def sourceKind (c : Nat) : Nat := if c ≤ 5 then 0 else if c ≤ 7 then 1 else 2

/-- A source of class S (R262). -/
def isClassS (c : Nat) : Bool := decide (4 ≤ c)

/-- The sample period in CLK (R262). -/
def samplePeriod (c : Nat) : Nat := if sourceKind c = 1 then 64 else 16

/-- The APT window in CLK: 1,024 samples (R262, R263). -/
def aptWindow (c : Nat) : Nat := 1024 * samplePeriod c

/-- RCT cutoff (R263). -/
def rctCutoff (c : Nat) : Nat := if sourceKind c = 0 then 41 else if sourceKind c = 1 then 24 else 81

/-- APT cutoff (R263). -/
def aptCutoff (c : Nat) : Nat := if sourceKind c = 0 then 793 else if sourceKind c = 1 then 635 else 915

/-- The entry window of a class in CLK (R267). (DESIGN CHOICE: notes/assumptions/41.md) -/
def entryWindow (classS : Bool) : Nat := if classS then 8192 else 12288

/-- Claimed min-entropy of a source in one entry window, in bits (R267). -/
def claimedBits (c : Nat) : Nat :=
  if c ≤ 3 then 384 else if sourceKind c = 0 then 256 else if sourceKind c = 1 then 112 else 128

/-- Two sources play the same role: thermal of class H, or of one kind in class S (R271-R273). -/
def sameRole (a b : Nat) : Bool := isClassS a == isClassS b && sourceKind a == sourceKind b

/-- Sources of a role that are active at a time: two in class H, one of each kind in class S (R262). -/
def roleSize (c : Nat) : Nat := if isClassS c then 1 else 2

/-- The first entry window of its class that begins now or later (R267). -/
def nextWindow (c : Nat) (s : State) : Nat :=
  let len := entryWindow (isClassS c)
  (s.clk.now + len - 1) / len * len

/-- Conditioned output of a class for its active sources, in bit/s: the table of R267. -/
def classRate (s : State) (classS : Bool) : Nat :=
  let claimed := (s.nsu.sources.filter fun x => isClassS x.code == classS && decide (x.st = .active)).foldl
    (fun n x => n + claimedBits x.code) 0
  if claimed = 0 then 0
  else
    let windows := (448 + claimed - 1) / claimed
    (if classS then 50331648 else 33554432) / windows

/-! ### READY.RANDOM (R276) -/

/-- The source counts as ACTIVE for READY.RANDOM: also one in STARTING after a resume that was ACTIVE before it (R276). -/
def countsActive (x : Source) : Bool := decide (x.st = .active) || (decide (x.st = .starting) && x.wasActive)

/-- A class has an active source for READY.RANDOM (R276). -/
def classActive (s : State) (classS : Bool) : Bool :=
  s.nsu.sources.any fun x => isClassS x.code == classS && countsActive x

/-- READY.RANDOM follows R276. -/
def updateRandom (s : State) : State :=
  let live := classActive s false && classActive s true
  if s.ready.random then
    if live then s else setReady (fun y => { y with random := false }) s
  else if live && (s.nsu.internals.all fun d => d.state.isSome) && decide (16 ≤ s.nsu.queueS.length) then
    setReady (fun y => { y with random := true }) { s with nsu := { s.nsu with everReady := true } }
  else s

/-! ### Switching (R271-R274) -/

/-- A SPARE that is to be switched in for a source already (R272, R273). -/
def isNamed (s : State) (c : Nat) : Bool := s.nsu.sources.any fun x => decide (x.switchDue = some c) || decide (x.swap = some c)

/-- SPARE sources of a role not yet named for another, the one with fewest alarms today first, the lower code on a tie (R272). -/
def spareFor (s : State) (c : Nat) : Option Source :=
  minBy (fun x => x.today) (s.nsu.sources.filter fun x =>
    x.code != c && sameRole x.code c && decide (x.st = .spare) && !isNamed s x.code)

/-- SOURCE_EXHAUSTED of a source's class and kind (R272, R274). -/
def postExhausted (c : Nat) (s : State) : State :=
  let classS := isClassS c
  postEvent .sourceExhausted (bit classS + 256 * sourceKind c)
    (leBytes 4 (classRate s classS) ++
      leBytes 1 (s.nsu.sources.filter fun x => isClassS x.code == classS && decide (x.st = .active)).length) s

/-- SOURCE_SWITCH for a retired source, and decision 0x0C; what its failure cost is what the alarms counted for it cost
(R272, R274, R181; DEDUCED: notes/assumptions/40.md). -/
def postSwitch (x : Source) (replacement cause : Nat) (s : State) : State :=
  let s1 := postEvent .sourceSwitch x.code
    (leBytes 1 replacement ++ leBytes 1 cause ++ leBytes 2 (saturate x.alarms.length 65535) ++
      leBytes 4 (x.alarms.foldl (fun n a => n + a.2) 0) ++ leBytes 8 x.lastPass) s
  if replacement = 0xFF then s1 else logDecision 0x0C (bit (isClassS x.code)) x.code replacement 0 s1

/-- A self-test of the role's drained source ends at once, with result 7, and the source enters STARTING (R275, R335). -/
def recallDrained (c : Nat) (s : State) : State :=
  match s.mnt.running with
  | some r =>
    if r.req.kind = 1 ∧ 0x30 ≤ r.req.block ∧ sameRole (r.req.block - 0x30) c = true then endActivity 7 0 s else s
  | none => s

/-- No SPARE replaces a source: a drained source of its role is recalled, or SOURCE_EXHAUSTED (R272, R274, R275). -/
def withoutSpare (c : Nat) (s : State) : State :=
  if s.nsu.sources.any fun z => z.code != c && sameRole z.code c && decide (z.st = .drained) then recallDrained c s
  else postExhausted c s

/-- An active source fails: RETIRED, its replacement named and switched in at the next boundary, or the class goes on without it; a SPARE
named for its drain or its exchange is free again (R264, R271, R272, R275). (DEDUCED: notes/assumptions/40.md) -/
def retireActive (x : Source) (s : State) : State :=
  let s1 := modSource x.code (fun z => { z with st := .retired, switchDue := none, swap := none }) s
  match spareFor s1 x.code with
  | some y => updateRandom (postSwitch x y.code 0 (modSource x.code (fun z => { z with switchDue := some y.code }) s1))
  | none =>
    updateRandom (withoutSpare x.code (postSwitch x 0xFF 0 (modSource x.code (fun z => { z with switchDue := some 0xFF }) s1)))

/-- A SPARE source fails: RETIRED; where it was named for a source, another is, or the class goes on without; a drain for which
nothing could stand in ends, and an exchange for it is given up (R173, R271-R274). (DEDUCED: notes/assumptions/50.md) -/
def retireSpare (c : Nat) (s : State) : State :=
  let s0 := modSource c (fun z => { z with st := .retired }) s
  let s1 := { s0 with nsu := { s0.nsu with
    sources := modWhere (fun z => decide (z.swap = some c)) (fun z => { z with swap := none }) s0.nsu.sources } }
  match s1.nsu.sources.find? fun z => decide (z.switchDue = some c) with
  | none => s1
  | some x =>
    match spareFor s1 x.code with
    | some y =>
      logDecision 0x0C (bit (isClassS c)) x.code y.code 0 (modSource x.code (fun z => { z with switchDue := some y.code }) s1)
    | none =>
      if x.st = .active then endActivity 7 0 s1
      else withoutSpare x.code (modSource x.code (fun z => { z with switchDue := some 0xFF }) s1)

/-! ### Start-up tests (R265, R271) -/

/-- The class needs the source: the role has fewer active sources, and sources of lower code still in their start-up tests, than
its size (R262, R271). -/
def roleNeeds (s : State) (c : Nat) : Bool :=
  decide ((s.nsu.sources.filter fun x => x.code != c && sameRole x.code c &&
    (decide (x.st = .active) || (decide (x.st = .starting) && decide (x.code < c)))).length < roleSize c)

/-- A pending entry or input holds a sample of the source taken after the end of its last passing window (R268). -/
def holdsUntested (x : Source) (p : Pending) : Bool :=
  isClassS x.code == p.classS && (p.waits.any fun w => w.1 == x.code) &&
    (p.windows.any fun w => decide (x.lastPass < w + entryWindow p.classS))

/-- Pending entries and inputs that hold an untested sample of the source are discarded (R268). -/
def dropUntested (x : Source) (s : State) : State :=
  { s with nsu := { s.nsu with pending := s.nsu.pending.filter fun p => !holdsUntested x p } }

/-- A source that has passed its start-up test becomes ACTIVE if its class needs it, else SPARE; what it left untested before its
self-test never joins a queue (R268, R271). (DEDUCED: notes/assumptions/76.md) -/
def joinClass (c : Nat) (s : State) : State :=
  let st := if roleNeeds s c then SrcSt.active else .spare
  let s1 := match findSource s c with
    | some x => dropUntested x s
    | none => s
  modSource c (fun x => { x with
    st := st, second := false, wasActive := false, passed := false, from_ := nextWindow c s
    lastPass := max x.lastPass (s.clk.now / aptWindow c * aptWindow c) }) s1

/-- Class S conditions when no source it needs is still in its start-up test: the sources that have passed are then admitted
together (R276, and the start-up example under it). -/
def releaseS (s : State) : State :=
  if !s.nsu.heldS || s.nsu.sources.any fun x =>
      isClassS x.code && decide (x.st = .starting) && !x.passed && roleNeeds s x.code then s
  else
    let s1 := { s with nsu := { s.nsu with heldS := false } }
    ((s1.nsu.sources.filter fun x => isClassS x.code && x.passed).map fun x => x.code).foldl (fun t c => joinClass c t) s1

/-- A source passes its start-up test (R271, R276). -/
def passStartup (c : Nat) (s : State) : State :=
  updateRandom (
    if s.nsu.heldS && isClassS c then releaseS (modSource c (fun x => { x with second := false, passed := true }) s)
    else joinClass c s)

/-- The source that takes a failed one's place in its start-up: a SPARE of its role, or one that has passed and waits for the rest
of class S (R275, R276). -/
def startSpare (s : State) (c : Nat) : Option Source :=
  match spareFor s c with
  | some y => some y
  | none => s.nsu.sources.find? fun z => sameRole z.code c && decide (z.st = .starting) && z.passed

/-- A source has failed its start-up test twice: a SPARE of its role that is needed becomes ACTIVE (R265, R271, R275). -/
def failStartup (x : Source) (s : State) : State :=
  let s1 := modSource x.code (fun z => { z with st := .retired, second := false, wasActive := false }) s
  let active := (s1.nsu.sources.filter fun z => sameRole z.code x.code && decide (z.st = .active)).length
  let starting := s1.nsu.sources.any fun z => sameRole z.code x.code && decide (z.st = .starting)
  updateRandom (releaseS (
    if roleSize x.code ≤ active then s1
    else
      match startSpare s1 x.code with
      | some y =>
        postSwitch x y.code 1
          (if y.st = .spare then modSource y.code (fun z => { z with st := .active, from_ := nextWindow y.code s1 }) s1 else s1)
      | none => if s1.nsu.everReady && !starting then postExhausted x.code s1 else s1))

/-- Alarms by their samples: those of the last 2^20 samples count, each with what it cost, and every one counts for the day
(R264, R272, R274). -/
def countAlarms (samples : List Nat) (cost : Nat) (x : Source) : Source :=
  samples.foldl (fun x n => { x with
    alarms := (n, cost) :: x.alarms.filter fun a => decide (n < a.1 + 2 ^ 20)
    today := x.today + 1 }) x

/-- The first or the second start-up test of a source ends, with its alarms (R264, R265, R268). -/
def endStartupTest (c : Nat) (alarms : List Nat) (s : State) : State :=
  match findSource s c with
  | none => s
  | some x =>
    if x.st ≠ .starting ∨ x.passed = true ∨ s.nsu.settling.isSome = true then s
    else
      let y := countAlarms alarms 0 x
      let s1 := modSource c (countAlarms alarms 0) s
      if alarms = [] then passStartup c s1
      else if x.second then failStartup y (dropUntested x s1)
      else modSource c (fun z => { z with second := true }) (dropUntested x s1)

/-! ### Entries (R266-R268) -/

/-- An alarm: pending entries and inputs with the source's untested samples are discarded, and its APT window fails; 18 alarms within
2^20 samples are a failure, which the window input in progress belongs to (R264, R268, R274). -/
def raiseAlarm (x : Source) (sample : Nat) (s : State) : State :=
  let start := s.clk.now / entryWindow (isClassS x.code) * entryWindow (isClassS x.code)
  let gone := (s.nsu.pending.filter fun p => holdsUntested x p).length
  let recent := (x.alarms.filter fun a => decide (sample < a.1 + 2 ^ 20)).length + 1
  let progress := if 18 ≤ recent ∧ x.st = .active ∧ x.from_ ≤ start then 1 else 0
  let bad := (s.clk.now / aptWindow x.code + 1) * aptWindow x.code
  let y := { countAlarms [sample] (gone + progress) x with badEnds := (bad :: x.badEnds.filter fun e => e != bad).take 4 }
  let s1 := modSource x.code (fun _ => y) (dropUntested x s)
  if 18 ≤ recent then
    if x.st = .active then retireActive y s1 else retireSpare x.code s1
  else s1

/-- HEALTH_TEST_ALARM: a count of a test of an ACTIVE or SPARE source reaches its cutoff (R263, R271). -/
def healthAlarm (c : Nat) (test : HealthTest) (count sample : Nat) (s : State) : State :=
  match findSource s c with
  | none => s
  | some x =>
    let cutoff := match test with
      | .rct => rctCutoff c
      | .apt => aptCutoff c
    if (x.st = .active ∨ x.st = .spare) ∧ cutoff ≤ count then raiseAlarm x sample s else s

/-- The sources whose samples the window that began at `start` holds: active, and past their first window (R267). -/
def windowSources (s : State) (classS : Bool) (start : Nat) : List Source :=
  s.nsu.sources.filter fun x =>
    isClassS x.code == classS && (decide (x.st = .active) || x.switchDue.isSome) && decide (x.from_ ≤ start)

/-- The window that began at `start` holds samples of an APT window of the source that an alarm has failed (R268). -/
def holdsFailed (start : Nat) (x : Source) : Bool :=
  x.badEnds.any fun e => decide (start < e) && decide (e < start + entryWindow (isClassS x.code) + aptWindow x.code)

/-- The input of the window that has ended is lost to a failed or retired source of it, or there is none (R268). -/
def windowLost (start : Nat) (xs : List Source) : Bool :=
  xs.isEmpty || xs.any fun x => decide (x.st ≠ .active) || holdsFailed start x

/-- The lost input is counted for the alarms that cost it, and an input in progress ends with it: an entry's windows are consecutive
(R267, R268, R274). -/
def loseWindow (classS : Bool) (start : Nat) (xs : List Source) (s : State) : State :=
  let s1 := { s with nsu := { s.nsu with pending := s.nsu.pending.filter fun p => !(p.classS == classS && p.entry.isNone) } }
  (xs.filter fun x => decide (x.st = .active) && holdsFailed start x).foldl (fun s x =>
    modSource x.code (fun z => { z with alarms := modNth (fun a => (a.1, a.2 + 1)) 0 z.alarms }) s) s1

/-- The end of the last APT window of a source that holds samples taken before a moment (R268). -/
def aptEnd (c t : Nat) : Nat := ((t + aptWindow c - 1) / aptWindow c) * aptWindow c

/-- A window's samples of a source join those of the entry's earlier windows, in time order (R266). -/
def addSamples (classS : Bool) (given : List (Nat × Nat)) (old : List (Nat × Nat × Nat)) (c : Nat) : List (Nat × Nat × Nat) :=
  let n := entryWindow classS / samplePeriod c
  let value := match given.find? fun g => g.1 == c with
    | some g => g.2 % 2 ^ n
    | none => 0
  match old.find? fun o => o.1 == c with
  | some (_, m, v) => insertBy (fun o => o.1) (c, m + n, v + 2 ^ m * value) (old.filter fun o => o.1 != c)
  | none => insertBy (fun o => o.1) (c, n, value) old

/-- A seed entry: Block_cipher_df of the samples, ascending by source, packed eight to a byte with the first in bit 0 (R266). -/
def conditioned (samples : List (Nat × Nat × Nat)) : W384 :=
  drbgPack (blockCipherDf (samples.flatMap fun o => toNats (leBytes (o.2.1 / 8) o.2.2)))

/-- The window's input joins the input in progress where that ends with it; an entry is formed once 448 bits are claimed
(R266, R267). -/
def addWindow (classS : Bool) (start : Nat) (given : List (Nat × Nat)) (xs : List Source) (s : State) : State :=
  let stop := start + entryWindow classS
  let old := match s.nsu.pending.find? fun p =>
      p.classS == classS && p.entry.isNone && p.windows.contains (start - entryWindow classS) with
    | some p => p
    | none => ⟨classS, [], [], 0, [], none⟩
  let claimed := old.claimed + xs.foldl (fun n x => n + claimedBits x.code) 0
  let samples := xs.foldl (fun o x => addSamples classS given o x.code) old.samples
  let p : Pending := {
    classS := classS, windows := old.windows ++ [start]
    waits := (old.waits.filter fun w => !(xs.any fun x => x.code == w.1)) ++ xs.map fun x => (x.code, aptEnd x.code stop)
    claimed := claimed, samples := samples, entry := if 448 ≤ claimed then some (conditioned samples) else none }
  { s with nsu := { s.nsu with pending := (s.nsu.pending.filter fun q => !(q.classS == classS && q.entry.isNone)) ++ [p] } }

/-- Replacements of the class are switched in at the boundary; a source drained for its self-test leaves then (R173, R272). -/
def switchIn (classS : Bool) (s : State) : State :=
  let due := s.nsu.sources.filter fun x => isClassS x.code == classS && x.switchDue.isSome
  due.foldl (fun s x =>
    let s1 := modSource x.code (fun z => { z with
      switchDue := none, st := if z.st = .active then .drained else z.st }) s
    match x.switchDue with
    | some r => modSource r (fun z => if z.st = .spare then { z with st := .active, from_ := nextWindow r s } else z) s1
    | none => s1) s

/-- Exchanges of the class are made at the boundary, unless a source of the role is DRAINED (R273). -/
def swapIn (classS : Bool) (s : State) : State :=
  (s.nsu.sources.filter fun x => isClassS x.code == classS).foldl (fun s x =>
    match x.swap with
    | none => s
    | some r =>
      let s1 := modSource x.code (fun z => { z with swap := none }) s
      if x.st = .active ∧ x.switchDue = none ∧ (s.nsu.sources.any fun y => y.code == r && decide (y.st = .spare)) = true ∧
          (s.nsu.sources.any fun y => sameRole y.code x.code && decide (y.st = .drained)) = false then
        logDecision 0x0C (bit classS) x.code r 0
          (modSource r (fun z => { z with st := .active, from_ := nextWindow r s })
            (modSource x.code (fun z => { z with st := .spare }) s1))
      else s1) s

/-- ENTRY_WINDOW_BOUNDARY: the window that ends now gives its input, and replacements are switched in (R267, R272, R273). -/
def windowBoundary (classS : Bool) (given : List (Nat × Nat)) (s : State) : State :=
  let len := entryWindow classS
  let stop := s.clk.now / len * len
  if !s.nsu.powered then s
  else
    let s1 := if stop < len then s
      else
        let xs := windowSources s classS (stop - len)
        if windowLost (stop - len) xs then loseWindow classS (stop - len) xs s else addWindow classS (stop - len) given xs s
    updateRandom (swapIn classS (switchIn classS s1))

/-! ### Seed queues (R268, R269) -/

/-- A formed entry whose every APT window has closed and passed (R268). -/
def isTested (s : State) (p : Pending) : Bool :=
  p.entry.isSome && p.waits.all fun w =>
    match findSource s w.1 with
    | some x => decide (w.2 ≤ x.lastPass)
    | none => false

/-- Tested entries join their queues, oldest first; a full queue takes none (R268, R269). -/
def joinQueues (s : State) : State :=
  let done := s.nsu.pending.filter fun p => isTested s p
  let entries (classS : Bool) := (done.filter fun p => p.classS == classS).filterMap fun p => p.entry
  { s with nsu := { s.nsu with
      pending := s.nsu.pending.filter fun p => !isTested s p
      queueH := (s.nsu.queueH ++ entries false).take 32
      queueS := (s.nsu.queueS ++ entries true).take 128 } }

/-- APT_WINDOW_CLOSE: the source's window closes, and passes without an alarm; for a DRAINED source, the window that its drain left under
way (R264, R268; DEDUCED: notes/assumptions/40.md). -/
def closeAptWindow (c : Nat) (s : State) : State :=
  match findSource s c with
  | none => s
  | some x =>
    if x.st ≠ .active ∧ x.st ≠ .spare ∧ x.st ≠ .drained then s
    else
      let stop := s.clk.now / aptWindow c * aptWindow c
      if x.badEnds.contains stop then s
      else joinQueues (modSource c (fun z => { z with lastPass := max z.lastPass stop }) s)

/-- An internal instance waits and may take an entry: for its instantiation, or for a reseed once READY.RANDOM has been set (R276). -/
def internalDue (s : State) : Option Internal8 :=
  (s.nsu.waitI.filterMap fun i => s.nsu.internals.find? fun d => d.num == i).find? fun d =>
    d.state.isNone || s.nsu.everReady

/-- An internal instance takes an entry; no personalisation string or additional input goes with it (R269, R270, R276;
DESIGN CHOICE: notes/assumptions/41.md). -/
def giveInternal (d : Internal8) (e : W384) (s : State) : State :=
  { s with nsu := { s.nsu with
      waitI := s.nsu.waitI.filter fun i => i != d.num
      internals := modWhere (fun x => x.num == d.num)
        (fun x => { x with
          state := some (match x.state with
            | some st => drbgReseed st e []
            | none => drbgInstantiate e [])
          seededAt := s.clk.now })
        s.nsu.internals } }

/-- Internal instances that wait take entries of class H, and of class S while class H has none, in the order in which they began to wait
(R269, R276). -/
def serveInternals : Nat → State → State
  | 0, s => s
  | n + 1, s =>
    match internalDue s with
    | none => s
    | some d =>
      match s.nsu.queueH, s.nsu.queueS with
      | e :: rest, _ => serveInternals n (giveInternal d e { s with nsu := { s.nsu with queueH := rest } })
      | [], e :: rest => serveInternals n (giveInternal d e { s with nsu := { s.nsu with queueS := rest } })
      | [], [] => s

/-- An internal instance wants an entry and would take one of class S (R269). -/
def internalWantsS (s : State) : Bool := (internalDue s).isSome && s.nsu.queueH.isEmpty

/-! ### DRBG operations (R278-R283) -/

/-- The instance a handle names, of the current incarnation (R279). -/
def findDrbg (s : State) (h : W32) : Option Drbg :=
  s.drb.instances.find? fun d => d.num == h.toNat % 256 && d.inc == h.toNat / 256

/-- An instance changed. -/
def modDrbg (n : Nat) (f : Drbg → Drbg) (s : State) : State :=
  { s with drb := { s.drb with instances := modWhere (fun d => d.num == n) f s.drb.instances } }

/-- The handle of an instance (R279). -/
def drbgHandle (d : Drbg) : W64 := BitVec.ofNat 64 (d.num + 256 * d.inc)

/-- 256 host instances, or the domain's quota, are in use (R38, R280). -/
def drbgFull (s : State) (domain : Nat) : Bool :=
  decide (256 ≤ s.drb.instances.length) ||
    match findDomain s domain with
    | some d => decide (domain ≠ 0) &&
        decide (d.drbgs ≤ (s.drb.instances.filter fun x => x.domain == domain).length)
    | none => false

/-- The number and incarnation of a new instance (R279). -/
def takeInstance (s : State) : Option (Nat × Nat × State) :=
  if s.drb.nextNum < 256 then some (s.drb.nextNum, 1, { s with drb := { s.drb with nextNum := s.drb.nextNum + 1 } })
  else
    match s.drb.freed.find? fun f => decide (f.2 + 1 < 2 ^ 24) with
    | some (n, inc) =>
      some (n, inc + 1, { s with drb := { s.drb with freed := s.drb.freed.filter fun f => f.1 != n } })
    | none => none

/-- The operation asks for fresh entropy (R277, R282). -/
def wantsEntropy (op : Op) : Bool :=
  op.opcode == 0x41 || op.opcode == 0x43 || (op.opcode == 0x42 && op.a.getLsbD 13)

/-- The input a DRBG operation reads from its host buffer: personalisation or additional input (R280). -/
def drbgInput (op : Op) (s : State) : List Byte :=
  if op.opcode = 0x42 then readHost s op.b.toNat (opBits op.a 16 7) else readHost s op.c.toNat (opBits op.a 0 7)

/-- GENERATE from a working state: the output buffer is written, then the completion (R280, R283). -/
def generate (op : Op) (d : Drbg) (state : W384) (input : List Byte) (requests : Nat) (fresh : Bool) (s : State) : State :=
  let n := opBits op.a 0 13
  let s1 := modDrbg d.num (fun x => { x with
    state := drbgNext state input n, requests := requests, reseeds := x.reseeds + bit fresh }) s
  let queue := decide (2 ^ 16 ≤ requests) && !d.auto
  let s2 := if queue then
      { modDrbg d.num (fun x => { x with auto := true }) s1 with
        drb := { (modDrbg d.num (fun x => { x with auto := true }) s1).drb with autoOrder := s1.drb.autoOrder ++ [d.num] } }
    else s1
  complete op .ok (BitVec.ofNat 64 n) (BitVec.ofNat 64 (saturate requests (2 ^ 32 - 1) + 2 ^ 32 * bit fresh)) false
    (writeHost op.c.toNat (drbgOutput state input n) s2)

/-- A DRBG operation at its point of effect with its class S entry (R278, R280, R282). -/
def drbgWithEntry (op : Op) (e : W384) (s : State) : State :=
  let input := drbgInput op s
  if op.opcode = 0x41 then
    match takeInstance s with
    | none => refuse op .limitReached s
    | some (n, inc, s1) =>
      let d : Drbg := ⟨n, inc, op.domain, drbgInstantiate e input, 0, 0, false⟩
      complete op .ok (drbgHandle d) 0 false
        { s1 with drb := { s1.drb with instances := insertBy (fun x => x.num) d s1.drb.instances } }
  else
    match findDrbg s op.obj with
    | none => refuse op .noObject s
    | some d =>
      let state := drbgReseed d.state e input
      let s1 := { modDrbg d.num (fun x => { x with auto := false }) s with
        drb := { (modDrbg d.num (fun x => { x with auto := false }) s).drb with
          autoOrder := s.drb.autoOrder.filter fun m => m != d.num } }
      if op.opcode = 0x43 then
        complete op .ok (BitVec.ofNat 64 (d.reseeds + 1)) 0 false
          (modDrbg d.num (fun x => { x with state := state, requests := 0, reseeds := x.reseeds + 1 }) s1)
      else generate op { d with auto := false } state [] 1 true s1

/-- A waiting or arriving operation can no longer take effect: the handle has gone, or the limit is reached (rows 4 to 6 of R281). -/
def drbgRefusal (op : Op) (s : State) : Option Status :=
  if op.opcode = 0x41 then if drbgFull s op.domain then some .limitReached else none
  else
    match findDrbg s op.obj with
    | none => some .noObject
    | some d => if d.domain ≠ op.domain then some .wrongDomain else none

/-- Class S entries go to the host operations that wait, in the order they began to wait (R269, R282). -/
def serveHost : Nat → State → State
  | 0, s => s
  | n + 1, s =>
    match s.nsu.waitS with
    | [] => s
    | k :: rest =>
      match findOp s k with
      | none => serveHost n { s with nsu := { s.nsu with waitS := rest } }
      | some op =>
        match drbgRefusal op s with
        | some st => serveHost n (refuse op st s)
        | none =>
          if internalWantsS s then s
          else
            match s.nsu.queueS with
            | [] => s
            | e :: more => serveHost n (drbgWithEntry op e { s with nsu := { s.nsu with queueS := more } })

/-- A DRBG operation at its point of effect: an entry at once, a random wait, or no entropy asked (R282). -/
def drbgRun (op : Op) (s : State) : State :=
  match drbgRefusal op s with
  | some st => refuse op st s
  | none =>
    if wantsEntropy op then
      serveHost 1 (
        let s1 := setOpSt op.id (.random s.clk.now) s
        if s.nsu.waitS = [] then { s1 with nsu := { s1.nsu with waitS := [op.id] } }
        else { s1 with nsu := { s1.nsu with waitS := s.nsu.waitS ++ [op.id] } })
    else
      match findDrbg s op.obj with
      | none => refuse op .noObject s
      | some d =>
        if op.opcode = 0x44 then
          complete op .ok 0 0 false { s with drb := { s.drb with
            instances := s.drb.instances.filter fun x => x.num != d.num
            freed := s.drb.freed ++ [(d.num, d.inc)]
            autoOrder := s.drb.autoOrder.filter fun m => m != d.num } }
        else if 2 ^ 48 ≤ d.requests then refuse op .notReady s
        else generate op d d.state (drbgInput op s) (d.requests + 1) false s

/-- An automatic reseed takes an entry between two requests, while the queue holds more than 32 and nobody of a higher rank waits
(R269, R283). -/
def autoReseed (s : State) : State :=
  match s.drb.autoOrder, s.nsu.queueS with
  | n :: rest, e :: more =>
    if s.nsu.waitS = [] ∧ internalWantsS s = false ∧ 32 < s.nsu.queueS.length then
      let s1 := modDrbg n (fun d => { d with
        state := drbgReseed d.state e [], requests := 0, reseeds := d.reseeds + 1, auto := false }) s
      { s1 with nsu := { s1.nsu with queueS := more }, drb := { s1.drb with autoOrder := rest } }
    else s
  | _, _ => s

/-- The fields of a DRBG operation: lengths, reserved bits, aligned buffers, address 0 with length 0 (R280). -/
def drbgFields (op : Op) : Bool :=
  let input (len : Nat) (buffer : W64) : Bool :=
    decide (len ≤ 64) && bufferAligned buffer && (decide (len ≠ 0) || decide (buffer = 0))
  match op.opcode with
  | 0x41 => fieldsFree op 0 0x7F 0 allBits && input (opBits op.a 0 7) op.c
  | 0x42 =>
    fieldsFree op allObj 0x7F3FFF allBits allBits && decide (1 ≤ opBits op.a 0 13) && decide (opBits op.a 0 13 ≤ 4096) &&
      input (opBits op.a 16 7) op.b && bufferAligned op.c
  | 0x43 => fieldsFree op allObj 0x7F 0 allBits && input (opBits op.a 0 7) op.c
  | _ => fieldsFree op allObj 0 0 0

/-- Rows 1 to 3 of R281 (R277). -/
def drbgGate (op : Op) (s : State) : Option Status :=
  match gate op (s.ready.random || !wantsEntropy op) s with
  | some st => some st
  | none => if drbgFields op then none else some .badField

/-- Once per powered-on day an ACTIVE source is exchanged, at the next entry window boundary, for a SPARE of its role with fewer alarms
today, unless a source of the role is DRAINED (R273). -/
def exchangeSource (s : State) : State :=
  if s.int.posec / 86400 + 1 ≤ s.nsu.exchangeDay then s
  else
    let able := s.nsu.sources.filter fun x =>
      decide (x.st = .active) && x.switchDue.isNone &&
        !(s.nsu.sources.any fun y => sameRole y.code x.code && decide (y.st = .drained)) &&
        (match spareFor s x.code with | some y => decide (y.today < x.today) | none => false)
    match maxBy (fun x => x.today) able with
    | none => s
    | some x =>
      match spareFor s x.code with
      | none => s
      | some y =>
        let s1 := modSource x.code (fun z => { z with swap := some y.code }) s
        { s1 with nsu := { s1.nsu with exchangeDay := s.int.posec / 86400 + 1 } }

end Sys2Proof.Machine
end

