-- ==== Sys2Proof/Machine/Line.lean ====
section
/-!
DEFINITION. The halyard line: how answers are sensed and read, what HYC puts on the line, and the MACs of tags
(spec/08_halyard_line.md R203-R227; spec/09_halyard_chains.md R243).
-/
namespace Sys2Proof.Machine

/-! ### Reading an answer (R217, R226) -/

/-- The line results of R226. -/
inductive LineRes where
  | good | silent | truncated | symbol | collision | parity | crc | baselineStep | overcurrent | pattern | portDown
deriving DecidableEq, Repr

/-- The code of a line result (R226). -/
def lineCode : LineRes → Nat
  | .good => 0
  | .silent => 1
  | .truncated => 2
  | .symbol => 3
  | .collision => 4
  | .parity => 5
  | .crc => 6
  | .baselineStep => 7
  | .overcurrent => 8
  | .pattern => 9
  | .portDown => 10

/-- The sensed current's baselines in µA, as fractions: of the turnaround, and as it stands after the bits so far (R217). -/
structure Baseline where
  num0 : Nat
  den0 : Nat
  num : Nat
  den : Nat
deriving DecidableEq, Repr

/-- The baseline of a turnaround: the mean of its samples (R217). -/
def baselineOf (turnaround : List Nat) : Baseline :=
  let sum := turnaround.foldl (fun n x => n + x) 0
  let count := max 1 turnaround.length
  ⟨sum, count, sum, count⟩

/-- A sample lies above the baseline by more than so many µA. -/
def Baseline.above (b : Baseline) (by_ sample : Nat) : Bool := decide (b.num + by_ * b.den < sample * b.den)

/-- The baseline moves 1/8 of the way towards the mean of the half that held no pulse (R217). -/
def Baseline.moved (b : Baseline) (half : List Nat) : Baseline :=
  if half = [] then b
  else { b with num := 7 * b.num * half.length + half.foldl (fun n x => n + x) 0 * b.den, den := 8 * b.den * half.length }

/-- The per-bit baseline differs from the turnaround's by more than 0.4 mA (R217). -/
def Baseline.stepped (b : Baseline) : Bool :=
  decide (400 * b.den * b.den0 < distance (b.num * b.den0) (b.num0 * b.den))

/-- Samples of a half above the baseline + 1.5 mA, by their places in it (R217). -/
def pulseIn (b : Baseline) (half : List Nat) : List Nat :=
  ((List.range half.length).zip half).filterMap fun x => if b.above 1500 x.2 then some x.1 else none

/-- The next slot's start in half samples: a bit's slot is 128 of them, shifted by the offset of the pulse's centre from the middle of its
half, by 16 at most; the centre lies between the first and the last sample of the pulse (R217).
(DEDUCED: notes/assumptions/26.md) -/
def nextGrid (grid : Nat) (late : Bool) (pulse : List Nat) : Nat :=
  match pulse.head?, pulse.getLast? with
  | some f, some l =>
    let from_ := 2 * (grid / 2 + if late then 32 else 0)
    max (grid + 112) (min (grid + 144) (grid + 128 + (from_ + f + l + 1) - (grid + if late then 96 else 32)))
  | _, _ => grid + 128

/-- A bit slot that starts at `grid` half samples after the mark: the bit with the slot grid and the baseline after it, or the result that
stops the answer; a silent slot is SILENT here (R217). (DEDUCED: notes/assumptions/26.md) -/
def readSlot (b : Baseline) (grid : Nat) (samples : List Nat) : Except LineRes (Bool × Nat × Baseline) :=
  let early := (samples.drop (grid / 2)).take 32
  let late := (samples.drop (grid / 2 + 32)).take 32
  let inEarly := pulseIn b early
  let inLate := pulseIn b late
  if (early ++ late).any (b.above 4500) then .error .collision
  else if 8 ≤ inEarly.length ∧ inLate.length ≤ 4 then .ok (false, nextGrid grid false inEarly, b.moved late)
  else if 8 ≤ inLate.length ∧ inEarly.length ≤ 4 then .ok (true, nextGrid grid true inLate, b.moved early)
  else if inEarly.length ≤ 4 ∧ inLate.length ≤ 4 then .error .silent
  else .error .symbol

/-- `n` bit slots of one byte, bit 0 first, with the baseline after them. A silent slot ends the answer: SILENT where nothing had been
decoded, TRUNCATED after that (R215, R217, R218, R226). -/
def readBits : Nat → Bool → Nat → List Nat → Baseline → Except LineRes Nat × Baseline
  | 0, _, _, _, b => (.ok 0, b)
  | n + 1, some_, grid, samples, b =>
    match readSlot b grid samples with
    | .error .silent => (.error (if some_ then .truncated else .silent), b)
    | .error r => (.error r, b)
    | .ok (bit_, grid1, b1) =>
      if b1.stepped then (.error .baselineStep, b1)
      else
        match readBits n true grid1 samples b1 with
        | (.error r, b2) => (.error r, b2)
        | (.ok v, b2) => (.ok (bit bit_ + 2 * v), b2)

/-- One uplink byte behind its mark, at which the slot grid restarts (R215, R217). -/
def readByte (some_ : Bool) (samples : List Nat) (b : Baseline) : Except LineRes Nat × Baseline := readBits 8 some_ 0 samples b

/-- `n` uplink bytes; bytes not given are silent (R215). -/
def readBytes : Nat → Bool → List (List Nat) → Baseline → Except LineRes (List Byte)
  | 0, _, _, _ => .ok []
  | n + 1, some_, bytes, b =>
    match readByte some_ (nthOr [] 0 bytes) b with
    | (.error r, _) => .error r
    | (.ok v, b1) =>
      match readBytes n true (bytes.drop 1) b1 with
      | .error r => .error r
      | .ok bs => .ok (BitVec.ofNat 8 v :: bs)

/-- The marks the F840 puts on the line for an answer of `n` bytes: it ends the answer after a silent bit slot (R215, R218). -/
def marksSent : Nat → Bool → List (List Nat) → Baseline → Nat
  | 0, _, _, _ => 0
  | n + 1, some_, bytes, b =>
    match readByte some_ (nthOr [] 0 bytes) b with
    | (.error .silent, _) => 1
    | (.error .truncated, _) => 1
    | (_, b1) => marksSent n true (bytes.drop 1) b1 + 1

/-- The CRC of an uplink frame fits: its last two bytes, low byte first, over those before them (R219). -/
def crcFits (bs : List Byte) : Bool :=
  decide (leNat (bs.drop (bs.length - 2)) = crc16 (bs.take (bs.length - 2)))

/-- An answer of `n` bytes: its bytes before the CRC, or its line result (R219, R226). -/
def readAnswer (n : Nat) (up : Uplink) : Except LineRes (List Byte) :=
  match readBytes n false up.bytes (baselineOf up.turnaround) with
  | .error r => .error r
  | .ok bs => if crcFits bs then .ok (bs.take (n - 2)) else .error .crc

/-- Odd parity: the ones of a byte are odd in number (R224). -/
def oddOnes (v : Nat) : Bool := ((List.range 8).filter fun i => bitsOf v i 1 == 1).length % 2 == 1

/-- A STATUS slot byte: marker 0b01 and odd parity over [6:0] in [7] (R224). -/
def slotByteFits (v : Nat) : Bool := oddOnes v && bitsOf v 5 2 == 1

/-- A read byte that is no STATUS slot byte is PARITY (R224, R226). -/
def checkSlot : Except LineRes Nat → Except LineRes Nat
  | .error r => .error r
  | .ok v => if slotByteFits v then .ok v else .error .parity

/-- The presence slot: GOOD for 0x96, PATTERN for any other byte (R224, R226). -/
def checkPresence : Except LineRes Nat → LineRes
  | .error r => r
  | .ok v => if v = 0x96 then .good else .pattern

/-- The slots of a sweep in order, each with its own result, and the baseline after them (R226). -/
def readSlots : Nat → List (List Nat) → Baseline → List (Except LineRes Nat) × Baseline
  | 0, _, b => ([], b)
  | n + 1, bytes, b =>
    let (r, b1) := readByte false (nthOr [] 0 bytes) b
    let (rest, b2) := readSlots n (bytes.drop 1) b1
    (checkSlot r :: rest, b2)

/-- The slot bytes of a sweep over `n` positions (R224). -/
def sweepBytes (n : Nat) (up : Uplink) : List (Except LineRes Nat) := (readSlots n up.bytes (baselineOf up.turnaround)).1

/-- The results of a sweep over `n` positions (R226); slots not given are silent. -/
def readSweep (n : Nat) (up : Uplink) (presence : List Nat) : SweepRes :=
  let (slots, b) := readSlots n up.bytes (baselineOf up.turnaround)
  { slots := slots.map fun r => match r with | .ok _ => 0 | .error e => lineCode e
    presence := lineCode (checkPresence (readByte false presence b).1) }

/-! ### Frames and transfers (R209-R213, R220, R225) -/

/-- T_b in CLK. -/
def tBit : Nat := 4096

/-- A command frame: code, position, payload, CRC (R220). -/
def frameOf (code pos : Nat) (payload : List Byte) : List Byte :=
  let body := leBytes 1 code ++ leBytes 1 pos ++ payload
  body ++ leBytes 2 (crc16 body)

/-- Width of the COMMAND trigger (R213). -/
def commandTrigger : Nat := 98304

/-- Width of the STATUS trigger (R213). -/
def statusTrigger : Nat := 12288

/-- Width of the IDENTITY trigger (R213). -/
def identityTrigger : Nat := 24576

/-- Width of the CHAIN_RESET trigger (R213). -/
def resetTrigger : Nat := 196608

/-- CLK a transfer occupies the line up to the end of its trigger or frame: lead-in, trigger, the 3 T_b before a frame, and after a
CHAIN_RESET the 4 T_b of high line (R211, R213, R214, R220, R223, R225). -/
def txLength (x : Tx) : Nat :=
  (if x.leadIn then 4 * tBit else 0) + x.trigger + (if x.trigger = resetTrigger then 4 * tBit else 0) +
    (if x.frame = [] then 0 else 3 * tBit + 8 * tBit * x.frame.length)

/-- The transitions of biphase-mark bits from a moment on: every bit begins with one, and a 1 has a second at mid-bit (R209). -/
def biphase : Nat → List Bool → List Nat
  | _, [] => []
  | t, b :: bs => t :: ((if b then [t + tBit / 2] else []) ++ biphase (t + tBit) bs)

/-- The bits of a frame in the order sent: ascending offset, least significant first (R209). -/
def frameBits (bs : List Byte) : List Bool := bs.flatMap fun b => (List.range 8).map fun i => b.getLsbD i

/-- The transitions of a frame that starts on a high line: after its last bit the line is set high (R209). -/
def frameWave (t : Nat) (bs : List Byte) : List Nat :=
  let edges := biphase t (frameBits bs)
  if edges.length % 2 = 1 then edges ++ [t + 8 * tBit * bs.length] else edges

/-- The transitions of a transfer: the lead-in's four 0 bits, the trigger's low, and the frame (R209, R211, R213). -/
def txWave (t : Nat) (x : Tx) : List Nat :=
  let t1 := if x.leadIn then t + 4 * tBit else t
  (if x.leadIn then biphase t [false, false, false, false] else []) ++
    (if x.trigger = 0 then [] else [t1, t1 + x.trigger]) ++
    (if x.frame = [] then [] else frameWave (t1 + x.trigger + 3 * tBit) x.frame)

/-- The transitions of several transfers, one after another. -/
def txsWave : Nat → List Tx → List Nat
  | _, [] => []
  | t, x :: rest => txWave t x ++ txsWave (t + txLength x) rest

/-- The slot marks of so many uplink bytes: a low of 0.5 T_b, then eight bit slots (R215). -/
def slotMarks (t n : Nat) : List Nat :=
  (List.range n).flatMap fun i => [t + i * (17 * tBit / 2), t + i * (17 * tBit / 2) + tBit / 2]

/-- The presence mark: a low of 1.5 T_b (R215). -/
def presenceMark (t : Nat) : List Nat := [t, t + 3 * tBit / 2]

/-- A port of the halyards. -/
def findPort (s : State) (p : Nat) : Option Port := s.hyc.ports.find? fun x => x.num == p

/-- A port changed. -/
def modPort (p : Nat) (f : Port → Port) (s : State) : State :=
  { s with hyc := { s.hyc with ports := modWhere (fun x => x.num == p) f s.hyc.ports } }

/-- A trigger needs a lead-in: the port has sent nothing within 256 T_b, or nothing since CHARGING or a resume (R212). -/
def needsLeadIn (s : State) (x : Port) : Bool :=
  match x.lastTx with
  | none => true
  | some t => decide (t + 256 * tBit < s.clk.now)

/-- HYC puts transfers on the line, the first trigger with its lead-in where R212 asks for one. -/
def sendTx (p : Nat) (txs : List Tx) (s : State) : State :=
  match findPort s p with
  | none => s
  | some x =>
    let out := match txs with
      | y :: rest => { y with leadIn := decide (y.trigger ≠ 0) && needsLeadIn s x } :: rest
      | [] => []
    let stop := out.foldl (fun t y => t + txLength y) s.clk.now
    modPort p (fun y => { y with
      tx := out, lastTx := some stop
      wave := (y.wave.filter fun e => decide (s.clk.now ≤ e + 1024 * tBit)) ++ txsWave s.clk.now out }) s

/-- The marks of an answer phase that began so many T_b after the end of the last trigger or frame: one for each byte, and the presence
mark of a sweep (R213, R215, R220, R224). -/
def sendMarks (p gap n : Nat) (presence : Bool) (s : State) : State :=
  modPort p (fun x =>
    let t := (x.lastTx.getD 0) + gap * tBit
    { x with wave := x.wave ++ slotMarks t n ++ (if presence then presenceMark (t + n * (17 * tBit / 2)) else []) }) s

/-- A frame behind a COMMAND trigger. -/
def commandTx (frame : List Byte) : Tx := ⟨false, commandTrigger, frame⟩

/-! ### Tag keys and MACs (R243) -/

/-- A 128-bit value as its 16 bytes, byte 0 holding bits [7:0] (R7). -/
def bytes16 (v : W128) : List Byte := leBytes 16 v.toNat

/-- The first 8 bytes of a CMAC (R243). -/
def mac8 (key : W128) (input : List Byte) : List Byte := (cmacBytes (bytes16 key) input).take 8

/-- The tag key of a serial and family under a family key (R243). -/
def tagKey (familyKey : W128) (serial : W64) (family : W16) : W128 :=
  BitVec.ofNat 128 (leNat (cmacBytes (bytes16 familyKey) (leBytes 8 serial.toNat ++ leBytes 2 family.toNat)))

/-- The MAC of an AUTH answer (R243). -/
def authMac (key : W128) (challenge : W128) (serial : W64) (count : Nat) : List Byte :=
  mac8 key ([0x13] ++ bytes16 challenge ++ leBytes 8 serial.toNat ++ leBytes 4 count)

/-- The MAC of a CONSUME answer (R243). -/
def consumeMac (key : W128) (challenge : W128) (serial : W64) (n old new : Nat) : List Byte :=
  mac8 key ([0x14] ++ bytes16 challenge ++ leBytes 8 serial.toNat ++ leBytes 4 n ++ leBytes 4 old ++ leBytes 4 new)

/-- The MAC of a READ_LIMIT answer (R243). -/
def limitMac (key : W128) (challenge : W128) (serial : W64) (limit : Nat) : List Byte :=
  mac8 key ([0x15] ++ bytes16 challenge ++ leBytes 8 serial.toNat ++ leBytes 4 limit)

/-! ### Challenges (R244, R245, R277) -/

/-- Challenges are built from the counter: READY.RANDOM has not been set in this start, or class H has neither an active source
nor an entry (R277). -/
def counterChallenges (s : State) : Bool :=
  !s.nsu.everReady ||
    (s.nsu.queueH.isEmpty && !(s.nsu.sources.any fun x => !isClassS x.code && decide (x.st = .active)))

/-- The challenge of a counter value: the serial and the value, enciphered under the challenge key (R245). -/
def builtChallenge (s : State) (count : W64) : W128 :=
  BitVec.ofNat 128 (leNat (ofNats (aes (toNats (leBytes 32 (s.keys.challenge.getD 0).toNat))
    (toNats (leBytes 8 s.fuse.serial.toNat ++ leBytes 8 count.toNat)))))

/-- The challenge counter raised by 1, stopping at 2^64 − 1 (R94, R245). -/
def nextChallengeCount (s : State) : W64 := if s.int.challenge.toNat = maxV then s.int.challenge else s.int.challenge + 1

/-- A challenge, where one can be had now: from the counter once its STRICT place is admitted, or from the oldest class H entry
(R94, R244, R245). (DESIGN CHOICE: notes/assumptions/27.md) -/
def takeChallenge (earlier : List Need) (s : State) : Option (W128 × State) :=
  if counterChallenges s then
    if admits earlier ⟨slotsNeeded .challenge s, 0, true⟩ s then
      let c := nextChallengeCount s
      some (builtChallenge s c, owe .challenge { s with int := { s.int with challenge := c } })
    else none
  else
    match s.nsu.queueH with
    | e :: rest => some (BitVec.truncate 128 e, { s with nsu := { s.nsu with queueH := rest } })
    | [] => none

/-! ### Side messages (R252-R254) -/

/-- The number that bits spell, the first one least significant (R252). -/
def bitsNat : List Bool → Nat
  | [] => 0
  | b :: bs => bit b + 2 * bitsNat bs

/-- The 8 bytes of 64 side bits, given oldest first (R252). -/
def sideBytes (oldest : List Bool) : List Byte :=
  (List.range 8).map fun i => BitVec.ofNat 8 (bitsNat ((oldest.drop (8 * i)).take 8))

/-- Held side bits, newest first, form a message: the sync 0x7E, then a payload with its CRC-8 (R252, R254). -/
def sideMessage (held : List Bool) : Option (List Byte) :=
  match sideBytes held.reverse with
  | sync :: rest =>
    if held.length = 64 ∧ sync = 0x7E ∧ crc8 (rest.take 6) = leNat (rest.drop 6) then some (rest.take 6) else none
  | [] => none

/-- A position takes one more side bit; after an accepted message the next check comes 64 bits later (R254). -/
def takeSideBit (b : Bool) (now : Nat) (x : Pos) : Pos :=
  let held := (b :: x.sideBits).take 64
  let wait := x.sideWait - 1
  if wait ≠ 0 then { x with sideBits := held, sideWait := wait }
  else
    match sideMessage held with
    | some payload => { x with sideBits := held, sideWait := 64, side := some (payload, now) }
    | none => { x with sideBits := held, sideWait := 0 }

/-- Whether the bit brought a message that was accepted now. -/
def sideNew (before after : Pos) : Bool := decide (after.side ≠ before.side)

/-- A signed byte as the distance above −128, so that a larger one is a higher temperature. -/
def signedKey (b : Byte) : Nat := (b.toNat + 128) % 256

/-- The day's highest tag temperature and lowest storage margin take an accepted message (R254, R316). -/
def noteSide (payload : List Byte) (s : State) : State :=
  let temp := nthOr 0 0 payload
  let margin := (nthOr 0 1 payload).toNat
  { s with hyc := { s.hyc with
      tagTemp := match s.hyc.tagTemp with
        | some t => some (if signedKey t < signedKey temp then temp else t)
        | none => some temp
      tagMargin := match s.hyc.tagMargin with
        | some m => some (min m margin)
        | none => some margin } }

end Sys2Proof.Machine
end

