-- ==== Sys2Proof/Machine/Needs.lean ====
section
/-!
DEFINITION. What each operation in an energy wait still needs (spec/03_counters.md R87), and the mirror table by serial
(spec/09_halyard_chains.md R248-R250).
-/
namespace Sys2Proof.Machine

/-! ### Mirrors by serial (R249) -/

/-- The mirror of a serial, if the table holds one. -/
def mirrorOf (s : State) (serial : W64) : Option Mirror := s.hyc.mirrors.find? fun m => decide (m.serial = serial)

/-- The entry a new serial takes: the lowest free index, else the one whose last good AUTH is oldest, not present and not latched,
else the oldest latched one (R249). -/
def newMirrorIndex (s : State) : Nat :=
  match (if s.hyc.mirrors.length < 4096 then
      (List.range (s.hyc.mirrors.length + 1)).find? fun i => !(s.hyc.mirrors.any fun m => m.idx == i)
    else none) with
  | some i => i
  | none =>
    match minBy (fun m => m.posec) (s.hyc.mirrors.filter fun m => !m.present && !m.anomaly) with
    | some m => m.idx
    | none =>
      match minBy (fun m => m.posec) (s.hyc.mirrors.filter fun m => !m.present) with
      | some m => m.idx
      | none => 0

/-- The index of a serial's entry, or the one it would take. -/
def mirrorIndex (s : State) (serial : W64) : Nat :=
  match mirrorOf s serial with
  | some m => m.idx
  | none => newMirrorIndex s

/-- The STRICT places of a change of a serial's mirror (R135, R248). -/
def mirrorNeed (s : State) (serial : W64) : Need := ⟨slotsNeeded (.mirror (mirrorIndex s serial)) s, 0, true⟩

/-! ### Needs of waiting operations (R87) -/

/-- The port and the position an operation names (R255). -/
def opPort (op : Op) : Nat := op.obj.toNat % 256

/-- The position an operation names (R255). -/
def opPos (op : Op) : Nat := op.obj.toNat / 256 % 256

/-- The tag at a position of a port. -/
def findPos (x : Port) (i : Nat) : Option Pos := x.pos.find? fun y => y.idx == i

/-- The tag a tag operation names, while its port holds it. -/
def opTag (s : State) (op : Op) : Option Pos :=
  match findPort s (opPort op) with
  | some x => findPos x (opPos op)
  | none => none

/-- The plan of an operation on counters, key identifiers or pages at its point of effect. -/
def objectPlan (op : Op) (s : State) : Except Status Plan :=
  if op.opcode < 0x20 ∨ op.opcode = 0x25 then ctrPlan op s
  else if op.opcode < 0x30 then kidPlan op s
  else paramPlan op s

/-- What an operation in an energy wait still needs (R87). -/
def opNeed (op : Op) (s : State) : Need :=
  if op.opcode = 0x08 then ⟨slotsNeeded .antiRoll s, 0, true⟩
  else if op.opcode = 0x31 ∨ op.opcode = 0x32 then
    match opTag s op with
    | some x => mirrorNeed s x.serial
    | none => noNeed
  else
    match objectPlan op s with
    | .ok p => p.need
    | .error _ => noNeed

/-- An operation stands in an energy wait. -/
def inEnergyWait (op : Op) : Bool :=
  match op.st with
  | .energy _ => true
  | _ => false

/-- The needs of the operations in an energy wait, in the order in which they entered it (R87). -/
def waitingNeeds (s : State) : List Need :=
  s.hif.energyOrder.filterMap fun k =>
    match findOp s k with
    | some op => if inEnergyWait op then some (opNeed op s) else none
    | none => none

end Sys2Proof.Machine
end

