-- ==== Sys2Proof/Machine/Chains.lean ====
section
/-!
DEFINITION. HYC: ports, the choice of a port's next transfer, slates, sweeps, exchanges with tags and the mirror rules
(spec/08_halyard_line.md R205, R227; spec/09_halyard_chains.md R228-R261).
-/
namespace Sys2Proof.Machine

/-! ### Ports (R205, R363, R364) -/

/-- The port's enable bit (R363). -/
def portEnabled (s : State) (p : Nat) : Bool :=
  if p < 32 then s.regs.portLo.getLsbD p else s.regs.portHi.getLsbD (p - 32)

/-- The sweep period in CLK, rounded up (R237, R364). -/
def sweepPeriod (s : State) : Nat := (bitsOf s.regs.halyardCfg.toNat 0 8 * second + 999) / 1000

/-- The re-authentication period in CLK, rounded up (R237, R364). -/
def authPeriod (s : State) : Nat := (100 * bitsOf s.regs.halyardCfg.toNat 8 8 * second + 999) / 1000

/-- Ports can be powered: the session is open and no flush has begun in it (R148, R301). -/
def portsPowered (s : State) : Bool := decide (s.pmu.phase = .running) && !s.flush.begun

/-- A position of a port changed. -/
def modPos (p i : Nat) (f : Pos → Pos) (s : State) : State :=
  modPort p (fun x => { x with pos := modWhere (fun y => y.idx == i) f x.pos }) s

/-- The tag at a position of a port. -/
def posAt (s : State) (p i : Nat) : Option Pos :=
  match findPort s p with
  | some x => findPos x i
  | none => none

/-- The port's sequencer does this next. -/
def setAct (p : Nat) (a : Act) (s : State) : State := modPort p (fun x => { x with act := a }) s

/-- The code of a port state (R255). -/
def portCode : PortSt → Nat
  | .off => 0
  | .charging => 1
  | .on => 2
  | .fault => 3

/-- The port enters CHARGING: nothing has been sent on it since (R205, R212). -/
def chargePort (p : Nat) (s : State) : State :=
  modPort p (fun x => { x with st := .charging, since := s.clk.now, lastTx := none, tx := [], wave := [] }) s

/-- An OFF port that is enabled, not held OFF, and can be powered goes to CHARGING (R205). -/
def tryCharge (p : Nat) (s : State) : State :=
  match findPort s p with
  | some x => if x.st = .off ∧ portEnabled s p = true ∧ x.held = false ∧ portsPowered s = true then chargePort p s else s
  | none => s

/-- The port goes OFF when its transfer ends (R205, R227). -/
def isLeaving (s : State) (p : Nat) : Bool :=
  match findPort s p with
  | some x => x.leaving
  | none => false

/-- READY.HALYARD sets once every port enabled at READY.COUNTERS has ended its first slate series (R258, R306). -/
def checkHalyard (s : State) : State :=
  if s.ready.counters && !s.ready.halyard && !(s.hyc.ports.any fun x => x.firstDue) && decide (s.pmu.phase = .running) then
    setReady (fun y => { y with halyard := true }) s
  else s

/-! ### Events (R260) -/

/-- TAG_AUTH_FAIL of a position (R260). -/
def postAuthFail (p i reason : Nat) (s : State) : State :=
  match findPort s p, posAt s p i with
  | some x, some y =>
    postEvent .tagAuthFail (p + 256 * i)
      (leBytes 8 (if y.known then y.serial.toNat else 0) ++ leBytes 2 y.family.toNat ++ leBytes 1 reason ++ leBytes 1 0 ++
        leBytes 4 x.epoch.toNat) s
  | _, _ => s

/-- A bitmap of positions (R255, R260). -/
def posMap (is : List Nat) : Nat := is.foldl (fun n i => n + 2 ^ (i - 1)) 0

/-- UNPLUG of the positions lost, the first of them in the object (R234, R260). -/
def postUnplug (p : Nat) (lost : List Nat) (oldEpoch newEpoch : W32) (reason : Nat) (s : State) : State :=
  match lost with
  | [] => s
  | i :: _ =>
    postEvent .unplug (p + 256 * i)
      (leBytes 4 oldEpoch.toNat ++ leBytes 4 newEpoch.toNat ++ leBytes 2 (posMap lost) ++ leBytes 1 reason) s

/-- PORT_FAULT of a port (R260). -/
def postPortFault (p cause res takes pos : Nat) (s : State) : State :=
  match findPort s p with
  | some x =>
    postEvent .portFault p
      (leBytes 1 cause ++ leBytes 1 res ++ leBytes 1 takes ++ leBytes 1 0 ++ leBytes 1 pos ++ leBytes 3 0 ++
        leBytes 4 x.epoch.toNat) s
  | none => s

/-- PLUG of a position with its flags (R234, R260). -/
def postPlug (p : Nat) (y : Pos) (flags : Nat) (s : State) : State :=
  match findPort s p with
  | some x =>
    postEvent .plug (p + 256 * y.idx)
      (leBytes 8 y.serial.toNat ++ leBytes 2 y.family.toNat ++ leBytes 1 flags ++ leBytes 1 0 ++ leBytes 4 x.epoch.toNat) s
  | none => s

/-! ### The mirror table (R248-R251) -/

/-- A mirror entry set. -/
def putMirror (m : Mirror) (s : State) : State :=
  { s with hyc := { s.hyc with
      mirrors := insertBy (fun x => x.idx) m (s.hyc.mirrors.filter fun x => x.idx != m.idx) } }

/-- The mirror of a tag, or the entry its first sight takes, with the count just proved (R249). -/
def mirrorFor (y : Pos) (c : Nat) (s : State) : Mirror :=
  match mirrorOf s y.serial with
  | some m => m
  | none =>
    { idx := newMirrorIndex s, serial := y.serial, family := y.family, count := c, inserted := 0, calendar := 0, limit := 0
      posec := 0, inexact := false, anomaly := false, exhausted := false, present := false, port := 0, position := 0
      limitKnown := false, used := 0, lastGood := 0 }

/-- The position is de-authenticated: it is re-authenticated no more until a slate identifies it anew (R239). -/
def deauth (p i : Nat) (s : State) : State :=
  modPort p (fun x => { x with authWants := x.authWants.filter fun j => j != i })
    (modPos p i (fun y => { y with authed := false, plug := none }) s)

/-- A tag that has proved a count holds its position: its mirror says so, unless it names another position that it still holds
(R251, R261). -/
def holdPlace (p i : Nat) (m : Mirror) (s : State) : Mirror :=
  if m.present && !s.hyc.clearing.contains m.idx then m else { m with present := true, port := p, position := i - 1 }

/-- A mirror that clears its present flag no more (R251). -/
def keepPresent (idx : Nat) (s : State) : State :=
  { s with hyc := { s.hyc with clearing := s.hyc.clearing.filter fun k => k != idx } }

/-- The mirror refuses a verified count: its anomaly flag is latched, or the count has gone back (R248). -/
def isAnomaly (m : Mirror) (c : Nat) : Bool := m.anomaly || decide (c < m.count)

/-- The mirror after a verified count (R248, R251, R259). -/
def countedMirror (p i c : Nat) (m : Mirror) (s : State) : Mirror :=
  let h := holdPlace p i m s
  if isAnomaly m c then { h with anomaly := true }
  else { h with count := c, used := c, lastGood := s.clk.now, inexact := false, calendar := calendar s
                posec := s.int.posec % 2 ^ 32 }

/-- R248 on a verified count: false where it is an anomaly. (DEDUCED: notes/assumptions/23.md) -/
def applyCount (p i c : Nat) (s : State) : Bool × State :=
  match posAt s p i with
  | none => (false, s)
  | some y =>
    let m := mirrorFor y c s
    let m1 := countedMirror p i c m s
    if isAnomaly m c then
      let s1 := if m1 = m then s else owe (.mirror m.idx) (putMirror m1 (keepPresent m.idx s))
      (false, deauth p i (postEvent .tagCountAnomaly (p + 256 * i)
        (leBytes 8 y.serial.toNat ++ leBytes 4 c ++ leBytes 4 m.count) s1))
    else
      (true, modPos p i (fun y => { y with authDue := s.clk.now + authPeriod s })
        (owe (.mirror m.idx) (putMirror m1 (keepPresent m.idx s))))

/-- The slate that runs was started by a sweep or under R239, and its predecessor held this serial here (R234). -/
def plugExempt (x : Port) (y : Pos) : Bool :=
  match x.series with
  | some se =>
    (decide (se.why = .sweep) || decide (se.why = .auth)) &&
      se.old.any fun o => o.idx == y.idx && o.known && decide (o.serial = y.serial)
  | none => false

/-- An identification ends well, its count applied: the present flag and place, the limit, the insertion count and the flags of the PLUG to
come (R233, R234, R249-R251). -/
def applyIdent (p i : Nat) (first inexact : Bool) (limit : Option Nat) (s : State) : State :=
  match findPort s p, posAt s p i with
  | some x, some y =>
    let m := mirrorFor y 0 s
    let found := x.refind.contains (i, y.serial)
    let exempt := plugExempt x y
    let counted := !found && !exempt
    let m' := { m with
      present := true, port := p, position := i - 1
      inserted := if counted then min maxV (m.inserted + 1) else m.inserted
      limit := match limit with | some v => v | none => m.limit
      limitKnown := m.limitKnown || limit.isSome }
    let flags := bit counted + 2 * bit first + 4 * bit found + 8 * bit inexact
    let s1 := owe (.mirror m.idx) (putMirror m' (keepPresent m.idx s))
    modPos p i (fun y => { y with authed := true, plug := if exempt then none else some flags })
      { s1 with hyc := { s1.hyc with inserted := s1.hyc.inserted + bit counted } }
  | _, _ => s

/-- A mirror's flags or limit change (R250, R251, R257). -/
def changeMirror (serial : W64) (f : Mirror → Mirror) (s : State) : State :=
  match mirrorOf s serial with
  | some m => owe (.mirror m.idx) (putMirror (f m) s)
  | none => s

/-- A position, of whichever port, that holds a serial. -/
def holderOf (s : State) (serial : W64) : Option (Nat × Nat) :=
  s.hyc.ports.findSome? fun x => (x.pos.find? fun y => y.known && decide (y.serial = serial)).map fun y => (x.num, y.idx)

/-- The tag has left its place: its present flag is cleared, or the entry names another position that holds its serial
(R251, R261). -/
def leftPlace (s : State) (m : Mirror) : Mirror :=
  match holderOf s m.serial with
  | some (p, i) => { m with present := true, port := p, position := i - 1 }
  | none => { m with present := false }

/-- The present flag of an entry is cleared, now or once its places are admitted (R24, R251). (DEDUCED: notes/assumptions/29.md) -/
def clearPresent (idx : Nat) (s : State) : State :=
  if admits (waitingNeeds s) ⟨slotsNeeded (.mirror idx) s, 0, true⟩ s then
    keepPresent idx (owe (.mirror idx) (modMirror idx (leftPlace s) s))
  else if s.hyc.clearing.contains idx then s
  else { s with hyc := { s.hyc with clearing := s.hyc.clearing ++ [idx] } }

/-- Present flags that wait to be cleared are tried again. -/
def retryClearing (s : State) : State := s.hyc.clearing.foldl (fun s i => clearPresent i s) s

/-- The tags of a port that its slate no longer holds are present no more (R251). -/
def dropPresent (p : Nat) (keep : List W64) (s : State) : State :=
  (s.hyc.mirrors.filter fun m => m.present && m.port == p && !keep.contains m.serial).foldl (fun s m => clearPresent m.idx s) s

/-! ### Putting work on the line (R220, R231, R233, R237) -/

/-- An exchange with nothing sent yet. -/
def newExch (kind : XKind) (pos : Nat) (why : Why) : Exch := ⟨kind, pos, why, 1, 0, 0, 1, 0, none⟩

/-- n of a TAG_CONSUME (R255). -/
def consumeN (s : State) (x : Exch) : Nat :=
  match x.why with
  | .consume k =>
    match findOp s k with
    | some op => op.a.toNat
    | none => 0
  | _ => 0

/-- The command frame of an exchange (R220). -/
def exchFrame (s : State) (x : Exch) : List Byte :=
  match x.kind with
  | .select => frameOf 0x11 x.pos []
  | .identity => []
  | .auth => frameOf 0x13 x.pos (bytes16 x.challenge)
  | .consume => frameOf 0x14 x.pos (leBytes 4 (consumeN s x) ++ bytes16 x.challenge)
  | .readLimit => frameOf 0x15 x.pos (bytes16 x.challenge)

/-- The exchange is on the line. -/
def sendExch (p : Nat) (x : Exch) (s : State) : State :=
  let tx : Tx := match x.kind with
    | .identity => ⟨false, identityTrigger, []⟩
    | _ => commandTx (exchFrame s x)
  setAct p (.exch x) (sendTx p [tx] s)

/-- The exchange is sent with a challenge of its own and the tag key in force. -/
def sendWith (p : Nat) (x : Exch) (challenge : W128) (s : State) : State :=
  let key := match posAt s p x.pos with
    | some y => y.key
    | none => 0
  sendExch p { x with challenge := challenge, key := key } s

/-- An exchange begins: SELECT and IDENTITY at once, the others with a challenge, for which the port waits if there is none
(R233, R244, R245). -/
def beginExch (p : Nat) (x : Exch) (s : State) : State :=
  if x.kind = .select ∨ x.kind = .identity then sendExch p x s
  else
    match takeChallenge (waitingNeeds s) s with
    | some (c, s1) => sendWith p x c s1
    | none =>
      let s1 := if counterChallenges s ∨ s.nsu.waitH.contains p = true then s
        else { s with nsu := { s.nsu with waitH := s.nsu.waitH ++ [p] } }
      setAct p (.needChallenge x s.clk.now) s1

/-- A take of the slate begins: CHAIN_RESET, then the COMMAND transfer with ASSIGN naming position 1 (R231). -/
def startTake (p : Nat) (s : State) : State :=
  let s1 := modPort p (fun x => { x with series := x.series.map fun se => { se with take := se.take + 1 } }) s
  setAct p (.assign 0) (sendTx p [⟨false, resetTrigger, []⟩, commandTx (frameOf 0x12 1 [])] s1)

/-- The slate series that is wanted begins (R231, R232). -/
def beginSeries (p : Nat) (s : State) : State :=
  match findPort s p with
  | none => s
  | some x =>
    match x.wanted with
    | none => s
    | some (why, k, ops) =>
      startTake p (modPort p (fun x => { x with
        wanted := none
        series := some { why := why, k := k, take := 0, firstErr := if why = .auth then k + 1 else 0, lastRes := 0, long := false
                         ops := ops, placed := false, old := [], oldEpoch := x.epoch, failed := [] } }) s)

/-- A slate series is wanted; where one runs or waits already, its operations join it (R231, R261). -/
def wantSeries (p : Nat) (why : SlateWhy) (k : Nat) (ops : List Nat) (s : State) : State :=
  modPort p (fun x =>
    match x.series, x.wanted with
    | some se, _ => { x with series := some { se with ops := se.ops ++ ops } }
    | none, some (w, j, os) => { x with wanted := some (w, j, os ++ ops) }
    | none, none => { x with wanted := some (why, k, ops) }) s

/-- A STATUS sweep is on the line; the first of a series takes the due one's place (R237, R240). -/
def startSweep (p : Nat) (earlier : List SweepRes) (s : State) : State :=
  let s1 := if earlier = [] then modPort p (fun x => { x with sweepDue := s.clk.now + sweepPeriod s, sweepWants := false }) s else s
  setAct p (.sweep earlier) (sendTx p [⟨false, statusTrigger, []⟩] s1)

/-! ### Going OFF (R205, R227, R236) -/

/-- The host operation an exchange serves. -/
def exchOp (x : Exch) : Option Nat :=
  match x.why with
  | .host k => some k
  | .consume k => some k
  | _ => none

/-- The exchange a port's sequencer is at. -/
def actExch (a : Act) : Option Exch :=
  match a with
  | .exch x => some x
  | .needChallenge x _ => some x
  | .needPlace x _ => some x
  | .pauseExch x _ => some x
  | _ => none

/-- The host operation a port serves. -/
def actOp (a : Act) : List Nat :=
  match actExch a with
  | some x => (exchOp x).toList
  | none => []

/-- Operations that wait for the port's slate series. -/
def seriesOps (x : Port) : List Nat :=
  (match x.series with | some se => se.ops | none => []) ++ (match x.wanted with | some (_, _, ops) => ops | none => [])

/-- Operations refused with a status, those that still exist. -/
def refuseOps (ks : List Nat) (st : Status) (s : State) : State :=
  ks.foldl (fun s k => match findOp s k with | some op => refuse op st s | none => s) s

/-- The operation is a PORT_POWER. -/
def isPower (s : State) (k : Nat) : Bool :=
  match findOp s k with
  | some op => op.opcode == 0x35
  | none => false

/-- The port has nothing more to do: its series, exchange, queue and wishes are gone; PORT_POWER operations stay queued.
(DESIGN CHOICE: notes/assumptions/25.md) -/
def clearWork (p : Nat) (s : State) : State :=
  let s1 := modPort p (fun x => { x with
    queue := x.queue.filter fun k => isPower s k
    series := none, wanted := none, act := .idle, leaving := false, sweepWants := false, authWants := []
    againWants := [], tx := [] }) s
  { s1 with nsu := { s1.nsu with waitH := s1.nsu.waitH.filter fun q => q != p } }

/-- Every position of the port's slate is lost, with one UNPLUG (R236, R255). -/
def losePositions (p reason : Nat) (s : State) : State :=
  match findPort s p with
  | none => s
  | some x =>
    let s1 := postUnplug p ((List.range x.n).map fun i => i + 1) x.epoch 0 reason s
    dropPresent p [] (modPort p (fun x => { x with pos := [], n := 0, stale := false }) s1)

/-- A PORT_POWER that has been waiting for the port to go OFF completes (R255). -/
def endPowerOff (p : Nat) (s : State) : State :=
  match findPort s p with
  | none => s
  | some x =>
    (s.hif.ops.filter fun op => op.opcode == 0x35 && opPort op == p && decide (op.st = .serving)).foldl
      (fun s op => complete op .ok (BitVec.ofNat 64 (portCode x.st)) (BitVec.zeroExtend 64 x.epoch) false s) s

/-- The port goes OFF, turned off or disabled: the series and the operations on it end, UNPLUG with reason 1 is posted; one enabled again
meanwhile goes on to CHARGING (R205, R236, R255, R258 row 5). -/
def goDown (p : Nat) (s : State) : State :=
  match findPort s p with
  | none => s
  | some x =>
    let ops := actOp x.act ++ seriesOps x ++ x.queue.filter fun k => !isPower s k
    let s1 := losePositions p 1 (clearWork p (refuseOps ops .portOff s))
    let s2 := modPort p (fun x => { x with st := .off, since := s.clk.now, faultCause := 0, firstDue := false, refind := [] }) s1
    tryCharge p (checkHalyard (endPowerOff p s2))

/-- A transfer of the port is on the line. -/
def onLine (a : Act) : Bool :=
  match a with
  | .assign _ | .confirm _ | .sweep _ | .exch _ => true
  | _ => false

/-- PORT_POWER at its point of effect (R255, R256): on charges an enabled OFF port; off takes the port OFF, at the end of a transfer in
progress. -/
def applyPower (op : Op) (p : Nat) (s : State) : State :=
  if op.a.getLsbD 0 ∧ portEnabled s p = false then refuse op .portOff s
  else
    let s1 := if op.qp = 0 then modPort p (fun x => { x with domain := opBits op.a 8 6 }) s else s
    if op.a.getLsbD 0 then
      let s2 := tryCharge p (modPort p (fun x => { x with held := false, shorts := if x.held then [] else x.shorts }) s1)
      match findPort s2 p with
      | some x => complete op .ok (BitVec.ofNat 64 (portCode x.st)) (BitVec.zeroExtend 64 x.epoch) false s2
      | none => s2
    else
      let s2 := setOpSt op.id .serving (modPort p (fun x => { x with held := true }) s1)
      match findPort s2 p with
      | some x => if onLine x.act then modPort p (fun x => { x with leaving := true }) s2 else goDown p s2
      | none => s2

/-! ### The port's next transfer (R237) -/

/-- The oldest operation leaves the port's queue. -/
def dropHead (p : Nat) (s : State) : State := modPort p (fun x => { x with queue := x.queue.drop 1 }) s

/-- The epoch an operation carries (R230). -/
def opEpoch (op : Op) : W32 := BitVec.truncate 32 op.b

/-- The epoch does not fit; TAG_READ and TAG_SIDE also accept 0 (R230). -/
def staleEpoch (op : Op) (x : Port) : Bool :=
  decide (opEpoch op ≠ x.epoch) && !(decide (opEpoch op = 0) && decide (op.opcode = 0x33 ∨ op.opcode = 0x34))

/-- The position is above N or unidentified (R233, R258 row 8). -/
def tagAbsent (op : Op) (x : Port) : Bool :=
  match findPos x (opPos op) with
  | some y => !y.known || decide (x.n < opPos op)
  | none => true

/-- The mirror count of the tag an operation names; 0 without a mirror. -/
def tagCount (op : Op) (s : State) : Nat :=
  match opTag s op with
  | some y =>
    match mirrorOf s y.serial with
    | some m => m.count
    | none => 0
  | none => 0

/-- No key and no model 0x02: the tag cannot be authenticated (R233, R258 row 12). -/
def tagForeign (op : Op) (s : State) : Bool :=
  match opTag s op with
  | some y => decide (y.model ≠ 2) || !(s.hyc.families.any fun f => f.1 == y.family.toNat)
  | none => true

/-- Rows 1 and 6 to 9 of R258, and row 12 where nothing can be sent, at the head of the port's queue (R230). -/
def tagRefusal (op : Op) (x : Port) (s : State) : Option Status :=
  if inSafe s then some .safeState
  else if staleEpoch op x then some .staleEpoch
  else if x.stale then some .tagLineError
  else if tagAbsent op x then some .tagAbsent
  else if op.opcode = 0x32 ∧ 2 ^ 32 - 1 < tagCount op s + op.a.toNat then some .limitReached
  else if tagForeign op s then some .tagAuthFail
  else none

/-- TAG_CONSUME admits its mirror entry, for a serial without one the entry it would take, then sends; without a place it waits at the head
of its port's queue (R87, R249, R257). -/
def startConsume (op : Op) (p : Nat) (s : State) : Bool × State :=
  match opTag s op with
  | none => (false, s)
  | some y =>
    if admits (waitingNeeds s) (mirrorNeed s y.serial) s then
      (true, beginExch p (newExch .consume (opPos op) (.consume op.id)) (setOpSt op.id .serving (dropHead p
        (owe (.mirror (mirrorIndex s y.serial)) s))))
    else (false, enterEnergyWait op s)

/-- The host operation at the head of the port's queue; true if the line is taken (R230, R237, R258). -/
def startHost : Nat → Nat → State → Bool × State
  | 0, _, s => (false, s)
  | n + 1, p, s =>
    match findPort s p with
    | none => (false, s)
    | some x =>
      match x.queue with
      | [] => (false, s)
      | k :: _ =>
        match findOp s k with
        | none => startHost n p (dropHead p s)
        | some op =>
          if op.opcode = 0x35 then startHost n p (applyPower op p (dropHead p s))
          else if x.st ≠ .on then startHost n p (refuse op .portOff (dropHead p s))
          else if inEnergyWait op then (false, s)
          else if op.opcode = 0x30 then
            if inSafe s then startHost n p (refuse op .safeState (dropHead p s))
            else (true, beginSeries p (wantSeries p .host 0 [k] (setOpSt k .serving (dropHead p s))))
          else
            match tagRefusal op x s with
            | some st => startHost n p (refuse op st (dropHead p s))
            | none =>
              if op.opcode = 0x31 then
                (true, beginExch p (newExch .auth (opPos op) (.host k)) (setOpSt k .serving (dropHead p s)))
              else startConsume op p s

/-- The AUTH that fell due first among those wanted, if it is overdue by so much (R237). (DEDUCED: notes/assumptions/70.md) -/
def dueAuth (x : Port) (late : Nat) (s : State) : Option Pos :=
  minBy (fun y => y.authDue) (x.pos.filter fun y =>
    x.authWants.contains y.idx && (y.rekeyed || (y.authed && decide (y.authDue + late ≤ s.clk.now))))

/-- The scheduled AUTH of a position begins (R237). -/
def startAuth (p : Nat) (y : Pos) (s : State) : State :=
  beginExch p (newExch .auth y.idx .sched) (modPort p (fun x => { x with authWants := x.authWants.filter fun j => j != y.idx })
    (modPos p y.idx (fun z => { z with rekeyed := false }) s))

/-- The port holds one of the eight line sequencers: it is on the line or in one of its 5 ms pauses (R237). -/
def holdsSequencer (a : Act) : Bool :=
  onLine a || match a with
    | .pauseExch _ _ | .pauseTake _ | .pauseSweep _ _ => true
    | _ => false

/-- A line sequencer is free (R237). -/
def sequencerFree (s : State) : Bool := decide ((s.hyc.ports.filter fun x => holdsSequencer x.act).length < 8)

/-- The next unidentified position, from `i` on, whose identification is to be repeated (R233). -/
def wantedAgain (x : Port) (i : Nat) : Option Pos := x.pos.find? fun y => !y.known && decide (i ≤ y.idx) && x.againWants.contains y.idx

/-- The port's next transfer, in the order of R237; on a port that is not ON the queued operations end (R258 row 5).
(DEDUCED: notes/assumptions/24.md) -/
def startNext (p : Nat) (s : State) : State :=
  match findPort s p with
  | none => s
  | some x =>
    if x.st ≠ .on then (startHost (x.queue.length + 1) p s).2
    else if x.act ≠ .idle ∨ portsPowered s = false ∨ sequencerFree s = false then s
    else if x.wanted.isSome then beginSeries p s
    else if x.stale then (startHost (x.queue.length + 1) p s).2
    else if x.sweepWants then startSweep p [] s
    else if (wantedAgain x 1).isSome then
      match wantedAgain x 1 with
      | some y => beginExch p (newExch .select y.idx .again) s
      | none => s
    else
      match dueAuth x tenMs s with
      | some y => startAuth p y s
      | none =>
        match startHost (x.queue.length + 1) p s with
        | (true, s1) => s1
        | (false, s1) =>
          match findPort s1 p with
          | none => s1
          | some x1 =>
            if x1.st ≠ .on ∨ x1.act ≠ .idle then s1
            else match dueAuth x1 0 s1 with
              | some y => startAuth p y s1
              | none => s1

/-- The ports in the order in which they are served: those of the sweep list, then the others (R238). -/
def serveOrder (s : State) : List Nat :=
  s.hyc.sweepList ++ (List.range 48).filter fun p => !s.hyc.sweepList.contains p

/-- Idle ports take free sequencers, in the order of the sweep list (R238). (DESIGN CHOICE: notes/assumptions/21.md) -/
def serveAll (s : State) : State := (serveOrder s).foldl (fun s p => startNext p s) s

/-- The port's transfer has ended: it goes OFF if it was told to, and the ports with work go on (R205, R237). -/
def finishAct (p : Nat) (s : State) : State :=
  let s1 := setAct p .idle s
  serveAll (if isLeaving s p then goDown p s1 else s1)

/-- The port goes on with another exchange, unless it goes OFF first (R205). -/
def nextExch (p : Nat) (x : Exch) (s : State) : State :=
  if isLeaving s p then serveAll (goDown p s) else beginExch p x s

/-- The port pauses for 5 ms, unless it goes OFF first (R205, R231). -/
def pauseAct (p : Nat) (a : Act) (s : State) : State := if isLeaving s p then serveAll (goDown p s) else setAct p a s

/-! ### The end of a slate (R233, R234) -/

/-- Serials of the identified positions of a port. -/
def knownSerials (x : Port) : List (Nat × W64) := (x.pos.filter fun y => y.known).map fun y => (y.idx, y.serial)

/-- The PLUGs that positions of the port still owe, in ascending position (R234). -/
def postPlugs (p : Nat) (s : State) : State :=
  match findPort s p with
  | none => s
  | some x =>
    let s1 := x.pos.foldl (fun s y => match y.plug with | some f => postPlug p y f s | none => s) s
    modPort p (fun x => { x with pos := x.pos.map fun y => { y with plug := none } }) s1

/-- A position of the previous good slate is lost: the slate did not find its serial there, or no tag at all where it was unidentified
(R234; DEDUCED: notes/assumptions/29.md). -/
def isLost (x : Port) (o : Pos) : Bool :=
  !(x.pos.any fun y => y.idx == o.idx && (!o.known || (y.known && decide (y.serial = o.serial))))

/-- The series has succeeded: UNPLUG, then the PLUGs, then the HY_SLATE completions (R234, R255). -/
def concludeSlate (p : Nat) (s : State) : State :=
  match findPort s p with
  | none => s
  | some x =>
    match x.series with
    | none => finishAct p s
    | some se =>
      let lost := (se.old.filter fun o => decide (se.k < o.idx) && isLost x o).map fun o => o.idx
      let s1 := postPlugs p (postUnplug p lost se.oldEpoch x.epoch 0 s)
      let s2 := dropPresent p ((knownSerials x).map fun k => k.2) s1
      let good := (x.pos.filter fun y => y.authed).map fun y => y.idx
      let bad := (x.pos.filter fun y => !y.authed && decide (se.k < y.idx)).map fun y => y.idx
      let s3 := modPort p (fun y => { y with
        series := none, lastSlate := knownSerials x
        refind := x.refind.filter fun r => x.pos.any fun z => z.idx == r.1 && !z.known
        faultCause := 0, sweepDue := s.clk.now + sweepPeriod s, firstDue := false }) s2
      let s4 := se.ops.foldl (fun s k => match findOp s k with
        | some op => complete op .ok (BitVec.ofNat 64 (x.epoch.toNat + 2 ^ 32 * x.n))
            (BitVec.ofNat 64 (posMap good + 2 ^ 16 * posMap bad)) false s
        | none => s) s3
      finishAct p (checkHalyard s4)

/-- Identification goes on at a position of the slate, or the slate ends (R233). -/
def identFrom (p i : Nat) (s : State) : State :=
  match posAt s p i with
  | some _ => nextExch p (newExch .select i .slate) s
  | none => concludeSlate p s

/-- Identification is repeated for the next unidentified position, or its PLUGs are posted (R233). -/
def againFrom (p i : Nat) (s : State) : State :=
  match findPort s p with
  | none => s
  | some x =>
    match wantedAgain x i with
    | some y => nextExch p (newExch .select y.idx .again) s
    | none =>
      finishAct p (modPort p (fun z => { z with
        againWants := [], lastSlate := knownSerials x, refind := x.refind.filter fun r => x.pos.any fun y => y.idx == r.1 && !y.known })
        (postPlugs p s))

/-- The exchanges of a position have ended, well or not. -/
def afterPos (p : Nat) (x : Exch) (s : State) : State :=
  match x.why with
  | .slate => identFrom p (x.pos + 1) s
  | .again => againFrom p (x.pos + 1) s
  | _ => finishAct p s

/-- A host operation on the port completes, and the port goes on. -/
def endHost (p k : Nat) (st : Status) (resA resB : Nat) (s : State) : State :=
  match findOp s k with
  | some op => finishAct p (complete op st (BitVec.ofNat 64 resA) (BitVec.ofNat 64 resB) false s)
  | none => finishAct p s

/-- The next take of TAG_CONSUME follows in 5 ms, or there is none left (R257). -/
def consumeAgain (p : Nat) (x : Exch) (s : State) : State :=
  match exchOp x with
  | some k =>
    if x.ctake < 4 then
      pauseAct p (.pauseExch { newExch .consume x.pos x.why with ctake := x.ctake + 1 } s.clk.now) s
    else endHost p k .tagLineError 0 0 s
  | none => finishAct p s

/-! ### What an exchange has proved (R24, R248-R250, R257) -/

/-- STRICT places a proved change needs (R24). -/
def gainNeed (p : Nat) (x : Exch) (g : Gain) (s : State) : Need :=
  match posAt s p x.pos with
  | none => noNeed
  | some y =>
    match g with
    | .count c => if countedMirror p x.pos c (mirrorFor y c s) s = mirrorFor y c s then noNeed else mirrorNeed s y.serial
    | .ident _ _ _ => mirrorNeed s y.serial
    | _ => if (mirrorOf s y.serial).isSome then mirrorNeed s y.serial else noNeed

/-- The mirror of the tag at a position. -/
def mirrorAt (s : State) (p i : Nat) : Option Mirror := (posAt s p i).bind fun y => mirrorOf s y.serial

/-- Its count; 0 without a mirror. -/
def countAt (s : State) (p i : Nat) : Nat :=
  match mirrorAt s p i with
  | some m => m.count
  | none => 0

/-- The count of the AUTH after a failed CONSUME, applied, decides TAG_CONSUME (R257). (DEDUCED: notes/assumptions/23.md) -/
def consumeAuthed (p : Nat) (x : Exch) (k c : Nat) (before : Option Mirror) (ok : Bool) (s : State) : State :=
  match before with
  | none => endHost p k .tagLineError 0 0 s
  | some m =>
    let n := consumeN s x
    if c ≠ m.count ∧ c ≠ m.count + n then endHost p k .tagLineError 0 0 s
    else if !ok then endHost p k .tagCountAnomaly 0 0 s
    else if c = m.count + n then endHost p k .ok (m.count + 2 ^ 32 * c) (countAt s p x.pos) s
    else consumeAgain p x s

/-- A verified count takes effect: it completes a host operation, or the exchanges of the position go on (R233, R248, R250, R255, R257,
R393). -/
def gainCount (p : Nat) (x : Exch) (c : Nat) (s : State) : State :=
  let before := mirrorAt s p x.pos
  let (ok, s1) := applyCount p x.pos c s
  let known := match mirrorAt s1 p x.pos with
    | some m => m.limitKnown
    | none => true
  match x.why with
  | .host k => if ok then endHost p k .ok c (countAt s1 p x.pos) s1 else endHost p k .tagCountAnomaly 0 0 s1
  | .consume k =>
    if x.kind = .auth then consumeAuthed p x k c before ok s1
    else if ok then endHost p k .ok (c - consumeN s x + 2 ^ 32 * c) (countAt s1 p x.pos) s1
    else endHost p k .tagCountAnomaly 0 0 s1
  | .sched => if ok && !known then nextExch p (newExch .readLimit x.pos .sched) s1 else finishAct p s1
  | _ =>
    let first := before.isNone
    let inexact := match before with
      | some m => m.inexact
      | none => false
    if !ok then afterPos p x s1
    else if known then afterPos p x (applyIdent p x.pos first inexact none s1)
    else nextExch p { newExch .readLimit x.pos x.why with proved := some (first, inexact) } s1

/-- A proved change takes effect, its places admitted (R233, R248-R250, R257). -/
def applyGain (p : Nat) (x : Exch) (g : Gain) (s : State) : State :=
  let serial := match posAt s p x.pos with
    | some y => y.serial
    | none => 0
  match g with
  | .count c => gainCount p x c s
  | .ident first inexact limit => afterPos p x (applyIdent p x.pos first inexact limit s)
  | .limit v => finishAct p (changeMirror serial (fun m => { m with limit := v, limitKnown := true }) s)
  | .exhausted =>
    let s1 := changeMirror serial (fun m => { m with exhausted := true }) s
    match exchOp x with
    | some k => endHost p k .tagExhausted 0 0 s1
    | none => finishAct p s1

/-- A proved change waits for its STRICT places, a host operation in an energy wait of its own, or takes effect at once; a port that was
told to go OFF goes OFF with the end of the transfer (R24, R87, R227, R261). -/
def offerGain (p : Nat) (x : Exch) (g : Gain) (s : State) : State :=
  if admits (waitingNeeds s) (gainNeed p x g s) s then applyGain p x g s
  else if isLeaving s p then serveAll (goDown p s)
  else
    let s1 := setAct p (.needPlace x g) s
    match exchOp x with
    | some k =>
      match findOp s1 k with
      | some op => enterEnergyWait op s1
      | none => s1
    | none => s1

/-! ### The end of an exchange (R233, R239, R257, R393) -/

/-- A MAC has failed a second time: TAG_AUTH_FAIL with reason 0, and the position is de-authenticated (R239, R393). -/
def macFailed (p : Nat) (x : Exch) (s : State) : State :=
  let s1 := deauth p x.pos (postAuthFail p x.pos 0 s)
  match exchOp x with
  | some k => endHost p k .tagAuthFail 0 0 s1
  | none => afterPos p x s1

/-- A MAC has failed: the exchange is repeated at once with a fresh challenge, once (R239). -/
def badMac (p : Nat) (x : Exch) (s : State) : State :=
  if x.fails = 0 then nextExch p { x with fails := 1 } s else macFailed p x s

/-- An exchange has ended without a usable answer (R233, R239, R257, R393). -/
def failExch (p : Nat) (x : Exch) (s : State) : State :=
  match x.why with
  | .consume _ =>
    if x.kind = .consume then nextExch p { newExch .auth x.pos x.why with ctake := x.ctake } s else consumeAgain p x s
  | _ =>
    if x.take < 4 then
      pauseAct p (.pauseExch { x with take := x.take + 1 } s.clk.now) s
    else
      match x.why with
      | .host k => endHost p k .tagLineError 0 0 s
      | .sched => if x.kind = .auth then finishAct p (wantSeries p .auth (x.pos - 1) [] s) else finishAct p s
      | _ =>
        match x.kind, x.proved with
        | .readLimit, some (first, inexact) => offerGain p x (.ident first inexact none) s
        | _, _ => afterPos p x (modPos p x.pos (fun y => { y with known := false }) s)

/-- What the previous slate held of the serial at this position: its samples and its last side message, which a slate that finds it there
again keeps (R234, R319). -/
def keptFrom (s : State) (p i : Nat) (serial : W64) : List (Nat × Nat × Option Nat) × Option (List Byte × Nat) :=
  let old := match findPort s p with
    | some x => (match x.series with | some se => se.old | none => x.pos)
    | none => []
  match old.find? fun o => o.idx == i && decide (o.serial = serial) with
  | some o => (o.history, o.side)
  | none => ([], none)

/-- IDENTITY names the tag: a foreign model or a family without a key fails, else its key is derived and AUTH follows
(R233, R243). -/
def identified (p : Nat) (x : Exch) (serial : W64) (family : W16) (model : Byte) (s : State) : State :=
  let kept := keptFrom s p x.pos serial
  let s1 := modPos p x.pos (fun y => { y with
    known := true, serial := serial, family := family, model := model, history := kept.1, side := kept.2 }) s
  if model ≠ 2 then afterPos p x (postAuthFail p x.pos 2 s1)
  else
    match s.hyc.families.find? fun f => f.1 == family.toNat with
    | none => afterPos p x (postAuthFail p x.pos 1 s1)
    | some (_, fk) =>
      nextExch p (newExch .auth x.pos x.why) (modPos p x.pos (fun y => { y with key := tagKey fk serial family }) s1)

/-- Bytes an answer has, its CRC included (R220, R224). -/
def answerLength : XKind → Nat
  | .select => 3
  | .identity => 14
  | .auth => 15
  | .consume => 19
  | .readLimit => 15

/-- An answer whose status is DONE, by what was asked (R220, R233, R243, R257). -/
def answerDone (p : Nat) (x : Exch) (bs : List Byte) (s : State) : State :=
  match posAt s p x.pos with
  | none => finishAct p s
  | some y =>
    match x.kind with
    | .select => nextExch p { x with kind := .identity, take := 1 } s
    | .identity => finishAct p s
    | .auth =>
      let c := fieldAt bs 1 4
      if (bs.drop 5).take 8 = authMac x.key x.challenge y.serial c then offerGain p x (.count c) s else badMac p x s
    | .readLimit =>
      let v := fieldAt bs 1 4
      if (bs.drop 5).take 8 = limitMac x.key x.challenge y.serial v then
        offerGain p x (match x.proved with | some (first, inexact) => .ident first inexact (some v) | none => .limit v) s
      else badMac p x s
    | .consume =>
      let old := fieldAt bs 1 4
      let new := fieldAt bs 5 4
      let n := consumeN s x
      if (bs.drop 9).take 8 = consumeMac x.key x.challenge y.serial n old new then
        if new = old + n then offerGain p x (.count new) s
        else
          let s1 := postAuthFail p x.pos 3 s
          match exchOp x with
          | some k => endHost p k .tagAuthFail 0 0 s1
          | none => finishAct p s1
      else failExch p x s

/-- T_b from the end of the trigger or frame to the first mark of the answer (R213, R220). -/
def answerGap : XKind → Nat
  | .select => 4
  | .identity => 3
  | .auth => 96
  | .consume => 640
  | .readLimit => 96

/-- The marks of an answer of `n` bytes are put on the line (R215, R218). -/
def markAnswer (p gap n : Nat) (up : Uplink) (s : State) : State :=
  sendMarks p gap (marksSent n false up.bytes (baselineOf up.turnaround)) false s

/-- The answer to an exchange (R221, R226, R233, R257, R393). -/
def exchAnswer (p : Nat) (x : Exch) (up : Uplink) (s0 : State) : State :=
  let s := markAnswer p (answerGap x.kind) (answerLength x.kind) up s0
  match readAnswer (answerLength x.kind) up with
  | .error _ => failExch p x s
  | .ok bs =>
    if x.kind = .identity then
      identified p x (BitVec.ofNat 64 (fieldAt bs 0 8)) (BitVec.ofNat 16 (fieldAt bs 8 2)) (BitVec.ofNat 8 (fieldAt bs 10 1)) s
    else
      match fieldAt bs 0 1 with
      | 0 => answerDone p x bs s
      | 1 => if x.kind = .consume then offerGain p x .exhausted s else failExch p x s
      | _ => failExch p x s

/-- The answer of an exchange of a kind, where the port's sequencer waits for it. -/
def answerOf (kind : XKind) (p : Nat) (up : Uplink) (s : State) : State :=
  match findPort s p with
  | some x =>
    match x.act with
    | .exch e => if e.kind = kind then exchAnswer p e up s else s
    | _ => s
  | none => s

/-! ### Slates (R231, R232, R236) -/

/-- The series has failed at its fourth take: PORT_FAULT, and the slate is stale (R231, R236, R260). -/
def seriesFailed (p : Nat) (s : State) : State :=
  match findPort s p with
  | none => s
  | some x =>
    match x.series with
    | none => finishAct p s
    | some se =>
      let cause := if se.lastRes = 9 then 4 else 1
      let s1 := if cause = x.faultCause then s else postPortFault p cause se.lastRes se.take se.firstErr s
      let s2 := modPort p (fun x => { x with
        stale := true, staleAt := s.clk.now, faultCause := cause, series := none, refind := x.lastSlate, firstDue := false
        sweepWants := false }) s1
      finishAct p (checkHalyard (refuseOps se.ops .tagLineError s2))

/-- The take is abandoned with a line result at a position: the next follows in 5 ms, or the series fails (R231). -/
def abandonTake (p res pos : Nat) (s : State) : State :=
  let s1 := modPort p (fun x => { x with
    series := x.series.map fun se => { se with lastRes := res, firstErr := if se.firstErr = 0 then pos else se.firstErr } }) s
  let take := match findPort s p with
    | some x => (match x.series with | some se => se.take | none => 0)
    | none => 0
  if isLeaving s p then finishAct p s1
  else if take < 4 then setAct p (.pauseTake s.clk.now) s1
  else seriesFailed p s1

/-- A position not yet identified. -/
def newPos (i : Nat) : Pos where
  idx := i
  serial := 0
  family := 0
  model := 0
  known := false
  authed := false
  key := 0
  authDue := 0
  attention := false
  sideBits := []
  sideWait := 0
  side := none
  plug := none
  rekeyed := false
  history := []

/-- The chain epoch raised by 1, passing from 0xFFFF_FFFF to 1 (R229). -/
def nextEpoch (e : W32) : W32 := if e = 0xFFFFFFFF then 1 else e + 1

/-- The take has succeeded: the epoch and N are set, positions up to k are kept, the others are identified (R231-R233). -/
def takeWon (p n : Nat) (long : Bool) (s : State) : State :=
  match findPort s p with
  | none => s
  | some x =>
    match x.series with
    | none => finishAct p s
    | some se =>
      let k := min se.k n
      let pos := (List.range n).map fun i =>
        match (if i < k then findPos x (i + 1) else none) with
        | some y => y
        | none => newPos (i + 1)
      let s1 := modPort p (fun y => { y with
        epoch := nextEpoch x.epoch, n := n, stale := false, pos := pos
        authWants := x.authWants.filter fun i => decide (i ≤ k), againWants := x.againWants.filter fun i => decide (i ≤ k)
        series := some { se with k := k, placed := true, old := x.pos, oldEpoch := x.epoch
                                 long := se.long || long } }) s
      let s2 := if long && !se.long then postPortFault p 3 0 se.take 0 s1 else s1
      identFrom p (k + 1) s2

/-- The answer to an ASSIGN: the loop goes on, ends, or the take is abandoned (R231). -/
def assignEnded (p n : Nat) (up : Uplink) (s0 : State) : State :=
  let s := markAnswer p 4 3 up s0
  let confirm (n : Nat) (s : State) : State := setAct p (.confirm n) (sendTx p [⟨false, statusTrigger, []⟩] s)
  match readAnswer 3 up with
  | .error .silent => confirm n s
  | .error r => abandonTake p (lineCode r) (n + 1) s
  | .ok bs =>
    if fieldAt bs 0 1 ≠ 0 then abandonTake p 0 (n + 1) s
    else if n + 1 < 16 then setAct p (.assign (n + 1)) (sendTx p [⟨false, 0, frameOf 0x12 (n + 2) []⟩] s)
    else confirm (n + 1) s

/-- The first position of a confirming sweep that is not GOOD, or not closed, with its line result (R231). -/
def confirmError (n : Nat) (up : Uplink) : Option (Nat × Nat) :=
  ((List.range n).zip (sweepBytes n up)).findSome? fun x =>
    match x.2 with
    | .ok v => if bitsOf v 3 1 = 1 then none else some (x.1 + 1, 0)
    | .error r => some (x.1 + 1, lineCode r)

/-- The confirming sweep ends (R231). -/
def confirmEnded (p n : Nat) (up : Uplink) (presence : List Nat) (s : State) : State :=
  match confirmError n up with
  | some (i, r) => abandonTake p r i s
  | none =>
    match (readSweep n up presence).presence with
    | 1 => if isLeaving s p then finishAct p s else takeWon p n false s
    | 0 =>
      if n < 16 then abandonTake p 0 0 s
      else if isLeaving s p then finishAct p s
      else takeWon p n true s
    | r => abandonTake p r 0 s

/-! ### Sweeps (R240, R254) -/

/-- A GOOD slot gives its side bit and attention bit; any other clears the held side bits (R224, R254). -/
def noteSlot (now : Nat) (bytes : List (Except LineRes Nat)) (y : Pos) : Pos :=
  match nthOr (.error .silent) (y.idx - 1) bytes with
  | .ok v => takeSideBit (bitsOf v 0 1 == 1) now { y with attention := bitsOf v 1 1 == 1 }
  | .error _ => { y with sideBits := [], sideWait := 0 }

/-- The slots of a sweep over `n` positions reach the side messages of their positions (R252-R254). -/
def noteSlots (p n : Nat) (up : Uplink) (s : State) : State :=
  match findPort s p with
  | none => s
  | some x =>
    let bytes := sweepBytes n up
    let after := x.pos.map fun y => noteSlot s.clk.now bytes y
    let news := ((x.pos.zip after).filter fun b => sideNew b.1 b.2).filterMap fun b => b.2.side.map fun m => m.1
    news.foldl (fun s m => noteSide m s) (modPort p (fun x => { x with pos := after }) s)

/-- Leading positions that are GOOD in both sweeps (R232, R240). -/
def leadingGood : List Nat → List Nat → Nat
  | 0 :: xs, 0 :: ys => leadingGood xs ys + 1
  | _, _ => 0

/-- The pattern is one slot SYMBOL, PARITY or TRUNCATED with the others GOOD: a fault at that tag (R240). -/
def singleFault (r : SweepRes) : Bool :=
  let bad := r.slots.filter fun c => c != 0
  decide (bad.length = 1) && bad.all fun c => c == 2 || c == 3 || c == 5

/-- The shared pattern holds a baseline step: a plug in progress (R240). -/
def hasStep (r : SweepRes) : Bool := r.presence == 7 || r.slots.contains 7

/-- Every slot GOOD and the presence slot SILENT: nothing has changed (R240). -/
def quietSweep (r : SweepRes) : Bool := (r.slots.all fun c => c == 0) && r.presence == 1

/-- The unidentified positions whose slots a sweep found GOOD (R233). -/
def noteAgain (p : Nat) (r : SweepRes) (s : State) : State :=
  modPort p (fun x => { x with
    againWants := (x.pos.filter fun y => !y.known && nthOr 1 (y.idx - 1) r.slots == 0).map fun y => y.idx }) s

/-- A sweep has been read: nothing has changed, a slate follows at once, or another sweep, or the last two decide (R240).
(DEDUCED: notes/assumptions/28.md) -/
def sweepRead (p : Nat) (earlier : List SweepRes) (r : SweepRes) (s0 : State) : State :=
  let s := noteAgain p r s0
  let slate (why : SlateWhy) (k : Nat) : State := finishAct p (wantSeries p why k [] s)
  if isLeaving s p then finishAct p s
  else if (r.slots.all fun c => c == 0) && r.presence == 0 then slate .sweep r.slots.length
  else
    match earlier with
    | [] => if quietSweep r then againFrom p 1 s else startSweep p [r] s
    | last :: older =>
      if r = last then
        if quietSweep r then againFrom p 1 s
        else if hasStep r then pauseAct p (.pauseSweep [] s.clk.now) s
        else slate (if singleFault r then .auth else .sweep) (leadingGood r.slots last.slots)
      else if older = [] then startSweep p (r :: earlier) s
      else slate .sweep (leadingGood r.slots last.slots)

/-- The STATUS answer phase ends (R215, R231, R240, R254). -/
def statusEnded (p : Nat) (up : Uplink) (presence : List Nat) (s : State) : State :=
  match findPort s p with
  | none => s
  | some x =>
    match x.act with
    | .confirm n => confirmEnded p n up presence (noteSlots p n up (sendMarks p 3 n true s))
    | .sweep earlier => sweepRead p earlier (readSweep x.n up presence) (noteSlots p x.n up (sendMarks p 3 x.n true s))
    | _ => s

/-! ### Pauses, overcurrent, power (R205, R231, R236, R240) -/

/-- 5 ms after an abandoned take or exchange the next take starts (R231, R233, R257). -/
def retryTake (p : Nat) (s : State) : State :=
  match findPort s p with
  | none => s
  | some x =>
    match x.act with
    | .pauseExch e since => if since + fiveMs ≤ s.clk.now then beginExch p e s else s
    | .pauseTake since => if since + fiveMs ≤ s.clk.now then startTake p s else s
    | _ => s

/-- 5 ms after a baseline step the sweep is repeated, with no action counted (R240). -/
def repeatSweep (p : Nat) (s : State) : State :=
  match findPort s p with
  | none => s
  | some x =>
    match x.act with
    | .pauseSweep earlier since => if since + fiveMs ≤ s.clk.now then startSweep p earlier s else s
    | _ => s

/-- An overcurrent in ON or CHARGING: the take ends, positions are lost, and the port goes to FAULT, or OFF at the third within 10 s or where
it has been disabled or turned off (R205, R236, R260, R261). -/
def overcurrentAt (p : Nat) (s : State) : State :=
  match findPort s p with
  | none => s
  | some x =>
    if x.st ≠ .on ∧ x.st ≠ .charging then s
    else
      let shorts := s.clk.now :: x.shorts.filter fun t => decide (s.clk.now < t + 10 * second)
      let third := decide (3 ≤ shorts.length)
      let off := third || x.held || !portEnabled s p
      let running := x.series.isSome
      let s1 := refuseOps (seriesOps x ++ x.queue.filter fun k => !isPower s k) .portOff (refuseOps (actOp x.act) .tagLineError s)
      let s2 := losePositions p 2 (clearWork p s1)
      let s3 := if third && decide (x.faultCause ≠ 2) then postPortFault p 2 8 0 0 s2 else s2
      let s4 := modPort p (fun y => { y with
        st := if off then .off else .fault
        since := s.clk.now, held := third || y.held, shorts := shorts
        faultCause := if third then 2 else y.faultCause
        refind := if third then y.lastSlate else y.refind
        firstDue := y.firstDue && !running && !off }) s3
      serveAll (checkHalyard (endPowerOff p s4))

/-- The port has charged: ON, and its slate follows with k = 0 (R205, R232). -/
def portCharge (p : Nat) (s : State) : State :=
  match findPort s p with
  | none => s
  | some x =>
    if x.st ≠ .charging ∨ s.clk.now < x.since + twentyFiveMs then s
    else if x.held || !portEnabled s p then goDown p s
    else
      serveAll (wantSeries p .first 0 [] (modPort p (fun y => { y with st := .on, since := s.clk.now, sweepDue := s.clk.now }) s))

/-- 100 ms in FAULT: back to CHARGING (R205). -/
def faultTimer (p : Nat) (s : State) : State :=
  match findPort s p with
  | none => s
  | some x =>
    if x.st ≠ .fault ∨ s.clk.now < x.since + hundredMs then s
    else if x.held || !portEnabled s p then goDown p s
    else chargePort p s

/-- The flush removes HYPWR: every take ends with PORT_DOWN, operations on ports are ABORTED, no event (R148, R227, R261). -/
def portsDown (s : State) : State :=
  s.hyc.ports.foldl (fun s x =>
    let tagOps := actOp x.act ++ seriesOps x ++ x.queue
    let s1 := refuseOps tagOps .aborted s
    let s2 := modPort x.num (fun y => { y with queue := [] }) (clearWork x.num s1)
    endPowerOff x.num (modPort x.num (fun y => { y with st := .off, since := s.clk.now, lastTx := none, wave := [], firstDue := false }) s2)) s

/-- Every enabled port is charged, after a start or a resume; re-found are the serials of the last good slates (R152, R234). -/
def portsUp (s : State) : State :=
  (List.range 48).foldl (fun s p => tryCharge p (modPort p (fun x => { x with refind := x.lastSlate }) s)) s

/-- At a start the mirrors' present flags name the serials that are re-found (R234). -/
def placesAtStart (s : State) : State :=
  { s with hyc := { s.hyc with
      ports := s.hyc.ports.map fun x => { x with
        lastSlate := (s.hyc.mirrors.filter fun m => m.present && m.port == x.num).map fun m => (m.position + 1, m.serial) } } }

/-! ### Waits of the ports (R244, R261) -/

/-- Ports that wait for a challenge get one, in the order in which they began to wait (R244, R269). -/
def retryChallenges (s : State) : State :=
  let others := (s.hyc.ports.filter fun x => !s.nsu.waitH.contains x.num).map fun x => x.num
  (s.nsu.waitH ++ others).foldl (fun s p =>
    match findPort s p with
    | none => s
    | some x =>
      match x.act with
      | .needChallenge e _ =>
        match takeChallenge (waitingNeeds s) s with
        | some (c, s1) => sendWith p e c { s1 with nsu := { s1.nsu with waitH := s1.nsu.waitH.filter fun q => q != p } }
        | none => s
      | _ => s) s

/-- Slates and scheduled AUTHs that wait for STRICT places are tried again (R24, R261). -/
def retryPlaces (s : State) : State :=
  (List.range 48).foldl (fun s p =>
    match findPort s p with
    | none => s
    | some x =>
      match x.act with
      | .needPlace e g =>
        if (exchOp e).isNone && admits (waitingNeeds s) (gainNeed p e g s) s then applyGain p e g s else s
      | _ => s) s

/-- A port whose host operation is gone while it waited goes on without it (R55). -/
def dropOrphans (s : State) : State :=
  (List.range 48).foldl (fun s p =>
    match findPort s p with
    | none => s
    | some x =>
      match x.act with
      | .needPlace _ _ | .needChallenge _ _ | .pauseExch _ _ =>
        if (actOp x.act).any fun k => (findOp s k).isNone then
          finishAct p { s with nsu := { s.nsu with waitH := s.nsu.waitH.filter fun q => q != p } }
        else s
      | _ => s) s

/-! ### Due work (R236, R237) -/

/-- A STATUS sweep falls due (R237). -/
def sweepDueAt (p : Nat) (s : State) : State :=
  match findPort s p with
  | none => s
  | some x =>
    if x.st = .on ∧ x.stale = false ∧ x.sweepDue ≤ s.clk.now then
      serveAll (modPort p (fun y => { y with sweepWants := true }) s)
    else s

/-- The AUTH of a position falls due, or its family's key has been replaced (R237, R247). -/
def authDueAt (p i : Nat) (s : State) : State :=
  match findPort s p, posAt s p i with
  | some x, some y =>
    if x.st = .on ∧ x.stale = false ∧ (y.rekeyed = true ∨ (y.authed = true ∧ y.authDue ≤ s.clk.now)) then
      serveAll (modPort p (fun z => { z with authWants := if z.authWants.contains i then z.authWants else z.authWants ++ [i] }) s)
    else s
  | _, _ => s

/-- Every 1 s a port with a stale slate starts a new series with k = 0 (R236). -/
def staleRetry (p : Nat) (s : State) : State :=
  match findPort s p with
  | none => s
  | some x =>
    if x.st = .on ∧ x.stale = true ∧ x.series.isNone = true ∧ x.staleAt + second ≤ s.clk.now then serveAll (wantSeries p .stale 0 [] s)
    else s

/-! ### Tag and port operations at dispatch (R255-R259) -/

/-- Bits of the object of a tag or port operation (R255). -/
def tagFields (op : Op) : Bool :=
  let place := if op.opcode = 0x30 ∨ op.opcode = 0x35 then decide (opPos op = 0) else decide (1 ≤ opPos op) && decide (opPos op ≤ 16)
  let object (a b c : W64) := fieldsFree op 0xFFFF a b c && decide (opPort op < 48) && place
  match op.opcode with
  | 0x30 => object 0 0 0
  | 0x31 => object 0 0xFFFFFFFF 0
  | 0x32 => object 0xFFFFFFFF 0xFFFFFFFF 0 && decide (op.a ≠ 0)
  | 0x33 => object 0 0xFFFFFFFF allBits && bufferAligned op.c
  | 0x34 => object 0 0xFFFFFFFF 0
  | _ => object (if op.qp = 0 then 0x3F01 else 1) 0 0

/-- Rows 1 to 5 of R258. -/
def tagGate (op : Op) (s : State) : Option Status :=
  match gate op s.ready.halyard s with
  | some st => some st
  | none =>
    if !tagFields op then some .badField
    else
      match findPort s (opPort op) with
      | none => some .badField
      | some x =>
        if foreign op x.domain && !(decide (op.opcode = 0x35) && decide (op.qp = 0)) then some .wrongDomain
        else if op.opcode ≠ 0x35 ∧ (x.st ≠ .on ∨ portEnabled s x.num = false) then some .portOff
        else none

/-- The 64 bytes of the TAG_READ buffer (R259). -/
def tagBuffer (s : State) (x : Port) (y : Pos) : List Byte :=
  let m := mirrorFor y 0 s
  let side := match y.side with
    | some (payload, _) => payload
    | none => []
  leBytes 8 y.serial.toNat ++ leBytes 2 y.family.toNat ++ leBytes 1 y.model.toNat ++
    leBytes 1 (bit y.authed + 2 * bit x.stale + 4 * bit m.inexact + 8 * bit m.anomaly + 16 * bit m.exhausted +
      32 * bit y.attention) ++
    leBytes 4 x.epoch.toNat ++ leBytes 8 m.count ++ leBytes 8 m.inserted ++ leBytes 4 (if m.limitKnown then m.limit else 0) ++
    leBytes 4 m.used ++ leBytes 8 m.calendar ++ leBytes 8 m.lastGood ++ padTo 8 side

/-- TAG_READ and TAG_SIDE take effect at their dispatch (R230, R255, R258, R259). -/
def tagReadRun (op : Op) (s : State) : State :=
  match findPort s (opPort op) with
  | none => s
  | some x =>
    if staleEpoch op x then refuse op .staleEpoch s
    else if tagAbsent op x then refuse op .tagAbsent s
    else
      match findPos x (opPos op) with
      | none => refuse op .tagAbsent s
      | some y =>
        if op.opcode = 0x33 then
          complete op .ok (BitVec.zeroExtend 64 x.epoch) (BitVec.ofNat 64 (mirrorFor y 0 s).count) false
            (writeHost op.c.toNat (tagBuffer s x y) s)
        else
          match y.side with
          | some (payload, time) => complete op .ok (BitVec.ofNat 64 (leNat payload)) (BitVec.ofNat 64 time) false s
          | none => complete op .ok 0 0 false s

/-- TAG_AUTH, TAG_CONSUME, HY_SLATE and PORT_POWER queue on their port in order; HY_SLATE joins a series that runs, and PORT_POWER with
nothing before it takes effect at once (R46, R230, R255, R261). -/
def portRun (op : Op) (s : State) : State :=
  let p := opPort op
  match findPort s p with
  | none => s
  | some x =>
    if op.opcode = 0x30 ∧ (x.series.isSome ∨ x.wanted.isSome) then
      wantSeries p .host 0 [op.id] (setOpSt op.id .serving s)
    else
      let queued := modPort p (fun y => { y with queue := y.queue ++ [op.id] }) (setOpSt op.id .queued s)
      let before := x.queue.filter fun k => (findOp s k).isSome
      if op.opcode = 0x35 ∧ before = [] ∧ x.leaving = false ∧ (actOp x.act).all (fun k => (findOp s k).isNone) = true then
        serveAll (applyPower op p s)
      else serveAll queued

/-- A family key replaced: tag keys are derived afresh, and every tag of the family that holds a position is asked again (R247). -/
def rekeyFamily (family : Nat) (fk : W128) (s : State) : State :=
  { s with hyc := { s.hyc with
      ports := s.hyc.ports.map fun x => { x with
        pos := x.pos.map fun y =>
          if y.known ∧ y.family.toNat = family ∧ y.model = 2 then
            { y with key := tagKey fk y.serial y.family, rekeyed := true }
          else y } } }

end Sys2Proof.Machine
end

