-- ==== Sys2Proof/Machine/Waits.lean ====
section
/-!
DEFINITION. Admission of operations at their point of effect, the energy wait and its end, and what the seed queues serve
(spec/03_counters.md R86-R88; spec/07_key_identifiers.md R192; spec/10_random.md R269).
-/
namespace Sys2Proof.Machine

/-- The operation leaves the order of energy waits, to go on. -/
def leaveEnergy (k : Nat) (s : State) : State :=
  { s with hif := { s.hif with energyOrder := s.hif.energyOrder.filter fun j => j != k } }

/-- An operation whose plan cannot be admitted now: it is in an energy wait, and the ceiling or the group it needs is on its way
(R84, R87, R144). -/
def waitForPlan (op : Op) (p : Plan) (s : State) : State :=
  let s1 := enterEnergyWait op s
  if p.need.ceiling then s1
  else
    let s2 := if op.opcode = 0x16 then openForReclass op s1 else s1
    queueNeededCeiling p.group p.needed s2

/-- An operation at its point of effect: refused, admitted with its effect, or in an energy wait (R72, R86, R87). -/
def startPlan (op : Op) (r : Except Status Plan) (s : State) : State :=
  match r with
  | .error st => refuse op st s
  | .ok p => if admits (waitingNeeds s) p.need s then p.run s else waitForPlan op p s

/-- A KID_SPLICE_COMMIT that misses no unit any more, before its deadline, goes on to its point of effect (R192). -/
def wakeCommits (s : State) : State :=
  s.hif.ops.foldl (fun s op =>
    match op.st with
    | .splice deadline =>
      let x := kidOf s (kidNumber op)
      if x.st = .draining ∧ missingUnits op x = 0 ∧ s.clk.now < deadline then startPlan op (kidPlan op s) s else s
    | _ => s) s

/-- An operation on an object takes effect or waits; commits that it lets go follow (R192). -/
def startObject (op : Op) (s : State) : State := wakeCommits (startPlan op (objectPlan op s) s)

/-- A tag operation in an energy wait, with the needs of those that entered before it: what its exchange has proved takes effect,
or its mirror entry is admitted and it goes on at the head of its port's queue (R87, R257). -/
def retryTag (op : Op) (earlier : List Need) (s : State) : State :=
  let p := opPort op
  match findPort s p with
  | none => s
  | some x =>
    match x.act with
    | .needPlace e g =>
      if exchOp e = some op.id then
        if admits earlier (gainNeed p e g s) s then applyGain p e g (setOpSt op.id .serving (leaveEnergy op.id s)) else s
      else s
    | _ =>
      if admits earlier (opNeed op s) s then
        match opTag s op with
        | some y => serveAll (owe (.mirror (mirrorIndex s y.serial)) (setOpSt op.id .queued (leaveEnergy op.id s)))
        | none => s
      else s

/-- One operation of the energy waits tried again (R87). -/
def retryOp (op : Op) (earlier : List Need) (s : State) : State :=
  if op.opcode = 0x31 ∨ op.opcode = 0x32 then retryTag op earlier s
  else
    match objectPlan op s with
    | .error st => refuse op st s
    | .ok p =>
      if admits earlier p.need s then wakeCommits (p.run (leaveEnergy op.id s))
      else if p.need.ceiling then s
      else queueNeededCeiling p.group p.needed s

/-- The energy waits in their order: each operation is admitted if its entries fit and no earlier one still needs a place of the same
set (R87). `activate` goes on with an FW_ACTIVATE that is admitted. -/
def retryOrder (activate : Op → State → State) : List Nat → List Need → State → State
  | [], _, s => s
  | k :: rest, earlier, s =>
    match findOp s k with
    | none => retryOrder activate rest earlier s
    | some op =>
      if !inEnergyWait op then retryOrder activate rest earlier s
      else
        let s1 := if op.opcode = 0x08 then
            (if admits earlier (opNeed op s) s then activate op (leaveEnergy k s) else s)
          else retryOp op earlier s
        match findOp s1 k with
        | some after =>
          retryOrder activate rest (if inEnergyWait after then earlier ++ [opNeed after s1] else earlier) s1
        | none => retryOrder activate rest earlier s1

/-- The place of a mirror entry that a TAG_CONSUME took and no serial came to need is free again (R249, R257). -/
def dropUnused (s : State) : State :=
  if s.hif.ops.any fun op => op.opcode == 0x32 then s
  else { s with owed := { s.owed with strict := s.owed.strict.filter fun e => match e.what with
    | .mirror i => e.taken.isSome || (findMirror s i).isSome
    | _ => true } }

/-- What the seed queues hold goes to those that wait, by rank (R269). -/
def serveSeeds (s : State) : State :=
  let s1 := serveInternals 8 (retryChallenges s)
  updateRandom (serveHost (s1.nsu.waitS.length + 1) s1)

end Sys2Proof.Machine
end

