-- ==== Sys2Proof/Machine/Seconds.lean ====
section
/-!
DEFINITION. Powered-on seconds, the end of a powered-on day, the sweep list and the calendar's record (spec/03_counters.md R391;
spec/06_placement.md R175, R179, R181; spec/09_halyard_chains.md R238; spec/11_power_clock_startup.md R308).
-/
namespace Sys2Proof.Machine

/-- w after a powered-on day with so many GROUP_CEILING records (R175). -/
def wearAfter (w records : Nat) : Nat :=
  if 864000 < records then min 16 (2 * w) else if records < 432000 ∧ 1 < w then w / 2 else w

/-- A powered-on day ends: the new w goes to its record, with which it takes effect, and the counts of the day begin again (R24,
R175, R179, R180). -/
def endDay (s : State) : State :=
  let next := wearAfter (nextWear s) s.jrn.ceilToday
  let s1 := if next = nextWear s then s
    else queueWrite 4 (.config 0x200) { s with plc := { s.plc with wearDue := some (next, s.jrn.ceilToday) } }
  { s1 with
    jrn := { s1.jrn with ceilToday := 0, otherToday := 0 }
    plc := { s1.plc with movesToday := 0 }
    ctr := { s1.ctr with groups := s1.ctr.groups.map fun g => { g with moves := 0 } } }

/-- The count takes every pending second, if its STRICT place is admitted (R87, R391). (DEDUCED: notes/assumptions/73.md) -/
def countSeconds (s : State) : State :=
  if s.int.pending = 0 ∨ s.pmu.phase ≠ .running ∨ s.pmu.shutdown = true ∨
      admits (waitingNeeds s) ⟨slotsNeeded .posec s, 0, true⟩ s = false then s
  else owe .posec { s with int := { s.int with posec := s.int.posec + s.int.pending, pending := 0 } }

/-- The ports that are swept: ON with a slate that is not stale (R237, R238). -/
def sweptPorts (s : State) : List Port := s.hyc.ports.filter fun x => decide (x.st = .on) && !x.stale

/-- What a port asks of the next second: the tags of its chain, the AUTHs that fall due in it, and a slate that waits (R165, R238).
(DESIGN CHOICE: notes/assumptions/21.md) -/
def sweepLoad (s : State) (x : Port) : Nat :=
  x.n + (x.pos.filter fun y => y.authed && decide (y.authDue < s.clk.now + second)).length + x.authWants.length +
    bit x.wanted.isSome

/-- Two lists taken in turn. -/
def interleave {α : Type} : List α → List α → List α
  | [], l => l
  | x :: l, [] => x :: l
  | x :: l, y :: m => x :: y :: interleave l m

/-- The order in which swept ports are served: the heaviest, the lightest, the next heaviest and so on, so that long chains and due
AUTHs do not stand together (R238). (DESIGN CHOICE: notes/assumptions/21.md) -/
def sweepOrder (s : State) : List Nat :=
  let l := sortBy (sweepLoad s) (sweptPorts s)
  let half := l.length / 2
  (interleave (l.drop half).reverse (l.take half)).map fun x => x.num

/-- The sweep list as summary +0x68 shows it (R179). -/
def sweepBits (l : List Nat) : W64 := BitVec.ofNat 64 (l.foldl (fun n p => n + 2 ^ p) 0)

/-- Placement rebuilds the sweep list each second, and logs a change of its order (R165, R181, R238). -/
def rebuildSweepList (s : State) : State :=
  let order := sweepOrder s
  if order = s.hyc.sweepList then s
  else
    let first := match order with
      | p :: _ => p
      | [] => 0
    logDecision 0x0D first 0 0 (sweepBits order).toNat { s with hyc := { s.hyc with sweepList := order } }

/-- POWERED_ON_SECOND: a second falls due at a multiple of 2^30 CLK; none is counted after SHUTDOWN_PREPARE, or in a start that
entered SAFE (R391). -/
def secondDue (s : State) : State :=
  if s.clk.running = false ∨ s.clk.now < s.int.nextDue then s
  else
    let add := if s.pmu.shutdown ∨ s.pmu.phase = .safe then 0 else 1
    rebuildSweepList (countSeconds
      { s with int := { s.int with nextDue := s.int.nextDue + second, pending := s.int.pending + add } })

/-- CALENDAR_RECORD: 3,600 powered-on seconds after the last record of the calendar was built, the next one is queued (R308). -/
def calendarDue (s : State) : State :=
  if s.ready.journal ∧ s.int.calRecordAt + 3600 ≤ s.int.posec then queueWrite 4 (.config 0x300) s else s

end Sys2Proof.Machine
end

