-- ==== Sys2Proof/Machine/Admin.lean ====
section
/-!
DEFINITION. Admin operations but SHUTDOWN_PREPARE: queue pairs, IDENTIFY, the calendar, domains, firmware slots, family keys
(spec/02_host_rings.md R34-R38, R57, R59; spec/09_halyard_chains.md R246, R247; spec/11_power_clock_startup.md R307-R311).
-/
namespace Sys2Proof.Machine

/-- Checks passed, or the status they refuse with. -/
def gated (check : Option Status) (op : Op) (run : State → State) (s : State) : State :=
  match check with
  | some st => refuse op st s
  | none => run s

/-! ### Queue pairs (R34, R35, R57) -/

/-- The domain is enabled; domain 0 always is (R36). -/
def domainEnabled (s : State) (d : Nat) : Bool :=
  decide (d = 0) || match findDomain s d with
    | some x => x.enabled
    | none => false

/-- A base address is 4 KiB aligned (R34, R35). -/
def ringAligned (v : W64) : Bool := decide (v.toNat % 4096 = 0)

/-- The fields of QP_CREATE are in range (R35). -/
def qpFields (op : Op) (s : State) : Bool :=
  fieldsFree op allObj allBits allBits 0x00FFFFFF3FFF7FFF && decide (1 ≤ op.obj.toNat) && decide (op.obj.toNat ≤ 4095) &&
    (findQp s op.obj.toNat).isNone && ringAligned op.a && ringAligned op.b && decide (opBits op.c 0 4 ≤ 8) &&
    decide (opBits op.c 4 4 ≤ 8) && decide (1 ≤ opBits op.c 8 7) && decide (opBits op.c 8 7 ≤ 64) &&
    (decide (opBits op.c 32 8 ≤ 1) || decide (opBits op.c 40 16 ≠ 0))

/-- The queue pair that QP_CREATE's fields describe, every count at 0 (R34, R35). -/
def newQp (op : Op) : Qp where
  num := op.obj.toNat
  sqBase := op.a.toNat
  cqBase := op.b.toNat
  sqSize := 2 ^ (6 + opBits op.c 0 4)
  cqSize := 2 ^ (6 + opBits op.c 4 4)
  limit := opBits op.c 8 7
  cls := opBits op.c 16 2
  domain := opBits op.c 18 6
  vector := opBits op.c 24 6
  coalCount := opBits op.c 32 8
  coalTime := opBits op.c 40 16
  tail := 0
  head := 0
  fetched := 0
  written := 0
  stopped := false
  deleting := false
  unsignalled := 0
  oldest := 0
  deficit := 0

/-- QP_CREATE (R34, R35, R389). -/
def qpCreate (op : Op) (s : State) : State :=
  gated (gate op s.ready.calib s) op (fun s =>
    if !qpFields op s then refuse op .badField s
    else if !domainEnabled s (newQp op).domain then refuse op .noObject s
    else complete op .ok (BitVec.zeroExtend 64 op.obj) 0 false
      { s with hif := { s.hif with qps := insertBy (fun q => q.num) (newQp op) s.hif.qps } }) s

/-- QP_DELETE: fetching stops, waiting operations of the QP are ABORTED, and it completes with the last operation of the QP; its results
count by the tail as read when it is dispatched (R55, R57). (DEDUCED: notes/assumptions/37.md) -/
def qpDelete (op : Op) (s : State) : State :=
  gated (gate op s.ready.calib s) op (fun s =>
    if !fieldsFree op allObj 0 0 0 || decide (op.obj = 0) then refuse op .badField s
    else
      match findQp s op.obj.toNat with
      | none => refuse op .noObject s
      | some q =>
        let resA := BitVec.ofNat 64 (announced q)
        let resB := BitVec.ofNat 64 (q.fetched.toNat + 2 ^ 32 * bit (tailOut q))
        let s1 := setOpSt op.id (.deleting resA resB) (modQp q.num (fun q => { q with deleting := true }) s)
        endDelete q.num (refuseWaits (fun o => o.qp == q.num) .aborted s1)) s

/-! ### IDENTIFY (R59) -/

/-- The version of the image in the inactive slot: 0 until its staged bytes cover an image (R59, R310). -/
def inactiveVersion (s : State) : Nat :=
  let x := if s.fw.active = 0 then s.fw.slot1 else s.fw.slot0
  if 512 ≤ imageField x 0x0C 4 ∧ imageField x 0x0C 4 ≤ x.bytes.length then slotVersion x else 0

/-- The map of enabled domains (R59). -/
def domainMap (s : State) : Nat :=
  1 + ((s.kit.domains.filter fun d => d.enabled).foldl (fun n d => n + 2 ^ d.num) 0)

/-- The 256 bytes of IDENTIFY (R59). -/
def identifyBytes (s : State) : List Byte :=
  let count (c : Cls) := openCount s fun l => decide (l.cls = c)
  padTo 256 (leBytes 2 0x1F6B ++ leBytes 2 0x0840 ++ leBytes 4 Config.stepping.toNat ++ leBytes 8 s.fuse.serial.toNat ++
    leBytes 4 s.fw.version.toNat ++ leBytes 4 (inactiveVersion s) ++ leBytes 4 (readyWord s).toNat ++
    leBytes 4 s.regs.safeCause.toNat ++ leBytes 4 (count .strict) ++ leBytes 4 (count .bounded) ++ leBytes 4 (count .loose) ++
    leBytes 2 s.hif.qps.length ++ leBytes 2 (s.kit.kids.filter fun x => decide (x.st ≠ .free)).length ++
    leBytes 8 (calendar s) ++ leBytes 4 (bit s.clk.calNotSet + 2 * bit (timeImprecise s)) ++ leBytes 4 s.int.antiRoll ++
    leBytes 8 s.int.posec ++ leBytes 8 (domainMap s))

/-- IDENTIFY (R59). -/
def identify (op : Op) (s : State) : State :=
  gated (gate op s.ready.calib s) op (fun s =>
    if !fieldsFree op 0 0 0 allBits || !bufferAligned op.c then refuse op .badField s
    else complete op .ok 0 0 false (writeHost op.c.toNat (identifyBytes s) s)) s

/-! ### TIME_SET (R307) -/

/-- TIME_SET (R307). -/
def timeSet (op : Op) (s : State) : State :=
  gated (gate op s.ready.journal s) op (fun s =>
    if !fieldsFree op 0 0x000000FFFFFFFFFF 0x3FFFFFFF 0 then refuse op .badField s
    else
      let secs := op.a.toNat
      let clks := op.b.toNat
      if secs < calendar s ∨ (secs = calendar s ∧ clks < calendarClk s) then refuse op .timeBackward s
      else awaitRecord op (.config 0x300) (BitVec.ofNat 64 (calendar s)) 0
        { s with clk := { s.clk with
            calBase := secs, calClk := clks, calAt := s.clk.now, calNotSet := false, calImprecise := false } }) s

/-! ### DOMAIN_SET (R38) -/

/-- The domain's row that DOMAIN_SET's fields describe (R38). -/
def newDomain (op : Op) : Domain where
  num := op.obj.toNat
  counters := opBits op.a 0 32
  strict := opBits op.a 32 32
  bounded := opBits op.b 0 32
  kids := opBits op.b 32 16
  drbgs := opBits op.b 48 9
  enabled := op.c.getLsbD 0

/-- The fields of DOMAIN_SET are in range (R38). -/
def domainFields (op : Op) (s : State) : Bool :=
  let d := newDomain op
  fieldsFree op 0x3F allBits 0x01FFFFFFFFFFFFFF 1 && decide (1 ≤ d.num) && decide (d.counters ≤ 262144) &&
    decide (d.strict ≤ 16384) && decide (d.bounded ≤ 65536) && decide (d.kids ≤ 16384) && decide (d.drbgs ≤ 256) &&
    (d.enabled || !(s.hif.qps.any fun q => q.domain == d.num))

/-- DOMAIN_SET: the row takes effect and completes with its CONFIG record (R38, R104). -/
def domainSet (op : Op) (s : State) : State :=
  gated (gate op s.ready.journal s) op (fun s =>
    if !domainFields op s then refuse op .badField s
    else awaitRecord op (.config op.obj.toNat) 0 0
      { s with kit := { s.kit with
          domains := insertBy (fun d => d.num) (newDomain op) (s.kit.domains.filter fun d => d.num != op.obj.toNat) } }) s

/-! ### Firmware (R309-R311) -/

/-- The inactive slot. -/
def inactiveSlot (s : State) : Slot := if s.fw.active = 0 then s.fw.slot1 else s.fw.slot0

/-- The inactive slot set. -/
def setInactive (x : Slot) (s : State) : State :=
  if s.fw.active = 0 then { s with fw := { s.fw with slot1 := x } } else { s with fw := { s.fw with slot0 := x } }

/-- Fields of FW_STAGE: a length allowed, an end within the slot, and an offset of 0 or where the staging under way ended (R310).
(DEDUCED: notes/assumptions/49.md) -/
def stageFields (op : Op) (s : State) : Bool :=
  let offset := op.a.toNat
  let len := op.b.toNat
  let x := inactiveSlot s
  fieldsFree op 0 0x7FFFF 0x1FFF allBits && bufferAligned op.c && decide (256 ≤ len) && decide (len ≤ 4096) &&
    decide (len % 256 = 0) && decide (offset + len ≤ 524288) &&
    (decide (offset = 0) || (x.incomplete && decide (offset = x.bytes.length)))

/-- FW_STAGE: one chunk; at offset 0 the slot is erased and its record written first (R310). -/
def fwStage (op : Op) (s : State) : State :=
  gated (gate op (s.ready.journal && !s.fw.pending) s) op (fun s =>
    if !stageFields op s then refuse op .badField s
    else
      let chunk := readHost s op.c.toNat op.b.toNat
      if op.a = 0 then awaitRecord op (.config 0x400) op.b 0 (setInactive ⟨chunk, true⟩ s)
      else
        let x := inactiveSlot s
        complete op .ok (op.a + op.b) 0 false (setInactive { x with bytes := x.bytes ++ chunk } s)) s

/-- A number that an image holds big-endian (R309). -/
def imageNumber (x : Slot) (offset size : Nat) : Nat := beNat (toNats ((x.bytes.drop offset).take size))

/-- The SHA-256 of a part of an image (R309). -/
def imageHash (x : Slot) (offset size : Nat) : Nat := sha256 ((x.bytes.drop offset).take size)

/-- The image's key is accepted: its hash is the one fused at its key index, and that index is not revoked (R309). -/
def keyAccepted (f : Fuses) (x : Slot) : Bool :=
  let index := imageField x 0x06 1
  decide (index < 4) && !nthOr true index f.revoked && decide (imageHash x 0x40 64 = (nthOr 0 index f.keyHashes).toNat)

/-- The image's signature verifies (R309). -/
def signatureGood (x : Slot) : Bool :=
  ecdsaVerifies (imageNumber x 0x40 32) (imageNumber x 0x60 32) (imageNumber x 0xC0 32) (imageNumber x 0xE0 32)
    (imageHash x 0x00 0xC0)

/-- The checks 1 to 6 of R311 on an image; the image length must be one that R309 allows. (DEDUCED: notes/assumptions/5.md) -/
def imageRuns (f : Fuses) (x : Slot) : Bool :=
  let len := imageField x 0x0C 4
  decide (512 ≤ len) && decide (len ≤ 524288) && decide (len % 256 = 0) && decide (len ≤ x.bytes.length) &&
    decide (imageField x 0x00 4 = 0x314D4448) && decide (imageField x 0x04 2 = 1) && keyAccepted f x && signatureGood x &&
    decide (imageHash x 0x100 (len - 0x100) = imageNumber x 0x80 32) && decide (imageField x 0x10 4 ≤ Config.stepping.toNat)

/-- FW_ACTIVATE with its anti-rollback entry admitted: the counter is raised, the slot is pending, and both records are written
before it completes (R311). -/
def activate (op : Op) (s : State) : State :=
  let x := inactiveSlot s
  let version := slotVersion x
  let s1 := setInactive { x with incomplete := false } (owe .antiRoll
    { s with int := { s.int with antiRoll := version }, fw := { s.fw with pending := true } })
  let s2 := queueWrite 4 (.config 0x400) (queueWrite 4 .antiRoll s1)
  setOpSt op.id (.record (queuedId .antiRoll s2 ++ queuedId (.config 0x400) s2) (BitVec.ofNat 64 version)
    (BitVec.ofNat 64 s.int.antiRoll)) s2

/-- FW_ACTIVATE: the checks of R311 in order, then its entry is admitted or it waits (R87, R311). -/
def fwActivate (readable : Bool) (op : Op) (s : State) : State :=
  gated (gate op s.ready.journal s) op (fun s =>
    if !fieldsFree op 0 0 0 0 then refuse op .badField s
    else if !readable then refuse op .mediaError s
    else if !imageRuns s.fuse (inactiveSlot s) || decide (slotVersion (inactiveSlot s) < s.int.antiRoll) then
      refuse op .signatureFail s
    else if admits (waitingNeeds s) ⟨slotsNeeded .antiRoll s, 0, true⟩ s then activate op s
    else enterEnergyWait op s) s

/-! ### FAMILY_KEY_LOAD (R246, R247) -/

/-- The 24-byte plaintext names its family and ends in six zero bytes (R246). -/
def keyFits (family : Nat) (plain : List Byte) : Bool :=
  decide (plain.length = 24) && decide (fieldAt plain 0x10 2 = family) && decide (fieldAt plain 0x12 6 = 0)

/-- FAMILY_KEY_LOAD: the host's buffer is unwrapped under the key-loading key; a buffer that fails is BAD_FIELD (R246, R247). -/
def familyKeyLoad (op : Op) (s : State) : State :=
  gated (gate op s.ready.journal s) op (fun s =>
    let family := op.obj.toNat
    if !fieldsFree op 0xF 0 0 allBits || !bufferAligned op.c then refuse op .badField s
    else
      match unwrapKey (leBytes 32 s.fuse.loadingKey.toNat) (readHost s op.c.toNat 32) with
      | none => refuse op .badField s
      | some plain =>
        if !keyFits family plain then refuse op .badField s
        else
          let key : W128 := BitVec.ofNat 128 (fieldAt plain 0 16)
          awaitRecord op (.config (0x100 + family)) 0 0 (rekeyFamily family key
            { s with hyc := { s.hyc with
                families := insertBy (fun f => f.1) (family, key) (s.hyc.families.filter fun f => f.1 != family) } })) s

/-! ### Waits tried again -/

/-- Everything that waits for places, ceilings or the line is tried again, in the order of R87 (R86, R87).
(DEDUCED: notes/assumptions/22.md) -/
def retryWaits (s : State) : State :=
  let s1 := retryOrder activate (admitRepairs s).hif.energyOrder [] (admitRepairs s)
  serveAll (retryClearing (retryChallenges (retryPlaces s1)))

end Sys2Proof.Machine
end

