-- ==== Sys2Proof/Machine/Maint.lean ====
section
/-!
DEFINITION. The maintenance arbiter: its queue, the drains, BIST_BLOCK, COMPACT, REFRESH_SCAN and CAP_MEASURE
(spec/12_health_selftest.md R330-R335; spec/06_placement.md R173; spec/04_journal_flash.md R117-R123;
spec/05_durability_recovery.md R142).
-/
namespace Sys2Proof.Machine

/-! ### The queue (R332) -/

/-- A request of the F840 itself, or of the host by its ticket. -/
def newMaint (kind block mode ticket : Nat) (forced : Bool) (s : State) : Maint :=
  ⟨kind, block, mode, ticket, forced, none, s.clk.now, 0⟩

/-- An internal request of this kind; COMPACTs of the two copies are two kinds (R332). -/
def sameInternal (kind block : Nat) (m : Maint) : Bool :=
  m.ticket == 0 && m.kind == kind && (kind != 2 || m.block == block)

/-- An internal request is queued or merged; a forced COMPACT takes the head (R332). -/
def queueInternal (kind block : Nat) (forced : Bool) (s : State) : State :=
  if inSafe s ∨ s.pmu.shutdown = true ∨ s.pmu.phase ≠ .running then s
  else
    match s.mnt.queue.find? (sameInternal kind block) with
    | some m =>
      if forced then
        { s with mnt := { s.mnt with
            queue := { m with forced := true } :: s.mnt.queue.filter fun x => !sameInternal kind block x } }
      else s
    | none =>
      let m := newMaint kind block 0 0 forced s
      { s with mnt := { s.mnt with queue := if forced then m :: s.mnt.queue else s.mnt.queue ++ [m] } }

/-- A COMPACT of the copy runs, forced if `forced` asks for one. -/
def compactRuns (s : State) (block : Nat) (forced : Bool) : Bool :=
  match s.mnt.running with
  | some r => r.req.kind == 2 && r.req.block == block && (r.req.forced || !forced)
  | none => false

/-- A copy with fewer than 24 free sectors gets a COMPACT, with fewer than 8 a forced one (R118). -/
def checkCopy (block : Nat) (s : State) : State :=
  let copyB := decide (block = 1)
  let free := freeSectors s copyB
  if copyOut s copyB then s
  else if free < 8 then (if compactRuns s block true then s else queueInternal 2 block true s)
  else if free < 24 then (if compactRuns s block false then s else queueInternal 2 block false s)
  else s

/-- Both copies (R118). -/
def checkCopies (s : State) : State := checkCopy 1 (checkCopy 0 s)

/-! ### Drain conditions (R173) -/

/-- The blocks that can be tested during normal work (R330). -/
def testable : List Nat := [0, 1, 2, 3, 0x10, 0x11, 0x20, 0x21] ++ (List.range 10).map fun i => 0x30 + i

/-- Other existing blocks: CP0, CP1, PK, HYC, CTT, KIT, DRB, JRN, HIF, PMU, HMU (R330). -/
def otherBlocks : List Nat := (List.range 11).map fun i => 0x40 + i

/-- The drain condition of a block as it stands (R173); a block out of service is not drained, nor one that nothing could stand in
for. (DEDUCED: notes/assumptions/50.md) -/
def drainAllowed (s : State) (block : Nat) : Bool :=
  if block < 4 then
    decide (s.mnt.load ≤ 9000000) && (enginesUp s).contains block && decide (2 ≤ (enginesUp s).length)
  else if block = 0x10 ∨ block = 0x11 then
    decide (s.flush.why = .none) && !s.mnt.out.contains 0x10 && !s.mnt.out.contains 0x11
  else if block = 0x20 ∨ block = 0x21 then energyForSingle 4 s && !s.jrn.outA && !s.jrn.outB
  else
    match findSource s (block - 0x30) with
    | some x => (decide (x.st = .spare) && !isNamed s x.code) || (decide (x.st = .active) && (spareFor s x.code).isSome)
    | none => false

/-- A window of R166 passes: for each block, the windows in which its condition has held without a break, up to 4 (R173). -/
def noteDrains (s : State) : State :=
  { s with mnt := { s.mnt with
      held := testable.map fun b =>
        (b, if drainAllowed s b then min 4 ((match s.mnt.held.find? fun h => h.1 == b with | some h => h.2 | none => 0) + 1)
            else 0) } }

/-- A drain may start: its condition holds and has held for the last 4 windows (R173). -/
def drainReady (s : State) (block : Nat) : Bool := drainAllowed s block && s.mnt.held.contains (block, 4)

/-- A group goes to another engine, and the decision is logged with the load gap (R172, R181). -/
def moveGroup (g e gap : Nat) (s : State) : State :=
  logDecision 0x07 g (engineOf s g) e gap (modGroup g (fun x => { x with engine := e }) s)

/-- The gap between the highest and the lowest engine load (R172). -/
def loadGap (s : State) : Nat :=
  let loads := s.ctr.engines.map fun e => e.load
  loads.foldl max 0 - loads.foldl min (loads.foldl max 0)

/-- The groups of an engine that is drained go to the others in turn, each once no operation on a member is in flight (R11, R173). -/
def moveOff : List Nat → State → State
  | [], s => s
  | g :: rest, s =>
    match s.mnt.running with
    | some r =>
      let up := enginesUp s
      if groupQuiet s g then
        moveOff rest (moveGroup g (nthOr 0 (r.moved % up.length) up) (loadGap s)
          { s with mnt := { s.mnt with running := some { r with moved := r.moved + 1 } } })
      else moveOff rest s
    | none => s

/-- The drain of an engine goes on (R173). -/
def tendDrain (s : State) : State :=
  match s.mnt.running with
  | some r =>
    if r.req.kind = 1 ∧ r.req.block < 4 then
      moveOff ((s.ctr.groups.filter fun g => g.engine == r.req.block).map fun g => g.num) s
    else s
  | none => s

/-- A block is drained (R173, R181): an engine's groups go to the others, a copy becomes unavailable, a source is replaced at the next
boundary or leaves SPARE. -/
def startDrain (block : Nat) (s : State) : State :=
  let s1 := logDecision 0x08 (drainCode block) 0 0 s.mnt.load s
  if block < 4 then
    tendDrain { s1 with ctr := { s1.ctr with engines := modNth (fun e => { e with drained := true }) block s1.ctr.engines } }
  else if block = 0x20 then takeOut false s1
  else if block = 0x21 then takeOut true s1
  else if 0x30 ≤ block then
    let c := block - 0x30
    match findSource s c, spareFor s c with
    | some x, some y =>
      if x.st = .active then
        logDecision 0x0C (bit (isClassS c)) c y.code 0
          (modSource c (fun x => { x with switchDue := some y.code, swap := none }) s1)
      else modSource c (fun x => { x with st := .drained }) s1
    | _, _ => modSource c (fun x => { x with st := .drained }) s1
  else s1

/-! ### CAP_MEASURE (R142) -/

/-- The lowest VHOLD a CAP_MEASURE will reach, in mV, from the last measurement, rounded down (R142).
(DEDUCED: notes/assumptions/53.md) -/
def lowestDraw (s : State) : Nat :=
  11000 - (10000000 + s.pmu.cMeas - 1) / s.pmu.cMeas - (s.pmu.esrMeas + 9) / 10

/-- Every set's occupancy is within the caps (R142). -/
def setsFit (s : State) : Bool :=
  decide (strictOccupancy s ≤ s.owed.capS) && decide (boundedOccupancy s ≤ s.owed.capB)

/-- A CAP_MEASURE that has made no draw starts its first once the sets fit the lowered caps (R142). -/
def firstDraw (s : State) : State :=
  match s.mnt.running with
  | some r =>
    if r.req.kind = 4 ∧ r.draws = 0 ∧ r.drawing = false ∧ setsFit s = true then
      { s with
        mnt := { s.mnt with running := some { r with drawing := true, firstAt := s.clk.now } }
        pmu := { s.pmu with drawing := true } }
    else s
  | none => s

/-! ### Starting (R332) -/

/-- An activity that has just started. -/
def newRunning (m : Maint) (s : State) : Running :=
  { req := { m with changed := s.clk.now }, started := s.clk.now, test := none, catching := false, value := m.value, draws := 0
    drawing := false, firstAt := 0, falls := 0, steps := 0, failing := 0, moved := 0
    left := if m.kind = 3 then (s.jrn.sectors.filter fun x => decide (x.st = .inUse)).map fun x => (x.bank, x.idx) else [] }

/-- Compaction or refresh still empties or erases a sector of a copy (R117, R122). -/
def copyBusy (s : State) (copyB : Bool) : Bool :=
  (s.jrn.emptying.any fun e => isCopyB e.bank == copyB && !e.retire) ||
    s.jrn.sectors.any fun x => isCopyB x.bank == copyB && decide (x.st = .erasing)

/-- The sectors still to be scanned, without one that is done and those no longer in use. -/
def scanLeft (bank idx : Nat) (left : List (Nat × Nat)) (s : State) : List (Nat × Nat) :=
  left.filter fun p => decide (p ≠ (bank, idx)) &&
    s.jrn.sectors.any fun y => y.bank == p.1 && y.idx == p.2 && decide (y.st = .inUse)

/-- A REFRESH_SCAN ends once its last sector is scanned and nothing it asked for is still under way (R122, R335). -/
def endScan (s : State) : State :=
  match s.mnt.running with
  | some r =>
    if r.req.kind = 3 ∧ scanLeft 4 0 r.left s = [] ∧ (s.jrn.emptying.any fun e => e.refresh.isSome) = false then
      maintDone r.req r.started 0 r.value s
    else s
  | none => s

/-- The activity runs: a block is drained, V_top is lowered, the sectors to scan are noted (R122, R142, R173). -/
def startActivity (m : Maint) (s : State) : State :=
  let s1 := { s with mnt := { s.mnt with running := some (newRunning m s) } }
  if m.kind = 1 then startDrain m.block s1
  else if m.kind = 3 then endScan { s1 with jrn := { s1.jrn with weakMax := 0 } }
  else if m.kind = 4 then firstDraw (recomputeCaps { s1 with pmu := { s1.pmu with vTopCap := some (lowestDraw s) } })
  else s1

/-- An activity may run: in WARN a forced COMPACT alone, and CAP_MEASURE only while both copies are available (R134, R149, R332). -/
def mayRun (m : Maint) (s : State) : Bool :=
  match s.pmu.power with
  | .normal => m.kind != 4 || (!s.jrn.outA && !s.jrn.outB)
  | .warn => m.kind == 2 && m.forced
  | .holdup => false

/-- The request at the head of the queue starts; a BIST_BLOCK whose drain condition fails lets the next one go first
(R332). (DEDUCED: notes/assumptions/51.md) -/
def startHead : Nat → State → State
  | 0, s => s
  | n + 1, s =>
    match s.mnt.queue with
    | [] => s
    | m :: rest =>
      if !mayRun m s then s
      else if m.kind = 1 ∧ drainReady s m.block = false then
        let waiting := { m with turn := some (match m.turn with | some t => t | none => s.clk.now) }
        match rest with
        | [] => { s with mnt := { s.mnt with queue := [waiting] } }
        | next :: more => startHead n { s with mnt := { s.mnt with queue := next :: waiting :: more } }
      else startActivity m { s with mnt := { s.mnt with queue := rest } }

/-- MAINT_ACTIVITY_START: the arbiter starts an activity where none runs (R332). -/
def startMaint (s : State) : State :=
  if s.mnt.running.isSome ∨ s.flush.why ≠ .none ∨ inSafe s ∨ s.pmu.shutdown = true then s else startHead 2 s

/-- A BIST_BLOCK whose drain condition has not held within 60 s of its first turn ends with result 4 (R332). -/
def deferBlock (s : State) : State :=
  match s.mnt.queue.find? fun m => m.kind == 1 && match m.turn with | some t => decide (t + 60 * second ≤ s.clk.now) | none => false with
  | none => s
  | some m =>
    postDone m (match m.turn with | some t => t | none => s.clk.now) 4 0
      { s with mnt := { s.mnt with queue := s.mnt.queue.filter fun x => decide (x ≠ m) } }

/-! ### Interruptions (R332, R173) -/

/-- A stopped request is first in the queue again; an internal one takes a queued internal one of its kind with it (R332). -/
def requeue (m : Maint) (s : State) : State :=
  match (if m.ticket = 0 then s.mnt.queue.find? (sameInternal m.kind m.block) else none) with
  | some x =>
    { s with mnt := { s.mnt with
        queue := { m with forced := m.forced || x.forced } :: s.mnt.queue.filter fun y => !sameInternal m.kind m.block y } }
  | none => { s with mnt := { s.mnt with queue := m :: s.mnt.queue } }

/-- The activity stops and goes back to the head of the queue, without MAINT_DONE; what it has erased or refreshed stays counted
(R332, R335). -/
def requeueRunning (s : State) : State :=
  match s.mnt.running with
  | none => s
  | some r =>
    let s1 := releaseActivity r 0 s
    requeue { r.req with changed := s.clk.now, value := r.value }
      (stopForward { s1 with mnt := { s1.mnt with running := none } })

/-- WARN begins: a BIST_BLOCK ends early, a forced COMPACT continues, any other activity stops (R149, R173, R332). -/
def warnMaint (s : State) : State :=
  match s.mnt.running with
  | none => s
  | some r =>
    if r.catching then s
    else if r.req.kind = 1 then endActivity 3 2 s
    else if r.req.kind = 2 ∧ r.req.forced = true then s
    else requeueRunning s

/-- HOLDUP begins: a BIST_BLOCK ends with result 5, any other activity is first in the queue again, and erases and copies are
abandoned (R121, R173, R332). Decision 0x09 has then 2 in its from field. (DESIGN CHOICE: notes/assumptions/82.md) -/
def holdupMaint (s : State) : State :=
  let s1 := match s.mnt.running with
    | none => s
    | some r => if r.req.kind = 1 then endActivity 5 2 s else requeueRunning s
  abandonForward s1

/-! ### BIST_BLOCK (R325-R331) -/

/-- What a BIST_RESULT notes of this moment (R327). -/
def bistStartNow (s : State) : BistStart := ⟨s.clk.now, s.int.posec, calendar s, s.pmu.vin⟩

/-- The payload of BIST_RESULT (R327). -/
def bistPayload (result kind completed : Nat) (passed failed : List Nat) (sources unreadable : Nat) (start : BistStart)
    (duration peak count : Nat) : List Byte :=
  leBytes 1 result ++ leBytes 1 kind ++ leBytes 1 completed ++ leBytes 1 (failed.foldl min (failed.headD 0)) ++
    leBytes 2 (posMap passed) ++ leBytes 2 (posMap failed) ++ leBytes 2 sources ++ leBytes 2 (saturate unreadable 65535) ++
    leBytes 8 start.posec ++ leBytes 8 start.cal ++ leBytes 4 duration ++ leBytes 2 (saturate peak 65535) ++
    leBytes 2 (saturate start.vin 65535) ++ leBytes 1 count ++ leBytes 7 0

/-- The block that is drained is empty: no group and no operation is left on an engine, no program runs in a copy, a source has left
its class (R11, R173). (DEDUCED: notes/assumptions/50.md) -/
def isDrained (b : Nat) (s : State) : Bool :=
  if b < 4 then !(s.ctr.groups.any fun g => g.engine == b) && decide ((nthOr Engine.reset b s.ctr.engines).busyTill ≤ s.clk.now)
  else if b = 0x20 ∨ b = 0x21 then !(s.jrn.progs.any fun p => isCopyB p.bank == decide (b = 0x21))
  else if 0x30 ≤ b then
    match findSource s (b - 0x30) with
    | some x => decide (x.st = .drained) || decide (x.st = .retired)
    | none => false
  else true

/-- The block is empty: its test begins (R173). -/
def blockDrained (s : State) : State :=
  match s.mnt.running with
  | none => s
  | some r =>
    if r.req.kind = 1 ∧ r.test = none ∧ isDrained r.req.block s = true then
      { s with mnt := { s.mnt with running := some { r with test := some (bistStartNow s) } } }
    else s

/-- A failed block stays out of service until the next reset (R331). -/
def keepOut (block : Nat) (s : State) : State :=
  let s1 := { s with mnt := { s.mnt with out := s.mnt.out ++ [block] } }
  if block < 4 then
    { s1 with ctr := { s1.ctr with engines := modNth (fun e => { e with drained := false, failed := true }) block s1.ctr.engines } }
  else if 0x30 ≤ block then
    match findSource s1 (block - 0x30) with
    | some x => if x.st = .retired then s1 else updateRandom (failStartup x s1)
    | none => s1
  else s1

/-- A test or calibration during normal work ends: the block returns, or stays out with its BIST_RESULT (R331, R335). -/
def blockDone (failedStep peak unreadable : Nat) (s : State) : State :=
  match s.mnt.running with
  | none => s
  | some r =>
    match r.test with
    | none => s
    | some start =>
      if r.req.kind ≠ 1 ∨ r.catching = true then s
      else if failedStep = 0 then
        let s1 := returnBlock r.req.block 0 s
        if r.req.block = 0x20 ∨ r.req.block = 0x21 then
          endCatchUp { s1 with mnt := { s1.mnt with running := some { r with catching := true } } }
        else maintDone r.req r.started 0 0 s1
      else
        let sources := if 0x30 ≤ r.req.block then 2 ^ (r.req.block - 0x30) else 0
        let payload := bistPayload 1 2 1 [] [failedStep] sources unreadable start ((s.clk.now - start.at_) / 1024) peak 0
        maintDone r.req r.started 1 failedStep (queueWrite 4 (.bist s.jrn.session payload) (keepOut r.req.block s))

/-! ### COMPACT (R117-R119) -/

/-- The COMPACT that runs, and whether its copy is B. -/
def runningCompact (s : State) : Option (Running × Bool) :=
  match s.mnt.running with
  | some r => if r.req.kind = 2 then some (r, decide (r.req.block = 1)) else none
  | none => none

/-- Live slots of a sector (R117). -/
def liveSlots (s : State) (x : Sector) : Nat := (liveIn s x.bank x.idx).foldl (fun n i => n + recSlots i.record) 0

/-- A sector that JRN writes, or has next to write, in its bank. -/
def isOpen (s : State) (x : Sector) : Bool :=
  (!x.shut && decide (x.next < 1024)) || s.jrn.progs.any fun p => p.bank == x.bank && p.sector == x.idx

/-- In-use sectors of a copy that compaction may take: not the open ones, into which it copies, nor those being emptied already
(R117, R119). (DEDUCED: notes/assumptions/52.md) -/
def compactable (s : State) (copyB : Bool) : List Sector :=
  s.jrn.sectors.filter fun x => isCopyB x.bank == copyB && decide (x.st = .inUse) && !isOpen s x && !isEmptying s x.bank x.idx

/-- The erase counts of a copy's usable sectors differ by more than 2,000 (R119). -/
def wornApart (s : State) (copyB : Bool) : Bool :=
  let counts := (s.jrn.sectors.filter fun x => isCopyB x.bank == copyB && decide (x.st ≠ .retired)).map fun x => x.erases
  decide (counts.foldl min (counts.headD 0) + 2000 < counts.foldl max 0)

/-- The source of the next slice; of equal sectors the first by bank and number (R119). (DESIGN CHOICE: notes/assumptions/52.md) -/
def compactSource (s : State) (copyB : Bool) : Option Sector :=
  let xs := compactable s copyB
  if wornApart s copyB then minBy (fun x => x.erases) xs
  else minBy (fun x => liveSlots s x * 2 ^ 32 + x.erases) xs

/-- A COMPACT ends at 32 free sectors, or when no in-use sector holds fewer than 512 live slots (R335). -/
def compactOver (s : State) (copyB : Bool) : Bool :=
  decide (32 ≤ freeSectors s copyB) || !((compactable s copyB).any fun x => decide (liveSlots s x < 512))

/-- The running COMPACT ends, if it has reached its end and nothing it began is under way (R335). -/
def endCompact (s : State) : State :=
  match runningCompact s with
  | some (r, copyB) => if compactOver s copyB && !copyBusy s copyB then maintDone r.req r.started 0 r.value s else s
  | none => s

/-- Writes of ranks 1 to 5 wait, to which a slice yields (R332). -/
def writesWait (s : State) : Bool :=
  (s.jrn.queue.any fun j => decide (j.rank ≤ 5)) || s.jrn.waiting.any fun c => decide (c.write.rank ≤ 5)

/-- COMPACT_SLICE: the live records of one sector are read and begin to go forward; its erase begins once all of them have gone
(R96, R117, R119). -/
def compactSlice (reads : List SlotRead) (s : State) : State :=
  match runningCompact s with
  | none => s
  | some (r, copyB) =>
    if copyBusy s copyB then s
    else if compactOver s copyB then endCompact s
    else if r.req.forced = false ∧ writesWait s = true then s
    else
      match compactSource s copyB with
      | none => s
      | some x =>
        let seen := reads.filter fun y => y.bank == x.bank && y.sector == x.idx
        startEmptying ⟨x.bank, x.idx, false, if r.req.forced then 2 else 6, none, none⟩
          (loseUnreadable seen false (countCorrected seen s))

/-- A sector after an erase that succeeded (R105). -/
def erasedNow (duration : Nat) (y : Sector) : Sector := { y with
  st := .erased, erases := min (2 ^ 32 - 1) (y.erases + 1), eraseTime := saturate (duration / 2 ^ 14) 65535
  next := 1, shut := false, failures := 0, corrected := 0, weak := 0 }

/-- SECTOR_ERASE_DONE: the sector is erased, or retired where its erase failed or took longer than 20 ms (R105, R117, R120). -/
def eraseDone (bank idx : Nat) (erased : Bool) (duration : Nat) (s : State) : State :=
  match findSector s bank idx with
  | none => s
  | some x =>
    if x.st ≠ .erasing then s
    else
      let s1 := { s with jrn := { s.jrn with
        eraseTimes := (s.jrn.eraseTimes.1 + 1, s.jrn.eraseTimes.2 + duration / 2 ^ 14) } }
      let s2 := if erased then modSector bank idx (erasedNow duration) s1 else putSlot bank idx 0 none s1
      if !erased || decide (20 * second < 1000 * duration) then retireSector bank idx s2
      else
        match runningCompact s2 with
        | some (r, copyB) =>
          if copyB = isCopyB bank then { s2 with mnt := { s2.mnt with running := some { r with value := r.value + 1 } } } else s2
        | none => s2

/-! ### REFRESH_SCAN (R122, R123) -/

/-- What JRN does with a scanned sector (R122): nothing, or a refresh for the reason given, 3 for a retirement. -/
def refreshAction (s : State) (x : Sector) (weak : Nat) : Option Nat :=
  let age := s.int.posec / 3600 - x.opened
  if 256 < weak ∧ age ≤ 720 then some 3
  else if 48 < weak then some 0
  else if 8 ≤ x.corrected then some 2
  else if 17520 ≤ age then some 1
  else none

/-- REFRESH_SCAN_SECTOR: the scan of the next sector ends. It takes one bank at a time, reads no bank that programs, and yields to
writes of ranks 1 to 5 (R96, R122, R332). -/
def scanSector (bank idx weak : Nat) (reads : List SlotRead) (s : State) : State :=
  match s.mnt.running, findSector s bank idx with
  | some r, some _ =>
    if r.req.kind ≠ 3 ∨ (scanLeft 4 0 r.left s).head? ≠ some (bank, idx) ∨ bankIdle s bank = false ∨ writesWait s = true then s
    else
      let seen := reads.filter fun y => y.bank == bank && y.sector == idx
      let s1 := countCorrected seen s
      let action := match findSector s1 bank idx with
        | some x => (refreshAction s1 x weak).map fun reason => (reason, x.corrected)
        | none => none
      let s2 := modSector bank idx (fun y => { y with weak := weak, corrected := if action.isSome then y.corrected else 0 })
        { s1 with jrn := { s1.jrn with weakMax := max s1.jrn.weakMax weak } }
      let s3 := loseUnreadable seen true { s2 with mnt := { s2.mnt with
        running := some { r with left := scanLeft bank idx r.left s2 } } }
      endScan (match action with
        | none => s3
        | some (reason, corrected) =>
          startEmptying ⟨bank, idx, decide (reason = 3), 6, some (weak, corrected, reason), none⟩ s3)
  | _, _ => s

/-! ### The draws of CAP_MEASURE (R142) -/

/-- C_meas in µF from four draws of 0.1 A × 0.1 s and the sum of their falls in µV (R142). (DESIGN CHOICE: notes/assumptions/7.md) -/
def measuredC (r : Running) : Nat := if r.falls = 0 then Config.capacitanceAtNoFall r.steps else 40000000000 / r.falls

/-- A draw ends, and the charger restarts (R142). -/
def drawEnd (fall step : Nat) (s : State) : State :=
  match s.mnt.running with
  | none => s
  | some r =>
    if r.req.kind ≠ 4 ∨ r.drawing = false then s
    else
      { s with
        pmu := { s.pmu with drawing := false }
        mnt := { s.mnt with running := some { r with
          draws := r.draws + 1, drawing := false, falls := r.falls + fall, steps := r.steps + step } } }

/-- 2 s after the start of its first draw CAP_MEASURE ends: C_meas and ESR_meas are set, the caps recomputed, and MAINT_DONE posted
(R142). -/
def finishMeasure (s : State) : State :=
  match s.mnt.running with
  | none => s
  | some r =>
    if r.req.kind = 4 ∧ r.draws = 4 ∧ r.firstAt + 2 * second ≤ s.clk.now then
      maintDone r.req r.started 0 (measuredC r) (recomputeCaps { s with pmu := { s.pmu with
        cMeas := measuredC r, esrMeas := r.steps / 400, measured := true, vTopCap := none } })
    else s

/-- A gap ends, and the next draw starts (R142). -/
def gapEnd (s : State) : State :=
  match s.mnt.running with
  | none => s
  | some r =>
    if r.req.kind = 4 ∧ r.drawing = false ∧ 1 ≤ r.draws ∧ r.draws < 4 then
      { s with mnt := { s.mnt with running := some { r with drawing := true } }, pmu := { s.pmu with drawing := true } }
    else s

/-- 10 s after READY.COUNTERS the first CAP_MEASURE is queued (R142). -/
def firstCapMeasure (s : State) : State :=
  match s.hmu.capFirst with
  | some due =>
    if due ≤ s.clk.now then queueInternal 4 0 false { s with hmu := { s.hmu with capFirst := none } } else s
  | none => s

/-! ### MAINT_START, MAINT_STATUS (R333, R334) -/

/-- The activity, block and mode of MAINT_START. -/
def maintKind (op : Op) : Nat := op.obj.toNat % 256
/-- The block code or copy (R333). -/
def maintBlock (op : Op) : Nat := op.obj.toNat / 256 % 256
/-- The mode (R333). -/
def maintMode (op : Op) : Nat := op.obj.toNat / 65536 % 2

/-- The activity, block and mode are known, and no reserved bit is set (R330, R333). -/
def maintFields (op : Op) : Bool :=
  let b := maintBlock op
  match maintKind op with
  | 1 =>
    fieldsFree op 0x1FFFF 0 0 0 && (testable.contains b || otherBlocks.contains b) &&
      (decide (maintMode op = 0) || otherBlocks.contains b || decide (b = 0x20) || decide (b = 0x21) ||
        (decide (0x30 ≤ b) && decide (sourceKind (b - 0x30) = 0)))
  | 2 => fieldsFree op 0xFFFF 0 0 0 && decide (b ≤ 1)
  | 3 => fieldsFree op 0xFF 0 0 0
  | 4 => fieldsFree op 0xFF 0 0 0
  | _ => false

/-- A ticket's place in the queue, from 1; 0 where it is not queued. -/
def queuePlace (s : State) (ticket : Nat) : Nat :=
  match (s.mnt.queue.zip (List.range s.mnt.queue.length)).find? fun m => m.1.ticket == ticket with
  | some m => m.2 + 1
  | none => 0

/-- MAINT_START: the request is queued, and started at once where the arbiter is idle (R332, R333).
(DEDUCED: notes/assumptions/51.md) -/
def maintStart (op : Op) (s : State) : State :=
  gated (gate op s.ready.counters s) op (fun s =>
    if !maintFields op then refuse op .badField s
    else if op.domain ≠ 0 then refuse op .wrongDomain s
    else if maintKind op = 1 ∧ otherBlocks.contains (maintBlock op) = true then refuse op .notOnline s
    else if 16 ≤ (s.mnt.queue.filter fun m => m.ticket != 0).length then refuse op .limitReached s
    else
      let ticket := s.mnt.nextTicket
      let block := if maintKind op ≤ 2 then maintBlock op else 0
      let m := newMaint (maintKind op) block (if maintKind op = 1 then maintMode op else 0) ticket false s
      let s1 := startMaint { s with mnt := { s.mnt with queue := s.mnt.queue ++ [m], nextTicket := ticket + 1 } }
      complete op .ok (BitVec.ofNat 64 ticket) (BitVec.ofNat 64 (queuePlace s1 ticket)) false s1) s

/-- MAINT_STATUS (R334). -/
def maintStatus (op : Op) (s : State) : State :=
  gated (gate op true s) op (fun s =>
    let ticket := op.obj.toNat
    let answer (a b : Nat) : State := complete op .ok (BitVec.ofNat 64 a) (BitVec.ofNat 64 b) false s
    if !fieldsFree op allObj 0 0 0 then refuse op .badField s
    else if ticket = 0 then
      match s.mnt.running with
      | some r => answer (r.req.kind + 256 * s.mnt.queue.length) r.req.ticket
      | none => answer (256 * s.mnt.queue.length) 0
    else
      match s.mnt.queue.find? (fun m => m.ticket == ticket), s.mnt.running, s.mnt.ended.find? (fun e => e.1 == ticket) with
      | some m, _, _ => answer (256 * queuePlace s ticket) m.changed
      | none, some r, ended =>
        if r.req.ticket = ticket then answer 1 r.req.changed
        else
          match ended with
          | some (_, result, time) => answer (2 + 65536 * result) time
          | none => refuse op .noObject s
      | none, none, some (_, result, time) => answer (2 + 65536 * result) time
      | none, none, none => refuse op .noObject s) s

/-! ### What follows at once -/

/-- Both copies unavailable in a session: the journal is unrecoverable (R116). -/
def checkJournal (s : State) : State :=
  if s.jrn.outA && s.jrn.outB && decide (s.pmu.phase = .running) then enterSafe 3 s else s

/-- Maintenance goes on where something has ended (R331, R335). -/
def tendMaint (s : State) : State := checkCopies (endCompact (endScan (endCatchUp s)))

/-- What follows at once from a change of the owed sets, the queues or the ports: ports whose host operation is gone go on, placement
releases STRICT-set entries, what waits is tried again, pending seconds are counted, sectors being emptied and an engine being drained go on, JRN gives idle banks their next programs, and
maintenance goes on (R55, R87, R107, R116, R118, R176, R269, R391). -/
def background (s : State) : State :=
  tendMaint (checkJournal (pump (tendDrain (tendEmptying (countSeconds (serveSeeds (retryWaits (releaseStrict (dropUnused
    (dropOrphans s))))))))))

end Sys2Proof.Machine
end

