-- ==== Sys2Proof/Machine/Health.lean ====
section
/-!
DEFINITION. HMU: dailies, the end-of-life fits and their alerts (spec/12_health_selftest.md R314-R322).
-/
namespace Sys2Proof.Machine

/-! ### The daily (R314-R316) -/

/-- The shift of a pair, in 0.001 %: (N_u − N_s) / N_u; the field saturates (R314, R316). -/
def shiftOf (pair : Nat × Nat) : Nat :=
  if pair.1 = 0 then saturate Config.shiftAtNoCount 65535 else saturate ((pair.1 - pair.2) * 100000 / pair.1) 65535

/-- Usable journal sectors: those not retired. -/
def usable (s : State) : List Sector := s.jrn.sectors.filter fun x => decide (x.st ≠ .retired)

/-- Retired sectors of a copy (R314). -/
def retiredIn (s : State) (copyB : Bool) : Nat :=
  (s.jrn.sectors.filter fun x => isCopyB x.bank == copyB && decide (x.st = .retired)).length

/-- Tags with attention set (R316). -/
def attentionTags (s : State) : Nat :=
  s.hyc.ports.foldl (fun n x => n + (x.pos.filter fun y => y.known && y.attention).length) 0

/-- A sum over a list. -/
def sumOf {α : Type} (f : α → Nat) (l : List α) : Nat := l.foldl (fun n x => n + f x) 0

/-- The payload of HEALTH_DAILY, as it would be collected now (R316); its layout has no field for the device time that R14 says the dailies
carry. (DEDUCED: notes/assumptions/54.md) -/
def dailyPayload (m : Measures) (s : State) : List Byte :=
  let us := usable s
  let (erases, times) := s.jrn.eraseTimes
  padTo 108 (leBytes 8 (calendar s) ++ leBytes 8 s.int.posec ++
    leBytes 1 (bit s.clk.calNotSet + 2 * bit (timeImprecise s)) ++ [m.tempMax, m.tempMean] ++ leBytes 1 0 ++
    leBytes 4 (saturate m.hotSeconds (2 ^ 32 - 1)) ++
    (List.range 8).flatMap (fun i => leBytes 2 (shiftOf (nthOr (0, 0) i m.ag))) ++
    leBytes 4 (us.foldl (fun n x => max n x.erases) 0) ++ leBytes 4 (sumOf (fun x => x.erases) us / us.length) ++
    leBytes 2 (saturate (times / erases) 65535) ++ leBytes 1 (saturate (retiredIn s false) 255) ++
    leBytes 1 (saturate (retiredIn s true) 255) ++ leBytes 2 (saturate s.jrn.weakMax 65535) ++
    leBytes 2 (saturate s.jrn.correctedToday 65535) ++ leBytes 4 (saturate s.pmu.cMeas (2 ^ 32 - 1)) ++
    leBytes 2 (saturate s.pmu.esrMeas 65535) ++ leBytes 2 (saturate s.ctr.corrected 65535) ++
    (List.range 10).map (fun c => BitVec.ofNat 8 (saturate ((match findSource s c with | some x => x.today | none => 0)) 255)) ++
    leBytes 2 ((s.nsu.sources.filter fun x => decide (x.st = .retired)).foldl (fun n x => n + 2 ^ x.code) 0) ++
    leBytes 2 (s.hyc.mirrors.filter fun x => x.present).length ++ leBytes 2 s.hyc.mirrors.length ++
    leBytes 2 (saturate s.hyc.inserted 65535) ++ leBytes 2 (attentionTags s) ++
    [match s.hyc.tagTemp with | some b => b | none => Config.noTagTemp] ++
    [match s.hyc.tagMargin with | some n => BitVec.ofNat 8 (saturate n 255) | none => Config.noTagMargin] ++ leBytes 2 0 ++
    leBytes 4 (saturate (s.hmu.ctrOps / 2 ^ 20) (2 ^ 32 - 1)) ++ leBytes 4 (saturate (s.jrn.slotsToday / 1024) (2 ^ 32 - 1)))

/-- The counts of the day begin again (R316). -/
def clearToday (s : State) : State :=
  { s with
    jrn := { s.jrn with eraseTimes := (0, 0), correctedToday := 0, slotsToday := 0 }
    ctr := { s.ctr with corrected := 0 }
    nsu := { s.nsu with sources := s.nsu.sources.map fun x => { x with today := 0 } }
    hyc := { s.hyc with inserted := 0, tagTemp := none, tagMargin := none }
    hmu := { s.hmu with ctrOps := 0 } }

/-! ### The fit (R318) -/

/-- Sums over n samples (t, y), as exact integers. -/
structure Sums where
  n : Int
  t : Int
  y : Int
  tt : Int
  ty : Int
  yy : Int

/-- The sums of a series. -/
def sumsOf (l : List (Nat × Nat)) : Sums :=
  let add (f : Nat × Nat → Int) : Int := l.foldl (fun a p => a + f p) 0
  ⟨l.length, add fun p => p.1, add fun p => p.2, add fun p => (p.1 : Int) * p.1, add fun p => (p.1 : Int) * p.2,
    add fun p => (p.2 : Int) * p.2⟩

/-- A fit: status, days, lower bound, fitted value rounded, slope in units of 2^-16 per day (R318, R322). -/
structure Fit where
  status : Nat
  samples : Nat
  days : Nat
  lower : Nat
  fitted : Int
  slope : Int
  newest : Nat

/-- The largest 32-bit number of days d for which `ok d` holds, ok falling with d: one bit at a time from the top. -/
def largestDays (ok : Int → Bool) : Nat → Int → Int
  | 0, d => d
  | b + 1, d => largestDays ok b (if ok (d + 2 ^ b) then d + 2 ^ b else d)

/-- A number of days saturates at 0xFFFF_FFFE (R318). -/
def daysField (d : Int) : Nat := min d.toNat 0xFFFFFFFE

/-- The fit of a series in the direction `g` (+1 rising, −1 falling) towards a threshold, over its newest 90 samples, at least 14
(R318): exact rational arithmetic, se² = E / (X² (n − 2)) with X = n·Stt − St² and E = (n·Syy − Sy²)·X − B², b = B / X.
(DESIGN CHOICE: notes/assumptions/6.md) (DEDUCED: notes/assumptions/46.md) -/
def fitSeries (g : Int) (threshold : Nat) (series : List (Nat × Nat)) : Option Fit :=
  let l := lastN 90 series
  if l.length < 14 then none
  else
    let u := sumsOf l
    let latest : Nat := match l.getLast? with
      | some p => p.1
      | none => 0
    let x := u.n * u.tt - u.t * u.t
    let b := u.n * u.ty - u.t * u.y
    let e := (u.n * u.yy - u.y * u.y) * x - b * b
    let value := u.y * x + b * (u.n * latest - u.t)
    let scale := u.n * x
    let m := g * (threshold * scale - value)
    let q : Int := Config.tQuantile (l.length - 2)
    let zn := q * q * e
    let zd := (u.n - 2) * 2 ^ 64
    let stops (d : Int) : Bool :=
      let rest := m - d * u.n * (g * b)
      decide (0 ≤ rest) && decide (d * d * u.n * u.n * zn ≤ rest * rest * zd)
    let rising := decide (0 < g * b) || decide (b * b * zd < zn)
    let lower := daysField (largestDays stops 32 0)
    let fitted := (2 * value + scale) / (2 * scale)
    let slope := b * 2 ^ 16 / x
    let fit (status days lower : Nat) : Fit := ⟨status, l.length, days, lower, fitted, slope, latest⟩
    some (
      if m ≤ 0 then fit 3 0 0
      else if g * b ≤ 0 then fit 1 0xFFFFFFFF (if rising then lower else 0xFFFFFFFF)
      else fit 2 (daysField (m / (u.n * (g * b)))) lower)

/-! ### Indicators (R314, R319) -/

/-- An indicator: its code, direction, threshold (none where the tag's limit is not known) and samples. -/
structure Indicator where
  code : Nat
  dir : Int
  threshold : Option Nat
  series : List (Nat × Nat)

/-- A field of the dailies as a series over their days. -/
def dailySeries (dailies : List (Nat × List Byte)) (offset size : Nat) : List (Nat × Nat) :=
  dailies.map fun d => (d.1, fieldAt d.2 offset size)

/-- The device indicators over a list of dailies (R314, R316). -/
def deviceIndicators (dailies : List (Nat × List Byte)) : List Indicator :=
  let ind (code : Nat) (dir : Int) (threshold offset size : Nat) : Indicator :=
    ⟨code, dir, some threshold, dailySeries dailies offset size⟩
  (List.range 8).map (fun i => ind i 1 5000 (0x18 + 2 * i) 2) ++
    [ind 0x10 1 100000 0x28 4, ind 0x11 1 983 0x30 2, ind 0x12 1 32 0x32 1, ind 0x13 1 32 0x33 1, ind 0x14 1 256 0x34 2,
      ind 0x20 (-1) 4700 0x38 4, ind 0x21 1 200 0x3C 2]

/-- The positions whose tag is present in its mirror entry, with that entry (R319). -/
def presentTags (s : State) : List (Pos × Mirror) :=
  s.hyc.ports.flatMap fun x => x.pos.filterMap fun y =>
    if y.known then (match mirrorOf s y.serial with | some m => if m.present then some (y, m) else none | none => none) else none

/-- The accessory indicators of present tags, use counts first (R314, R319). -/
def tagIndicators (s : State) : List Indicator :=
  (sortBy (fun p => p.2.idx) (presentTags s)).map (fun p =>
      ⟨0x10000 + p.2.idx, 1, if p.2.limitKnown then some p.2.limit else none, p.1.history.map fun h => (h.1, h.2.1)⟩) ++
    (sortBy (fun p => p.2.idx) (presentTags s)).map (fun p =>
      ⟨0x20000 + p.2.idx, -1, some 20, p.1.history.filterMap fun h => h.2.2.map fun v => (h.1, v)⟩)

/-- Every indicator. -/
def indicators (s : State) : List Indicator := deviceIndicators s.hmu.dailies ++ tagIndicators s

/-- The fit of an indicator; none without a threshold (R318, R319). -/
def fitOf (i : Indicator) : Option Fit :=
  match i.threshold with
  | some t => fitSeries i.dir t i.series
  | none => none

/-! ### Alerts (R320) -/

/-- The stage a lower bound lies in (R320, R322). -/
def stageOf (lower : Nat) : Nat := if lower < 30 then 3 else if lower < 90 then 2 else if lower < 365 then 1 else 0

/-- The stage kept for an indicator. -/
def alertStage (s : State) (code : Nat) : Nat :=
  match s.hmu.stages.find? fun x => x.1 == code with
  | some x => x.2
  | none => 0

/-- The stage after a fit: it falls back above 400 days, else only rises (R320). -/
def nextStage (old lower : Nat) : Nat := if 400 < lower then 0 else max old (stageOf lower)

/-- A stage kept. -/
def setStage (code stage : Nat) (s : State) : State :=
  { s with hmu := { s.hmu with stages := (s.hmu.stages.filter fun x => x.1 != code) ++ [(code, stage)] } }

/-- A signed number in so many bytes. -/
def signedBytes (n : Nat) (v : Int) : List Byte := leBytes n (v % 2 ^ (8 * n)).toNat

/-- EOL_ALERT for an indicator and its fit (R320). -/
def postAlert (i : Indicator) (f : Fit) (s : State) : State :=
  postEvent .eolAlert i.code (leBytes 4 f.days ++ leBytes 4 f.lower ++ signedBytes 4 f.fitted ++
    leBytes 4 (match i.threshold with | some t => t | none => 0)) s

/-- One indicator after its fit: an EOL_ALERT for each stage it reaches that it had not reached (R320). -/
def alertFor (i : Indicator) (s : State) : State :=
  match fitOf i with
  | none => s
  | some f =>
    let old := alertStage s i.code
    let stage := nextStage old f.lower
    (List.range (stage - old)).foldl (fun s _ => postAlert i f s) (setStage i.code stage s)

/-- Stages of device indicators as their dailies lead to them, one day after another (R320). -/
def stagesFrom (dailies : List (Nat × List Byte)) : List (Nat × Nat) :=
  (List.range (dailies.length + 1)).foldl (fun stages n =>
    (deviceIndicators (dailies.take n)).map fun i =>
      let old := match stages.find? fun x => x.1 == i.code with | some x => x.2 | none => 0
      (i.code, match fitOf i with | some f => nextStage old f.lower | none => old)) []

/-! ### Collection (R315, R318, R319) -/

/-- Each present tag's count and storage margin are sampled (R319). -/
def sampleTags (day : Nat) (s : State) : State :=
  { s with hyc := { s.hyc with
      ports := s.hyc.ports.map fun x => { x with
        pos := x.pos.map fun y =>
          match (if y.known then mirrorOf s y.serial else none) with
          | some m =>
            if m.present then
              { y with history := lastN 90 (y.history ++
                  [(day, m.count, y.side.map fun p => (nthOr 0 1 p.1).toNat)]) }
            else y
          | none => y } } }

/-- The daily is collected: queued at rank 6, the tags sampled, the maintenance of the day queued; it is kept, and every indicator
fitted, once its record is written (R24, R122, R142, R315, R318, R319). (DEDUCED: notes/assumptions/54.md) -/
def collectDaily (m : Measures) (s : State) : State :=
  let day := s.int.posec / 86400
  let s1 := sampleTags day (clearToday (queueWrite 6 (.daily day (dailyPayload m s)) s))
  queueInternal 4 0 false (queueInternal 3 0 false { s1 with hmu := { s1.hmu with dailyHeld := false } })

/-- Stages of tags that are no longer present end (R320). -/
def dropStages (s : State) : State :=
  { s with hmu := { s.hmu with
      stages := s.hmu.stages.filter fun x => decide (x.1 < 0x10000) || (tagIndicators s).any fun i => i.code == x.1 } }

/-- A daily has been written: every indicator is fitted (R24, R318, R320). -/
def fitWritten (s : State) : State :=
  if s.hmu.fitDue then
    (indicators s).foldl (fun s i => alertFor i s) (dropStages { s with hmu := { s.hmu with fitDue := false } })
  else s

/-- DAILY_COLLECTION: the powered-on day ends, and its daily is collected; in WARN the daily waits, in HOLDUP, in SAFE or after
SHUTDOWN_PREPARE it is not collected (R175, R315). -/
def dailyDue (m : Measures) (s : State) : State :=
  let due := decide (s.hmu.nextDaily ≤ s.int.posec)
  if s.pmu.phase ≠ .running ∨ (due = false ∧ s.hmu.dailyHeld = false) then s
  else
    let s1 := if due then endDay { s with hmu := { s.hmu with nextDaily := (s.int.posec / 86400 + 1) * 86400 } } else s
    if inSafe s1 = true ∨ s1.pmu.shutdown = true then { s1 with hmu := { s1.hmu with dailyHeld := false } }
    else if s1.pmu.power = .holdup then s1
    else if s1.pmu.power = .warn then { s1 with hmu := { s1.hmu with dailyHeld := true } }
    else collectDaily m s1

/-! ### HEALTH_READ, EOL_READ (R321, R322) -/

/-- HEALTH_READ and EOL_READ are served: READY.JOURNAL, or SAFE, or after SHUTDOWN_PREPARE (R322). -/
def healthServed (s : State) : Bool := s.ready.journal || inSafe s || s.pmu.shutdown

/-- The highest day number kept (R321). -/
def highestDay (s : State) : W64 :=
  match s.hmu.dailies.getLast? with
  | some d => BitVec.ofNat 64 d.1
  | none => Config.noDailyKept

/-- The 128 bytes of HEALTH_READ (R321). -/
def healthBytes (day source : Nat) (payload : List Byte) : List Byte :=
  padTo 128 (leBytes 4 day ++ leBytes 1 source ++ leBytes 11 0 ++ padTo 108 payload)

/-- HEALTH_READ (R321). (DEDUCED: notes/assumptions/54.md) -/
def healthRead (m : Measures) (op : Op) (s : State) : State :=
  gated (gate op (healthServed s) s) op (fun s =>
    if !fieldsFree op allObj 0 0 allBits || !bufferAligned op.c then refuse op .badField s
    else
      let answer (day source : Nat) (payload : List Byte) : State :=
        complete op .ok (highestDay s) 0 false (writeHost op.c.toNat (healthBytes day source payload) s)
      if op.obj = 0xFFFFFFFF then answer (s.int.posec / 86400) 1 (dailyPayload m s)
      else
        match s.hmu.dailies.find? fun d => d.1 == op.obj.toNat with
        | some d => answer d.1 0 d.2
        | none => refuse op .noObject s) s

/-- The days of a fit; none stated without one (R318, R322). -/
def fitDays (f : Option Fit) : Nat := match f with
  | some x => x.days
  | none => (Config.noFit 0).toNat

/-- The lower bound of a fit; none stated without one (R318, R322). -/
def fitLower (f : Option Fit) : Nat := match f with
  | some x => x.lower
  | none => (Config.noFit 1).toNat

/-- The 64 bytes of EOL_READ for an indicator (R322). -/
def eolBytes (s : State) (i : Indicator) (f : Option Fit) : List Byte :=
  padTo 64 (leBytes 4 i.code ++ leBytes 1 (match f with | some x => x.status | none => 0) ++
    leBytes 1 (match f with | some x => x.samples | none => min 90 i.series.length) ++ leBytes 1 (alertStage s i.code) ++
    leBytes 1 0 ++ signedBytes 8 (match f with | some x => x.fitted | none => (Config.noFit 2).toNat) ++
    leBytes 8 (match i.threshold with | some t => t | none => 0) ++
    signedBytes 8 (match f with | some x => x.slope | none => (Config.noFit 3).toNat) ++ leBytes 4 (fitDays f) ++
    leBytes 4 (fitLower f) ++ leBytes 4 (match i.series.getLast? with | some p => p.1 | none => 0))

/-- The lowest lower bound among indicators with a fit, and its code. -/
def lowestBound (is : List Indicator) : Option (Nat × Nat) :=
  (minBy (fun p => p.2) (is.filterMap fun i => (fitOf i).map fun f => (i.code, f.lower))).map fun p => (p.2, p.1)

/-- The 8 bytes of a kind of indicator in the summary (R322). -/
def boundBytes (b : Option (Nat × Nat)) : List Byte :=
  match b with
  | some (lower, code) => leBytes 4 lower ++ leBytes 4 code
  | none => leBytes 4 (Config.noFit 4).toNat ++ leBytes 4 (Config.noFit 5).toNat

/-- Indicators at an alert stage (R322). -/
def atStage (s : State) (n : Nat) : Nat := ((indicators s).filter fun i => alertStage s i.code == n).length

/-- EOL_READ (R322). -/
def eolRead (op : Op) (s : State) : State :=
  gated (gate op (healthServed s) s) op (fun s =>
    if !fieldsFree op allObj 0 0 allBits || !bufferAligned op.c then refuse op .badField s
    else if op.obj = 0xFFFFFFFF then
      let all : Nat := match lowestBound (indicators s) with
        | some (lower, _) => lower
        | none => (Config.noFit 4).toNat
      complete op .ok (BitVec.ofNat 64 all) 0 false (writeHost op.c.toNat
        (padTo 64 (boundBytes (lowestBound (deviceIndicators s.hmu.dailies)) ++ boundBytes (lowestBound (tagIndicators s)) ++
          leBytes 2 (atStage s 1) ++ leBytes 2 (atStage s 2) ++ leBytes 2 (atStage s 3))) s)
    else
      match (indicators s).find? fun i => i.code == op.obj.toNat with
      | none => refuse op .noObject s
      | some i =>
        let f := fitOf i
        complete op .ok (BitVec.ofNat 64 (fitLower f)) (BitVec.ofNat 64 (fitDays f)) false
          (writeHost op.c.toNat (eolBytes s i f) s)) s

end Sys2Proof.Machine
end

