-- ==== Sys2Proof/Machine/Placement.lean ====
section
/-!
DEFINITION. Placement's periodic work, its reports and the level of a flush (spec/06_placement.md R166-R181;
spec/05_durability_recovery.md R145, R146, R159).
-/
namespace Sys2Proof.Machine

/-! ### Windows (R166, R172, R173) -/

/-- Windows of 2^24 CLK in a second (R166). -/
def windowsPerSecond : Nat := 64

/-- A rate after a window with this rise: weight 1/8 for the new window (R166). -/
def nextRate (rate rise : Nat) : Nat := (7 * rate + windowsPerSecond * rise) / 8

/-- A counter after a window (R166, R169). -/
def leafWindow (s : State) (l : Leaf) : Leaf :=
  let rate := nextRate l.rate l.windowRise
  let slow : Bool := match findGroup s l.group with
    | some g => decide (l.cls = .loose) && decide (16 * rate < g.rate)
    | none => false
  { l with rate := rate, windowRise := 0, slowWindows := if slow then l.slowWindows + 1 else 0 }

/-- A group after a window (R166, R172). -/
def groupWindow (g : Group) : Group :=
  { g with rate := nextRate g.rate g.windowRise, windowRise := 0, lastOps := g.windowOps, lastOps0 := g.windowOps0
           windowOps := 0, windowOps0 := 0 }

/-- An engine after a window: its load is that window's operations per second (R172). -/
def engineWindow (e : Engine) : Engine :=
  { e with load := windowsPerSecond * e.ops, load0 := windowsPerSecond * e.ops0, ops := 0, ops0 := 0 }

/-- Rates and loads take the window that ends (R166, R172). -/
def closeWindowRates (s : State) : State :=
  let s1 := { s with ctr := { s.ctr with
    groups := s.ctr.groups.map groupWindow, engines := s.ctr.engines.map engineWindow } }
  { s1 with
    ctr := { s1.ctr with leaves := s1.ctr.leaves.map (leafWindow s1) }
    mnt := { s1.mnt with load := sumOf (fun e => e.load) s1.ctr.engines } }

/-- The most and the least loaded engines in service by a measure of load, and their gap (R172). -/
def loadPair (s : State) (f : Engine → Nat) : Option (Nat × Nat × Nat) :=
  let at_ (e : Nat) := f (nthOr Engine.reset e s.ctr.engines)
  match maxBy at_ (enginesUp s), minBy at_ (enginesUp s) with
  | some high, some low => some (high, low, at_ high - at_ low)
  | _, _ => none

/-- Loads too far apart (R172). -/
def farApart (p : Option (Nat × Nat × Nat)) : Bool :=
  match p with
  | some (_, _, gap) => decide (524288 < gap)
  | none => false

/-- One group goes from the most loaded engine to the least loaded one, the group whose operations best close the gap among those on
whose members no operation is in flight (R11, R172). (DESIGN CHOICE: notes/assumptions/57.md) -/
def balanceBy (s : State) (p : Option (Nat × Nat × Nat)) (f : Group → Nat) : State :=
  match p with
  | none => s
  | some (high, low, gap) =>
    match minBy (fun g => distance gap (2 * windowsPerSecond * f g))
        (s.ctr.groups.filter fun g => g.engine == high && decide (f g ≠ 0) && groupQuiet s g.num) with
    | some g => moveGroup g.num low gap s
    | none => s

/-- Where the loads by one measure have been too far apart for 4 consecutive windows, one group moves per window; class 0 load
first (R172). (DEDUCED: notes/assumptions/57.md) -/
def balance (s : State) : State :=
  let class0 := loadPair s fun e => e.load0
  let total := loadPair s fun e => e.load
  let n0 := if farApart class0 then s.ctr.gapWindows0 + 1 else 0
  let n := if farApart total then s.ctr.gapWindows + 1 else 0
  let s1 := { s with ctr := { s.ctr with gapWindows0 := n0, gapWindows := n } }
  if 4 ≤ n0 then balanceBy s1 class0 fun g => g.lastOps0
  else if 4 ≤ n then balanceBy s1 total fun g => g.lastOps
  else s1

/-- The test of a counter engine ends early when the load condition has failed for 2 consecutive windows (R173). -/
def watchDrain (s : State) : State :=
  match s.mnt.running with
  | none => s
  | some r =>
    if r.req.kind = 1 ∧ r.req.block < 4 ∧ r.test.isSome = true then
      if s.mnt.load ≤ 11000000 then { s with mnt := { s.mnt with running := some { r with failing := 0 } } }
      else if r.failing = 0 then { s with mnt := { s.mnt with running := some { r with failing := 1 } } }
      else endActivity 2 1 s
    else s

/-- PLACEMENT_WINDOW (R166, R172, R173). -/
def placementWindow (s : State) : State :=
  if !s.ready.counters then s else noteDrains (watchDrain (balance (closeWindowRates s)))

/-! ### Moves (R169, R170) -/

/-- The value form of a move can be admitted at once (R171). -/
def moveAdmitted (s : State) (n : Nat) : Bool := admits (waitingNeeds s) ⟨slotsNeeded (.leaf n false) s, 0, true⟩ s

/-- The target of a LOOSE move: a group of similar rate, its live maximum closest to V (R169). (DESIGN CHOICE:
notes/assumptions/57.md) -/
def looseTarget (s : State) (l : Leaf) : Option Group :=
  minBy (fun g => distance g.liveMax.toNat l.v.toNat)
    ((moveTargets s l).filter fun g => decide (g.rate ≤ 4 * l.rate) && decide (l.rate ≤ 4 * g.rate))

/-- A LOOSE move may start in this second of device time: at most 64 do (R169). (DESIGN CHOICE: notes/assumptions/57.md) -/
def looseRoom (s : State) : Bool := decide (s.plc.looseSecond ≠ s.clk.now / second) || decide (s.plc.looseMoves < 64)

/-- LOOSE_MOVE of a counter (R169, R171). -/
def looseMove (n : Nat) (s : State) : State :=
  match findLeaf s n with
  | none => s
  | some l =>
    let rested := match l.movedAt with
      | some t => decide (t + 2 ^ 36 ≤ s.clk.now)
      | none => true
    if l.closed ∨ l.cls ≠ .loose ∨ l.slowWindows < 8 ∨ rested = false ∨ counterQuiet s n = false ∨ moveAdmitted s n = false ∨
        looseRoom s = false ∨ inSafe s = true then s
    else
      match looseTarget s l with
      | none => s
      | some g =>
        let count := if s.plc.looseSecond = s.clk.now / second then s.plc.looseMoves + 1 else 1
        moveLeaf l g.num 0x04 false
          { s with plc := { s.plc with looseMoves := count, looseSecond := s.clk.now / second } }

/-- Uncovered BOUNDED counters, in ascending number (R139, R170). -/
def uncoveredLeaves (s : State) : List Leaf :=
  s.ctr.leaves.filter fun l => !l.closed &&
    match findGroup s l.group with
    | some g => uncoveredAt g.liveMax.toNat l
    | none => false

/-- The BOUNDED set is past three quarters of C_B, or an operation waits for one of its places (R170). -/
def boundedPressed (s : State) : Bool :=
  decide (3 * s.owed.capB < 4 * boundedOccupancy s) || (waitingNeeds s).any fun n =>
    decide (n.bounded ≠ 0) && (n.ceiling || decide (s.owed.capB < boundedOccupancy s + n.bounded))

/-- The first counter of a list that can move does; one without a target gets a group opened for it, and the next one's turn comes while
it waits for that group's ceiling or for an empty group (R143, R170, R182). -/
def moveFirst : List Leaf → State → State
  | [], s => s
  | l :: rest, s =>
    if !counterQuiet s l.num || !moveAdmitted s l.num then moveFirst rest s
    else
      match boundedTarget s l with
      | some g => moveLeaf l g.num 0x05 false s
      | none =>
        if (waitingGroup s l.num l.v.toNat).isSome then moveFirst rest s
        else
          match emptyGroup s with
          | some g => openForMove g l s
          | none => moveFirst rest s

/-- BOUNDED_MOVE: uncovered BOUNDED counters move in ascending number (R170, R171, R390). -/
def boundedMove (s : State) : State :=
  if !boundedPressed s || s.owed.frozen || inSafe s then s else moveFirst (uncoveredLeaves s) s

/-! ### Ceiling steps (R174) -/

/-- The group is active (R166). -/
def isActive (s : State) (g : Group) : Bool :=
  match g.roseAt with
  | some t => decide (s.clk.now ≤ t + 2 ^ 36)
  | none => false

/-- Active groups N (R174). -/
def activeGroups (s : State) : Nat := (s.ctr.groups.filter fun g => isActive s g).length

/-- The step for a rate: rate × w × max(60, N / 10), rounded up to a power of two from 2^16 to 2^56 (R174). -/
def stepFor (rate wear active : Nat) : Nat :=
  match (List.range 41).find? fun i => decide (rate * wear * max 600 active ≤ 10 * 2 ^ (16 + i)) with
  | some i => 2 ^ (16 + i)
  | none => 2 ^ 56

/-- An active group takes the step of its rate (R174, R181). -/
def setStep (active : Nat) (s : State) (g : Group) : State :=
  if isActive s g then
    let step := stepFor g.rate s.plc.wear active
    if step = g.step then s
    else
      scheduleCeiling g.num (logDecision 0x0A g.num (Nat.log2 g.step) (Nat.log2 step) g.rate
        (modGroup g.num (fun x => { x with step := step }) s))
  else s

/-- CEILING_STEP_UPDATE (R174, R179). -/
def stepUpdate (s : State) : State :=
  if !s.ready.counters then s
  else
    let n := activeGroups s
    let s1 := { s with plc := { s.plc with active := n, period := s.plc.wear * max 600 n / 10 } }
    s1.ctr.groups.foldl (setStep n) s1

/-! ### The scrub (R159) -/

/-- CTT_SCRUB: single-bit errors are corrected and counted, uncorrectable words repaired (R159, R160). -/
def scrub (corrected : Nat) (bad : List BadWord) (s : State) : State :=
  if !s.ready.counters then s
  else repairOrSafe bad { s with ctr := { s.ctr with corrected := s.ctr.corrected + corrected } }

/-! ### Flush plans and levels (R145, R146) -/

/-- STRICT-set entries that no write has taken yet. -/
def openEntries (s : State) : List What := (s.owed.strict.filter fun e => e.taken.isNone).map fun e => e.what

/-- Counters with an open STRICT-set entry, ascending (R146, step 2). -/
def strictLeaves (s : State) : List What :=
  (sortBy (fun p => p.1) ((openEntries s).filterMap fun w => match w with | .leaf n d => some (n, d) | _ => none)).map
    fun p => .leaf p.1 p.2

/-- Steps 4 and 5 of a flush: internal counters, key identifiers, pages (R146). -/
def planTail (s : State) : List What :=
  ((openEntries s).filter fun w => match w with | .mirror _ | .challenge | .posec | .antiRoll => true | _ => false) ++
    (sortBy (fun k => k) ((openEntries s).filterMap fun w => match w with | .kid k => some k | _ => none)).map What.kid ++
    (sortBy (fun k => k) ((openEntries s).filterMap fun w => match w with | .page p => some p | _ => none)).map What.page

/-- The group-level plan, without the marker (R146). -/
def groupPlan (s : State) : List What :=
  ((s.ctr.groups.filter fun g => g.dirty).map fun g => What.groupFloor g.num) ++ strictLeaves s ++
    ((sortBy (fun n => n) s.owed.bounded).map fun n => What.leaf n false) ++ planTail s

/-- The section-level plan, without the marker (R146). -/
def sectionPlan (s : State) : List What :=
  ((List.range 64).filter fun k => s.ctr.groups.any fun g => g.dirty && g.num / 64 == k).map What.sectionFloor ++
    strictLeaves s ++ planTail s

/-- Slot writes of a plan with its marker, in the copies available (R145, R147). -/
def planWrites (s : State) (plan : List What) : Nat :=
  let slots := 1 + sumOf entrySlots plan
  if s.jrn.outA ∨ s.jrn.outB then slots else 2 * slots

/-- Slot writes that VHOLD as it stands pays for, under R140 (R145). -/
def writesNow (s : State) : Nat := slotWritesAt s.pmu.cMeas s.pmu.esrMeas (min s.pmu.vhold 11000)

/-- The level of a flush that began now: 0 group, 1 section, 2 section level as far as the energy lasts (R145). -/
def flushLevel (s : State) : Nat :=
  if planWrites s (groupPlan s) ≤ writesNow s then 0
  else if planWrites s (sectionPlan s) ≤ writesNow s then 1
  else 2

/-! ### PLACEMENT_REPORT (R178-R181) -/

/-- The block drained now, if one is. -/
def drainedBlock (s : State) : Option Nat :=
  match s.mnt.running with
  | some r => if r.req.kind = 1 ∧ r.catching = false then some r.req.block else none
  | none => none

/-- Active sources of a class as a map of its codes from `first` on. -/
def activeMap (s : State) (first count : Nat) : Nat :=
  ((List.range count).filter fun i => match findSource s (first + i) with
    | some x => decide (x.st = .active)
    | none => false).foldl (fun n i => n + 2 ^ i) 0

/-- The summary report (R179). -/
def summaryBytes (s : State) : List Byte :=
  let block := drainedBlock s
  leBytes 2 s.ctr.groups.length ++ leBytes 2 (4096 - s.ctr.groups.length) ++ leBytes 4 s.ctr.retired.length ++
    leBytes 4 (dirtyGroups s) ++ leBytes 4 (strictOccupancy s) ++ leBytes 4 s.owed.capS ++ leBytes 4 (boundedOccupancy s) ++
    leBytes 4 s.owed.capB ++ leBytes 4 s.owed.b ++ leBytes 1 (flushLevel s) ++ leBytes 1 s.plc.wear ++
    leBytes 1 (match block with | some b => if b < 4 then b else 0xFF | none => 0xFF) ++
    leBytes 1 (match block with | some b => if b < 4 then 0 else drainCode b | none => 0) ++
    leBytes 4 s.plc.active ++ leBytes 4 s.plc.period ++ leBytes 4 0 ++ leBytes 8 s.jrn.ceilToday ++ leBytes 8 s.jrn.otherToday ++
    s.ctr.engines.flatMap (fun e => leBytes 4 (e.load / 1024)) ++
    (List.range 4).flatMap (fun e => leBytes 2 (groupsOwned s e)) ++ leBytes 2 (freeSectors s false) ++
    leBytes 2 (freeSectors s true) ++ leBytes 4 s.plc.movesToday ++ leBytes 1 (activeMap s 0 4) ++ leBytes 1 (activeMap s 4 6) ++
    leBytes 6 0 ++ leBytes 8 (sweepBits s.hyc.sweepList).toNat

/-- The group report (R180); a rate beyond 8 bytes shows its low ones. (DESIGN CHOICE: notes/assumptions/57.md) -/
def groupReport (s : State) (g : Group) : List Byte :=
  let ms := members s g.num
  leBytes 2 g.num ++ leBytes 1 g.engine ++ leBytes 1 g.domain ++ leBytes 4 g.key.toNat ++ leBytes 8 g.rate ++ leBytes 8 g.step ++
    leBytes 8 (match g.ceiling with | some c => c.toNat | none => 0) ++ leBytes 8 g.liveMax.toNat ++
    leBytes 8 ((ms.filter fun l => decide (l.cls = .loose)).foldl (fun m l => min m l.v.toNat) maxV) ++
    leBytes 8 (lowestReach s g.num) ++ leBytes 2 ms.length ++
    leBytes 2 (ms.filter fun l => uncoveredAt g.liveMax.toNat l).length ++ leBytes 4 g.moves ++ leBytes 8 g.openedAt

/-- One entry of the decision log (R181). -/
def decisionBytes (d : Decision) : List Byte :=
  leBytes 1 d.code ++ leBytes 3 0 ++ leBytes 4 d.object.toNat ++ leBytes 4 d.from_.toNat ++ leBytes 4 d.to_.toNat ++
    leBytes 8 d.value.toNat ++ leBytes 8 d.time

/-- A page of the decision log, and the entries it holds (R181). -/
def logPage (s : State) (wanted : Nat) : List Byte × Nat :=
  let es := (s.plc.log.filter fun d => decide (wanted ≤ d.num)).take 7
  (leBytes 8 (match es with | d :: _ => d.num | [] => Config.noDecision.toNat) ++ leBytes 1 es.length ++ leBytes 23 0 ++
    es.flatMap decisionBytes, es.length)

/-- The fields of PLACEMENT_REPORT (R178). -/
def reportFields (op : Op) : Bool :=
  bufferAligned op.c &&
    match op.obj.toNat % 256 with
    | 0 => fieldsFree op 0xFF 0 0 allBits
    | 1 => fieldsFree op 0xFFFFF 0 0 allBits
    | 2 => fieldsFree op 0xFF allBits 0 allBits
    | _ => false

/-- PLACEMENT_REPORT (R178). -/
def placementReport (op : Op) (s : State) : State :=
  gated (gate op s.ready.counters s) op (fun s =>
    let answer (bs : List Byte) (entries : Nat) : State :=
      complete op .ok (BitVec.ofNat 64 entries) (BitVec.ofNat 64 s.plc.nextNum) false
        (writeHost op.c.toNat (padTo 256 bs) s)
    if !reportFields op then refuse op .badField s
    else if op.obj.toNat % 256 = 1 then
      match findGroup s (op.obj.toNat / 256 % 4096) with
      | none => refuse op .noObject s
      | some g =>
        if (members s g.num).isEmpty then refuse op .noObject s
        else if foreign op g.domain then refuse op .wrongDomain s
        else answer (groupReport s g) 0
    else if op.qp ≠ 0 then refuse op .wrongDomain s
    else if op.obj.toNat % 256 = 0 then answer (summaryBytes s) 0
    else
      let (bs, n) := logPage s op.a.toNat
      answer bs n) s

end Sys2Proof.Machine
end

