-- ==== Sys2Proof/Machine/Run.lean ====
section
/-!
DEFINITION. Every operation from its dispatch on, by opcode: its checks, then its effect (spec/02_host_rings.md R60, R61, R389).
SHUTDOWN_PREPARE stands in Machine/Flush.lean.
-/
namespace Sys2Proof.Machine

/-- A counter operation takes its place at its engine (R73, R346). -/
def takePlace (op : Op) (s : State) : State :=
  if isCounterCode op.opcode then queueAtEngine (engineFor op s) (engineUnits op.opcode) s else s

/-- A counter operation or FAULT_REPORT: its engine's queue, its checks, the repair of words it finds uncorrectable, its effect
(R72, R160, R346). -/
def runCounter (bad : List BadWord) (op : Op) (s : State) : State :=
  gated (ctrGate op s) op (fun s =>
    let s1 := repairOrSafe bad (takePlace op s)
    gated (ctrGate op s1) op (startObject op) s1) s

/-- A key identifier operation (R187). -/
def runKid (op : Op) (s : State) : State := gated (kidGate op s) op (startObject op) s

/-- PARAM_WRITE and PARAM_SYNC (R131). -/
def runParam (op : Op) (s : State) : State := gated (paramGate op s) op (startObject op) s

/-- PARAM_READ, with the errors its image shows (R127-R129). -/
def runParamRead (corrected uncorrectable : List Nat) (op : Op) (s : State) : State :=
  gated (paramGate op s) op (fun s =>
    if op.domain ≠ 0 then refuse op .wrongDomain s
    else startObject op (noteImageErrors (pageNumber op) corrected uncorrectable s)) s

/-- A DRBG operation (R281, R282). -/
def runDrbg (op : Op) (s : State) : State := gated (drbgGate op s) op (fun s => updateRandom (drbgRun op s)) s

/-- TAG_READ, TAG_SIDE (R258). -/
def runTagRead (op : Op) (s : State) : State := gated (tagGate op s) op (tagReadRun op) s

/-- TAG_AUTH, TAG_CONSUME, HY_SLATE, PORT_POWER (R258). -/
def runPort (op : Op) (s : State) : State := gated (tagGate op s) op (portRun op) s

/-- An operation that has been fetched and is free to be dispatched when a flush begins takes its effect then; those that need what
their own happening brings are ABORTED (R55, R148, notes/assumptions/19.md). -/
def runOp (op : Op) (s : State) : State :=
  if isBadOpcode op then refuse op .badOpcode s
  else
    match op.opcode with
    | 0x01 => qpCreate op s
    | 0x02 => qpDelete op s
    | 0x04 => identify op s
    | 0x06 => timeSet op s
    | 0x07 => fwStage op s
    | 0x08 => fwActivate true op s
    | 0x09 => familyKeyLoad op s
    | 0x0A => domainSet op s
    | 0x33 => runTagRead op s
    | 0x34 => runTagRead op s
    | 0x35 => runPort op s
    | 0x50 => runParamRead [] [] op s
    | 0x51 => runParam op s
    | 0x52 => runParam op s
    | 0x60 => if op.obj = 0xFFFFFFFF then refuse op .aborted s else healthRead ⟨[], 0, 0, 0⟩ op s
    | 0x61 => eolRead op s
    | 0x62 => maintStart op s
    | 0x63 => maintStatus op s
    | 0x64 => placementReport op s
    | code =>
      if (0x10 ≤ code ∧ code ≤ 0x17) ∨ code = 0x25 then runCounter [] op s
      else if 0x20 ≤ code ∧ code ≤ 0x24 then runKid op s
      else if 0x41 ≤ code ∧ code ≤ 0x44 then runDrbg op s
      else refuse op .aborted s

/-- Operations of a list of fetch numbers that R46 and R47 allow to go next run in that order (R148). (DEDUCED: notes/assumptions/19.md) -/
def runReady : List Nat → State → State
  | [], s => s
  | k :: rest, s =>
    match findOp s k with
    | some op => runReady rest (if allowedNext op s then runOp op s else s)
    | none => runReady rest s

end Sys2Proof.Machine
end

