-- ==== Sys2Proof/Machine/Flush.lean ====
section
/-!
DEFINITION. The flush, resets and resumes, SHUTDOWN_PREPARE and the debug unlock (spec/05_durability_recovery.md R145-R153;
spec/11_power_clock_startup.md R297, R298; spec/12_health_selftest.md R323-R327, R340).
-/
namespace Sys2Proof.Machine

/-! ### The beginning of a flush (R146, R148) -/

/-- Operations held by FENCE complete with ABORTED (R55, R148). -/
def abortHeld (s : State) : State :=
  (s.hif.ops.filter fun op => decide (op.st = .held)).foldl (fun s op => refuse op .aborted s) s

/-- NSU stops: pending entries and inputs in progress are discarded; queues and instances stay (R285). -/
def stopNsu (s : State) : State :=
  { s with nsu := { s.nsu with powered := false, pending := [], settling := none } }

/-- Maintenance is abandoned as the reason asks, and erases and copies with it (R121, R148, R173, R323, R332, R341).
(DEDUCED: notes/assumptions/56.md) -/
def abandonMaint (why : FlushWhy) (s : State) : State :=
  match why with
  | .holdup => holdupMaint s
  | .shutdown =>
    let s1 := match s.mnt.running with
      | some r => if r.req.kind = 1 then endActivity 2 0 s else requeueRunning s
      | none => s
    abandonForward { s1 with mnt := { s1.mnt with queue := [] } }
  | _ =>
    abandonForward (match s.mnt.running with
      | some r => if r.req.kind = 1 then endActivity 5 0 s else requeueRunning s
      | none => s)

/-- A flush begins: fetching stops, the ports go OFF, maintenance is abandoned, dispatched operations finish, the owed sets are
frozen, fault-storm windows close, and the level and the plan are chosen (R145, R146, R148). -/
def beginFlush (why : FlushWhy) (cause : Option Nat) (s : State) : State :=
  let s1 := abortHeld { s with flush := { Flush.reset with why := why, begun := true, resetCause := cause } }
  let s2 := abandonMaint why (portsDown s1)
  let s3 := if why = .holdup then refuseWaits (fun _ => true) .aborted s2 else s2
  let s4 := runReady (s3.hif.ops.map fun op => op.id) s3
  let s5 := if why = .holdup then refuseWaits (fun _ => true) .aborted s4 else s4
  let s6 := closeWindows s5.kit.windows (stopNsu { s5 with owed := { s5.owed with frozen := true } })
  let level := flushLevel s6
  pump { s6 with flush := { s6.flush with
    level := level, plan := if level = 0 then groupPlan s6 else sectionPlan s6 } }

/-! ### Resets (R153, R297, R298) -/

/-- A sector as a reset leaves it: one whose erase was cut short is invalid, one in use takes no more records after the start
(R106, R121). -/
def sectorAfterReset (x : Sector) : Sector :=
  if x.st = .erasing then { x with st := .invalid } else if x.st = .inUse then { x with shut := true } else x

/-- What a reset leaves half-programmed: the slots under program, and slot 0 of a sector whose erase was cut short (R105, R106, R121). -/
def tornSlots (s : State) : State :=
  let s1 := s.jrn.progs.foldl (fun s p => putSlot p.bank p.sector (p.slot + p.done) none s) s
  (s.jrn.sectors.filter fun x => decide (x.st = .erasing) || decide (x.st = .invalid)).foldl
    (fun s x => putSlot x.bank x.idx 0 none s) s1

/-- The reset takes effect: everything but the journal flash, the code flash, the fuses and the supplies begins again (R297, R298); what
waits outside the part stays as it is. -/
def doReset (cause : Nat) (s : State) : State :=
  { State.reset with
    pending := s.pending
    mem := s.mem
    out := s.out
    regs := { Regs.reset with resetCause := cause }
    hif := { Hif.reset with nextOp := s.hif.nextOp, msixMasked := s.hif.msixMasked }
    jrn := { Jrn.reset with
      sectors := s.jrn.sectors.map sectorAfterReset, flash := (tornSlots s).jrn.flash, insts := [], nextSeq := s.jrn.nextSeq }
    pmu := { Pmu.reset with
      vin := s.pmu.vin, vhold := s.pmu.vhold, chargerOn := s.pmu.chargerOn, full := s.pmu.full, ranBefore := s.pmu.ranBefore
      resetLow := s.pmu.resetLow }
    fuse := s.fuse
    fw := { Fw.reset with slot0 := ⟨s.fw.slot0.bytes, false⟩, slot1 := ⟨s.fw.slot1.bytes, false⟩ } }

/-- A reset request: at once before SESSION_OPEN, after a debug unlock, and in HOLDUP after the marker; with the marker of a flush that
runs; otherwise through a flush of its own (R153, R298, R340). The cause recognised first stands (R313). -/
def requestReset (cause : Nat) (s : State) : State :=
  if s.pmu.phase ≠ .running ∨ s.jrn.dead = true then doReset cause s
  else if s.flush.why ≠ .none then
    { s with flush := { s.flush with resetCause := match s.flush.resetCause with | some c => some c | none => some cause } }
  else if s.pmu.power = .holdup ∧ s.flush.marker = true then doReset cause s
  else beginFlush .reset (some cause) { s with hmu := { s.hmu with bistRuns := false } }

/-! ### The return from HOLDUP (R115, R152) -/

/-- Every source that is not RETIRED enters STARTING and settles (R276, R285). -/
def restartNsu (s : State) : State :=
  { s with nsu := { s.nsu with
      powered := true, settling := some s.clk.now, heldS := true
      sources := s.nsu.sources.map fun x =>
        if x.st = .retired ∨ x.st = .off then { x with switchDue := none }
        else { x with
          st := .starting, second := false, wasActive := countsActive x, passed := false, switchDue := none, swap := none } } }

/-- POWER_RESUMED (R154). -/
def postResumed (warn holdup state slots : Nat) (s : State) : State :=
  postEvent .powerResumed 0
    (leBytes 4 (saturate (warn / 1024) (2 ^ 32 - 1)) ++ leBytes 4 (saturate (holdup / 1024) (2 ^ 32 - 1)) ++ leBytes 1 state ++
      leBytes 3 0 ++ leBytes 4 slots) s

/-- The return to NORMAL may take place: the marker is written, READY.HOLDUP is set, no SHUTDOWN_PREPARE (R150, R324). -/
def resumable (s : State) : Bool :=
  decide (s.pmu.power = .holdup) && s.pmu.vinBack && decide (s.flush.why = .none) && s.flush.marker && s.ready.holdup &&
    !s.pmu.shutdown && !s.jrn.dead && decide (s.pmu.phase = .running)

/-- HOLDUP to NORMAL without reset, with the new session's SESSION_OPEN: empty owed sets, clean groups, ports charged again, invalid
sectors erased (R105, R115, R152, R285). -/
def resume (s : State) : State :=
  let s1 := { s with
    pmu := { s.pmu with power := .normal, vinBack := false }
    jrn := { s.jrn with session := s.jrn.session + 1 }
    flush := Flush.reset
    owed := { s.owed with strict := [], bounded := [], frozen := false }
    ctr := { s.ctr with emptied := [], groups := s.ctr.groups.map fun g => { g with dirty := false } } }
  match tryWrite 1 .session s1 with
  | none => s
  | some s2 =>
    let s3 := postResumed s.pmu.warnTime (s.clk.now - s.pmu.holdupAt) (if s.flush.level = 0 then 1 else 2) s.flush.slots (portsUp s2)
    background (queueCatchUp (eraseInvalid (updateRandom (restartNsu s3))))

/-- The return takes place where everything it needs has come together (R151). -/
def tryResume (s : State) : State := if resumable s then resume s else s

/-! ### The shutdown BIST (R323, R325-R327, R341) -/

/-- The operation that waits for the shutdown. -/
def shutdownOp (s : State) : Option Op := s.hif.ops.find? fun op => decide (op.st = .shutdown)

/-- Its BIST_RESULT is written, READY.SHUTDOWN_DONE is set, and SHUTDOWN_PREPARE completes (R323).
(DEDUCED: notes/assumptions/74.md) -/
def finishShutdown (payload : List Byte) (result duration : Nat) (s : State) : State :=
  let s1 := writeNow 4 (.bist s.jrn.session payload) { s with hmu := { s.hmu with bistRuns := false, bistAt := none } }
  let s2 := setReady (fun y => { y with shutdownDone := true }) s1
  match shutdownOp s2 with
  | some op => complete op .ok (BitVec.ofNat 64 result) (BitVec.ofNat 64 duration) false s2
  | none => s2

/-- Steps of R325 that pass, given those that failed. -/
def passedSteps (failed : List Nat) : List Nat := ((List.range 16).map fun i => i + 1).filter fun n => !failed.contains n

/-- The result of a BIST: a failure of a step 1 to 15 decides it (R326). -/
def bistResult (o : BistOutcome) : Nat := if o.failed.any fun n => decide (1 ≤ n) && decide (n ≤ 15) then 1 else 0

/-- The payload of a whole stagger (R326, R327). -/
def wholeBist (kind : Nat) (o : BistOutcome) (start : BistStart) : List Byte :=
  bistPayload (bistResult o) kind 16 (passedSteps o.failed) o.failed (o.sources % 1024) o.unreadable start o.duration o.peakMw 0

/-- The payload of a BIST that was stopped after it had begun: what it had completed and found so far is measured (R327, R341). -/
def stoppedFound (b : BistStart) (elapsed : Nat) : List Byte :=
  let done := Config.stoppedBist 0 elapsed % 16
  let steps := (List.range done).map fun i => i + 1
  let failed := steps.filter fun n => (Config.stoppedBist 1 elapsed).testBit (n - 1)
  let passed := steps.filter fun n => !failed.contains n
  bistPayload 2 0 done passed failed 0 (if 14 ≤ done then Config.stoppedBist 2 elapsed else 0) b (elapsed / 1024)
    (Config.stoppedBist 3 elapsed) 0

/-- The record of a BIST that did not run, or that was stopped after it had begun, with its time (R327, R341). -/
def stoppedPayload (s : State) : List Byte × Nat :=
  match s.hmu.bistAt with
  | none => (bistPayload 2 0 0 [] [] 0 0 (bistStartNow s) 0 0 0, 0)
  | some b => (stoppedFound b (s.clk.now - b.at_), (s.clk.now - b.at_) / 1024)

/-- Step 13 of the stagger leaves the seed queues empty and every DRBG instance without a state; what else is tested is restored from
the journal (R325). (DEDUCED: notes/assumptions/65.md) -/
def reinitSram (s : State) : State :=
  updateRandom { s with
    nsu := { s.nsu with
      queueH := [], queueS := [], pending := [], internals := s.nsu.internals.map fun d => { d with state := none }
      waitI := s.nsu.internals.map fun d => d.num }
    drb := Drb.reset }

/-- No block of the stagger runs, or runs on: a record with result 2, in HOLDUP only if the energy for it is confirmed
(R323, R341). -/
def stopShutdown (s : State) : State :=
  if s.pmu.power = .holdup ∧ writesNow s < 4 then { s with hmu := { s.hmu with bistRuns := false, bistAt := none } }
  else
    let (payload, duration) := stoppedPayload s
    finishShutdown payload 2 duration s

/-- The supply fails while the stagger runs (R341). -/
def interruptBist (s : State) : State := if s.hmu.bistRuns then stopShutdown s else s

/-- SHUTDOWN_BIST_DONE (R323, R325-R327). -/
def shutdownBistDone (o : BistOutcome) (s : State) : State :=
  match s.hmu.bistAt with
  | some b => if s.hmu.bistRuns then finishShutdown (wholeBist 0 o b) (bistResult o) o.duration (reinitSram s) else s
  | none => s

/-- SHUTDOWN_PREPARE: what has been fetched finishes, then it takes effect (R323). -/
def shutdownPrepare (op : Op) (s : State) : State :=
  gated (gate op s.ready.counters s) op (fun s =>
    if !fieldsFree op 0 0 0 0 then refuse op .badField s
    else if s.flush.why ≠ .none then refuse op .aborted s
    else
      let s1 := setOpSt op.id .shutdown s
      let s2 := runReady (s1.hif.ops.map fun o => o.id) s1
      beginFlush .shutdown none { s2 with pmu := { s2.pmu with shutdown := true } }) s

/-! ### The debug unlock (R339, R340, R367) -/

/-- After the flush: the record of kind 4, the secrets zeroised, the lock open; JRN writes nothing until reset (R340). -/
def openLock (s : State) : State :=
  let payload := bistPayload 3 4 0 [] [] 0 0 (bistStartNow s) 0 0 0
  let s1 := writeNow 4 (.bist s.jrn.session payload) s
  { s1 with
    hyc := { s1.hyc with
      families := [], ports := s1.hyc.ports.map fun x => { x with pos := x.pos.map fun y => { y with key := 0, authed := false } } }
    nsu := { s1.nsu with
      queueH := [], queueS := [], pending := [], internals := s1.nsu.internals.map fun d => { d with state := none } }
    drb := Drb.reset
    keys := Keys.reset
    regs := { s1.regs with locked := false, unlockReq := false }
    jrn := { s1.jrn with dead := true } }

/-- An unlock request, from DEBUG_LOCK or the TAP: only in SAFE (R340). -/
def requestUnlock (s : State) : State :=
  if inSafe s = false ∨ s.regs.locked = false ∨ s.regs.unlockReq = true then s
  else
    let s1 := { s with regs := { s.regs with unlockReq := true } }
    if s.flush.why = .none then beginFlush .debug none s1 else s1

/-! ### The end of a flush (R147) -/

/-- Every record of the flush is written. -/
def flushWritten (s : State) : Bool :=
  decide (s.flush.why ≠ .none) && s.flush.plan.isEmpty && s.jrn.progs.isEmpty && s.jrn.waiting.isEmpty &&
    decide (awaitedWrites s = [])

/-- The flush ends: with its marker written; without one in a start that entered SAFE and has no session, or where no copy takes a
record; none while the marker cannot be written (R147, R110). (DEDUCED: notes/assumptions/20.md) -/
def endFlush (s : State) : Option State :=
  let done (marker : Bool) (s : State) : State := { s with flush := { s.flush with why := .none, marker := marker } }
  if s.flush.why = .none then none
  else if s.jrn.outA && s.jrn.outB then some (done false s)
  else if !flushWritten s then none
  else if s.pmu.phase = .running then (tryWrite 1 .marker s).map (done true)
  else some (done true s)

/-- After the flush of SHUTDOWN_PREPARE the sets are empty and every group is clean, so that a later flush writes its marker alone; QP 0
is fetched again (R148, R324). -/
def afterShutdown (s : State) : State :=
  { s with
    owed := { s.owed with strict := [], bounded := [] }
    ctr := { s.ctr with emptied := [], groups := s.ctr.groups.map fun g => { g with dirty := false } }
    flush := { s.flush with qp0 := true } }

/-- FLUSH_COMPLETE: the marker is written; then the pending reset, the wait in HOLDUP, the shutdown BIST, or the opening of the lock
(R147, R151-R153, R323, R340). -/
def flushComplete (s : State) : State :=
  match endFlush s with
  | none => s
  | some s1 =>
    match s.flush.resetCause with
    | some cause => doReset cause s1
    | none =>
      match s.flush.why with
      | .shutdown =>
        let s2 := afterShutdown s1
        if s2.pmu.power = .normal then
          { s2 with hmu := { s2.hmu with bistRuns := true, bistAt := some (bistStartNow s2) } }
        else stopShutdown s2
      | .debug => openLock { s1 with flush := { s1.flush with qp0 := true } }
      | _ => if s1.regs.unlockReq then openLock { s1 with flush := { s1.flush with qp0 := true } } else tryResume s1

end Sys2Proof.Machine
end

