-- ==== Sys2Proof/Machine/Power.lean ====
section
/-!
DEFINITION. PMU: power states, thresholds and monitors, resets by pin, watchdog and lockstep, the reference
(spec/05_durability_recovery.md R149-R154; spec/11_power_clock_startup.md R286-R300).
-/
namespace Sys2Proof.Machine

/-! ### Power states (R149-R154) -/

/-- VIN as measured. -/
def seeVin (vin : Nat) (s : State) : State := { s with pmu := { s.pmu with vin := vin } }

/-- VHOLD as measured. -/
def seeVhold (vhold : Nat) (s : State) : State := { s with pmu := { s.pmu with vhold := vhold } }

/-- POWER_WARN or POWER_HOLDUP with VIN, VHOLD, the owed slots and b (R154). -/
def postPower (name : EventName) (s : State) : State :=
  postEvent name 0
    (leBytes 2 (saturate s.pmu.vin 65535) ++ leBytes 2 (saturate s.pmu.vhold 65535) ++ leBytes 4 (owedSlots s) ++
      leBytes 4 s.owed.b ++ leBytes 4 0) s

/-- CLK runs and the part is neither in reset nor stopped at step 4, so PMU's comparators count (R149, R291, R302). -/
def isAlive (s : State) : Bool := s.clk.running && decide (s.pmu.phase ≠ .reset) && decide (s.pmu.phase ≠ .halted)

/-- POWER_WARN: VIN below 10.2 V in NORMAL (R149, R150, R341). (DEDUCED: notes/assumptions/61.md) -/
def warnPower (vin vhold : Nat) (s : State) : State :=
  if isAlive s = false ∨ s.pmu.power ≠ .normal ∨ 10200 ≤ vin then s
  else
    let s1 := seeVhold vhold (seeVin vin s)
    let s2 := postPower .powerWarn { s1 with pmu := { s1.pmu with power := .warn, warnAt := s.clk.now } }
    pump (interruptBist (releaseStrict (warnMaint s2)))

/-- CLK spent in WARN before this HOLDUP (R154). -/
def warnSpent (s : State) : Nat := if s.pmu.power = .warn then s.clk.now - s.pmu.warnAt else 0

/-- POWER_HOLDUP: VIN below 9.0 V. A part held in reset loses its supply, before SESSION_OPEN it resets at once; in a session it enters
HOLDUP, held and waiting operations are ABORTED and the flush starts, or runs on (R55, R88, R150, R297, R298, R341).
(DEDUCED: notes/assumptions/48.md) -/
def holdupPower (vin vhold : Nat) (s : State) : State :=
  if s.pmu.power = .holdup ∨ 9000 ≤ vin then s
  else
    let s1 := seeVhold vhold (seeVin vin s)
    let s2 := { s1 with pmu := { s1.pmu with chargerOn := false } }
    if s.pmu.phase = .reset then { s2 with regs := { s2.regs with resetCause := 0 } }
    else if s.pmu.phase ≠ .running then doReset 0 s2
    else
      let s3 := if s.pmu.power = .normal then postPower .powerWarn s2 else s2
      let s4 := postPower .powerHoldup { s3 with pmu := { s3.pmu with
        power := .holdup, warnTime := warnSpent s, holdupAt := s.clk.now, vinBack := false } }
      let s5 := interruptBist s4
      if s5.flush.why = .none ∧ s5.jrn.dead = false then beginFlush .holdup none s5
      else refuseWaits (fun _ => true) .aborted (holdupMaint (abortHeld s5))

/-- VIN_WARNING_CLEAR: VIN above 10.5 V for 10 ms in WARN (R150, R154). -/
def clearWarning (s : State) : State :=
  if s.pmu.power ≠ .warn then s
  else postResumed (warnSpent s) 0 0 0 { s with pmu := { s.pmu with power := .normal } }

/-- VIN_RESUME: VIN has been above 10.5 V for 10 ms in HOLDUP; the part resumes now, or once the marker is written and READY.HOLDUP
set (R150-R152). -/
def vinBack (vhold : Nat) (s : State) : State :=
  if s.pmu.power ≠ .holdup then s
  else tryResume (recomputeCaps (seeVhold vhold { s with pmu := { s.pmu with vinBack := true } }))

/-- VHOLD_RESET: VHOLD at or below 4.5 V in HOLDUP (R150). -/
def vholdLow (s : State) : State := if s.pmu.power = .holdup then doReset 0 s else s

/-! ### Charger (R289, R291, R304) -/

/-- RAIL_FAULT (R294). -/
def postRail (object level threshold kind : Nat) (s : State) : State :=
  postEvent .railFault object
    (leBytes 2 (saturate level 65535) ++ leBytes 2 threshold ++ leBytes 1 kind ++ leBytes 3 0 ++
      leBytes 4 (if object = 0x15 then s.pmu.cMeas else 0) ++ leBytes 4 (if object = 0x15 then s.pmu.esrMeas else 0)) s

/-- The start waits for READY.HOLDUP (R298, R304). -/
def beforeSession (s : State) : Bool :=
  match s.pmu.phase with
  | .calibrating | .replaying | .testing | .rebuilding | .waiting => true
  | _ => false

/-- RAIL_FAULT of the hold-up bank, posted again only when its kind changes (R304). -/
def postCheck (kind : Nat) (s : State) : State :=
  if s.pmu.checkKind = some kind then s
  else postRail 0x15 s.pmu.vhold 0 kind { s with pmu := { s.pmu with checkKind := some kind } }

/-- The hold-up check of a start: VHOLD has reached 11.0 V and r is still below 2,048 (R304). -/
def checkBank (s : State) : State :=
  if beforeSession s ∧ s.pmu.quickDone ∧ s.pmu.reached ∧ s.ready.holdup = false then postCheck 3 s else s

/-- VHOLD_FULL: the charger stops at 11.0 V (R289, R304). -/
def holdFull (s : State) : State :=
  if s.pmu.chargerOn ∧ s.pmu.full = false ∧ s.pmu.drawing = false then
    let s1 := seeVhold 11000 { s with pmu := { s.pmu with full := true, reached := true } }
    if s.pmu.measured then checkBank (recomputeCaps s1) else s1
  else s

/-- CHARGER_RESTART: VHOLD has fallen to 10.9 V (R289). -/
def holdLow (s : State) : State :=
  if s.pmu.full then seeVhold 10900 { s with pmu := { s.pmu with full := false } } else s

/-- CHARGER_ENABLE: VIN crosses 9.0 V; back at 10.5 V or below, the 10 ms of a return begin again (R150, R289, R291). -/
def chargerAt (vin : Nat) (s : State) : State :=
  { s with pmu := { s.pmu with
      vin := vin, chargerOn := decide (9000 ≤ vin), vinBack := s.pmu.vinBack && decide (10500 < vin) } }

/-! ### Monitored levels (R290, R291, R293, R294) -/

/-- A level outside its window may be reported again: it has been back inside for 2^20 CLK (R294). -/
def wasBack (s : State) (m : MonOut) : Bool :=
  match m.backAt with
  | some t => decide (t + 2 ^ 20 ≤ s.clk.now)
  | none => false

/-- A level has left its window on the side `kind`, past a threshold: RAIL_FAULT once (R294). -/
def leftWindow (object kind level threshold : Nat) (s : State) : State :=
  let kept := s.pmu.outside.filter fun m => !(m.object == object && wasBack s m)
  let out := kept.map fun m => if m.object == object then { m with backAt := none } else m
  if out.any fun m => m.object == object && m.kind == kind then { s with pmu := { s.pmu with outside := out } }
  else postRail object level threshold kind { s with pmu := { s.pmu with outside := out ++ [⟨object, kind, none⟩] } }

/-- A level is back inside its window (R294). -/
def backInside (object : Nat) (s : State) : State :=
  { s with pmu := { s.pmu with
      outside := s.pmu.outside.map fun m =>
        if m.object == object && m.backAt.isNone then { m with backAt := some s.clk.now } else m } }

/-- A level judged against its window; a side without a threshold is not compared (R293, R294). -/
def judgeLevel (object level : Nat) (low high : Option Nat) (s : State) : State :=
  let below := match low with
    | some t => if level < t then some t else none
    | none => none
  let above := match high with
    | some t => if t < level then some t else none
    | none => none
  match below, above with
  | some t, _ => leftWindow object 0 level t s
  | none, some t => leftWindow object 1 level t s
  | none, none => backInside object s

/-- The threshold fields of monitor input n (R293). -/
def monFields (s : State) (n : Nat) : Nat × Nat :=
  let w := if n < 2 then s.regs.monA.toNat else s.regs.monB.toNat
  (bitsOf w (16 * (n % 2)) 8, bitsOf w (16 * (n % 2) + 8) 8)

/-- A low threshold in mV: 0x00 disables it (R293). -/
def lowThreshold (field : Nat) : Option Nat := if field = 0 then none else some (5 * field)

/-- A high threshold in mV: 0xFF disables it (R293). -/
def highThreshold (field : Nat) : Option Nat := if field = 0xFF then none else some (5 * field)

/-- A monitor input or an internal rail at a level in mV (R290, R293, R294); HYPWR is judged while it is on. -/
def monitorAt (object level : Nat) (s : State) : State :=
  if isAlive s = false then s
  else
    match object with
    | 0x10 => judgeLevel 0x10 level (some 760) (some 840) s
    | 0x11 => judgeLevel 0x11 level (some 1710) (some 1890) s
    | 0x12 => judgeLevel 0x12 level (some 3135) (some 3465) s
    | 0x13 => if hypwrOn s then judgeLevel 0x13 level (some 3135) (some 3465) s else s
    | n =>
      if n < 4 then judgeLevel n level (lowThreshold (monFields s n).1) (highThreshold (monFields s n).2) s else s

/-- VIN_OVERVOLTAGE: 13.2 V rising, 13.0 V falling (R291, R294). (DEDUCED: notes/assumptions/60.md) -/
def overvoltage (vin : Nat) (s : State) : State :=
  if isAlive s = false then s
  else
    let s1 := seeVin vin s
    if 13200 < vin then leftWindow 0x14 1 vin 13200 s1 else if vin < 13000 then backInside 0x14 s1 else s1

/-- The reset level of an internal rail (R290). -/
def resetLevel (object : Nat) : Nat :=
  match object with
  | 0x10 => 720
  | 0x11 => 1620
  | 0x12 => 2970
  | _ => 0

/-- INTERNAL_RAIL_RESET: a rail below its reset level resets at once, without a flush (R295). -/
def railReset (object level : Nat) (s : State) : State :=
  if level < resetLevel object then doReset 5 s else s

/-! ### Reset requests (R297, R298) -/

/-- RESET_N is low for 1,024 CLK (R297, R298). -/
def resetPin (s : State) : State :=
  let s1 := { s with pmu := { s.pmu with resetLow := true } }
  if s.pmu.phase = .reset then s1 else requestReset 1 s1

/-- A lockstep pair fails: the other one resets the part through the flush; with both failed there is no flush (R153, R297). -/
def pairFails (pair cause : Nat) (s : State) : State :=
  if isAlive s = false ∨ 2 ≤ pair then s
  else
    let failed := pair :: s.pmu.failedPairs.filter fun n => n != pair
    let s1 := { s with pmu := { s.pmu with failedPairs := failed } }
    if failed.length = 2 then doReset (match s.flush.resetCause with | some c => c | none => cause) s1
    else requestReset cause s1

/-! ### The reference (R17, R300, R366) -/

/-- REFERENCE_LOST (R300). -/
def loseReference (s : State) : State :=
  if isAlive s = false ∨ s.clk.refPresent = false then s
  else
    let s1 := setReady (fun y => { y with pllLock := false })
      { s with clk := { s.clk with refPresent := false, slewing := false, holdover := true, losses := min 255 (s.clk.losses + 1) } }
    postEvent .clockRefLost 0 [] s1

/-- REFERENCE_RETURNED (R300). -/
def findReference (s : State) : State :=
  if isAlive s = false ∨ s.clk.refPresent then s else { s with clk := { s.clk with refPresent := true, slewing := true } }

/-- RELOCK (R300). -/
def relockPll (s : State) : State :=
  if s.clk.slewing then
    setReady (fun y => { y with pllLock := true }) { s with clk := { s.clk with holdover := false, slewing := false } }
  else s

/-! ### Caps (R140, R141) -/

/-- CAP_RECOMPUTE: the caps follow VHOLD; a CAP_MEASURE ends, a return, a first draw and what waits for places may go on
(R140-R142, R151). (DEDUCED: notes/assumptions/77.md) -/
def capRecompute (vhold : Nat) (s : State) : State :=
  if isAlive s = false ∨ s.pmu.measured = false then s
  else background (firstDraw (tryResume (recomputeCaps (finishMeasure (seeVhold vhold s)))))

end Sys2Proof.Machine
end

