-- ==== Sys2Proof/Machine/Recovery.lean ====
section
/-!
DEFINITION. Journal replay, the resolution of conflicting copies, and the rebuild of the tree (spec/04_journal_flash.md R100-R116;
spec/05_durability_recovery.md R155-R158, R394, R395; spec/12_health_selftest.md R328, R337).
-/
namespace Sys2Proof.Machine

/-! ### Conflicts (R111-R114) -/

/-- JOURNAL_CONFLICT (R114). -/
def postConflict (r : Rec) (code : Nat) (s : State) : State :=
  postEvent .journalConflict r.typ (leBytes 6 r.seq ++ leBytes 1 code ++ leBytes 1 0 ++ leBytes 4 r.obj.toNat ++ leBytes 4 0) s

/-- The slots of a copy in which the medium corrected a bit (R113). -/
def correctedSlots (reads : List SlotRead) (i : Inst) : List Nat :=
  (List.range (recSlots i.record)).filter fun n => reads.any fun x =>
    x.bank == i.bank && x.sector == i.sector && x.slot == i.slot + n && !x.corrected.isEmpty

/-- Instances of one record taken one after another, copy A's first: equal bytes count as one, different bytes are resolved, with the
resolution codes (R111-R113). -/
def settleInsts (reads : List SlotRead) : Option Inst → List Nat → List Inst → Option Inst × List Nat
  | cur, codes, [] => (cur, codes)
  | none, codes, _ => (none, codes)
  | some a, codes, i :: rest =>
    if a.record = i.record then settleInsts reads (some a) codes rest
    else
      let (r, code) := resolve (correctedSlots reads a) (correctedSlots reads i) a.record i.record
      settleInsts reads (r.map fun r => if r = i.record then i else { a with record := r }) (codes ++ [code]) rest

/-- What counts for the highest sequence number of a key: the record, the codes of its conflicts, and the instances
(R111, R112). (DEDUCED: notes/assumptions/59.md) -/
def judgeCopies (reads : List SlotRead) (insts : List Inst) (key : Nat × Nat) (q : Nat) : Option Rec × List Nat × List Inst :=
  let mine := insts.filter fun i => i.record.seq == q && decide (recKey i.record = key)
  match sortBy (fun i => bit i.copyB) mine with
  | [] => (none, [], [])
  | a :: rest =>
    let (cur, codes) := settleInsts reads (some a) [] rest
    (cur.map fun i => i.record, codes, a :: rest)

/-- Keys of the records found, each once. -/
def keysOf (insts : List Inst) : List (Nat × Nat) :=
  insts.foldl (fun ks i => if ks.contains (recKey i.record) then ks else ks ++ [recKey i.record]) []

/-- The highest sequence number of a key among the records found (R111). (DEDUCED: notes/assumptions/62.md) -/
def highestSeq (insts : List Inst) (key : Nat × Nat) : Nat :=
  insts.foldl (fun n i => if decide (recKey i.record = key) then max n i.record.seq else n) 0

/-- The group field of a leaf record's status word (R103). -/
def recGroup (r : Rec) : Nat := bitsOf (fieldAt r.payload 8 4) 11 12

/-- The current record of one key; its conflicts are reported, and the groups that its instances name besides the record's own are noted
(R112-R114). -/
def chooseCurrent (reads : List SlotRead) (insts : List Inst) (s : State) (key : Nat × Nat) : State :=
  let (r, codes, mine) := judgeCopies reads insts key (highestSeq insts key)
  let s1 := match r with
    | some r => { s with jrn := { s.jrn with current := s.jrn.current ++ [r] } }
    | none => s
  let s2 := match mine with
    | a :: _ => codes.foldl (fun s code => postConflict a.record code s) s1
    | [] => s1
  match r with
  | some r =>
    let others := if key.1 = 5 then (mine.filter fun i => recGroup i.record != recGroup r).map fun i => (key.2, recGroup i.record) else []
    { s2 with pmu := { s2.pmu with otherGroups := s2.pmu.otherGroups ++ others } }
  | none => s2

/-! ### Restoring what the journal holds (R38, R104, R124, R183, R246, R248, R311, R317) -/

/-- A field of the current record of a key; `d` without one. -/
def curField (s : State) (key : Nat × Nat) (offset size d : Nat) : Nat :=
  match currentRec s key with
  | some r => fieldAt r.payload offset size
  | none => d

/-- A key identifier from its record (R102). -/
def kidFrom (r : Rec) : Kid where
  num := r.obj.toNat % 2 ^ 14
  st := if bitsOf r.obj.toNat 14 2 = 1 then .live else if bitsOf r.obj.toNat 14 2 = 2 then .draining else .free
  gen := BitVec.ofNat 32 (fieldAt r.payload 0 4)
  domain := bitsOf r.obj.toNat 16 6
  mask := BitVec.ofNat 64 (fieldAt r.payload 4 8)
  retired := bitsOf r.obj.toNat 22 1 == 1

/-- A mirror entry from its record (R102, R251). -/
def mirrorFrom (r : Rec) : Mirror :=
  let p := r.payload
  let flags := fieldAt p 10 2
  { idx := r.obj.toNat % 4096, serial := BitVec.ofNat 64 (fieldAt p 0 8), family := BitVec.ofNat 16 (fieldAt p 8 2)
    count := fieldAt p 12 8, inserted := fieldAt p 20 8, calendar := fieldAt p 28 8, limit := fieldAt p 36 4
    posec := fieldAt p 40 4, inexact := bitsOf flags 0 1 == 1, anomaly := bitsOf flags 1 1 == 1
    exhausted := bitsOf flags 2 1 == 1, present := bitsOf flags 3 1 == 1, port := bitsOf flags 4 6
    position := bitsOf flags 10 4, limitKnown := bitsOf flags 14 1 == 1, used := fieldAt p 12 8
    lastGood := 0 }

/-- A domain's row from its CONFIG record (R38, R104). -/
def domainFrom (r : Rec) : Domain where
  num := r.obj.toNat
  counters := fieldAt r.payload 0 4
  strict := fieldAt r.payload 4 4
  bounded := fieldAt r.payload 8 4
  kids := fieldAt r.payload 12 2
  drbgs := fieldAt r.payload 14 2
  enabled := fieldAt r.payload 16 8 % 2 == 1

/-- Current records of a type, in ascending object. -/
def recsOf (s : State) (typ : Nat) : List Rec := sortBy (fun r => r.obj.toNat) (s.jrn.current.filter fun r => r.typ == typ)

/-- The family key of a CONFIG record, unwrapped under the sealing key (R104). -/
def familyFrom (s : State) (r : Rec) : Option (Nat × W128) :=
  (unwrapKey (sealingBytes s) (r.payload.take 24)).map fun plain => (r.obj.toNat - 0x100, BitVec.ofNat 128 (fieldAt plain 0 16))

/-- The units take what their current records hold. -/
def restoreUnits (reads : List SlotRead) (s : State) : State :=
  let configs := recsOf s 11
  let dailies := lastN 128 ((recsOf s 9).map fun r => (r.obj.toNat, r.payload))
  let s1 := { s with
    kit := { s.kit with
      kids := (sortBy (fun k => k.num) ((recsOf s 6).map kidFrom))
      domains := (configs.filter fun r => decide (1 ≤ r.obj.toNat) && decide (r.obj.toNat < 0x40)).map domainFrom }
    hyc := { s.hyc with
      mirrors := (recsOf s 8).map mirrorFrom
      families := (configs.filter fun r => decide (0x100 ≤ r.obj.toNat) && decide (r.obj.toNat < 0x110)).filterMap (familyFrom s) }
    ctr := { s.ctr with u := curField s (11, 0x500) 0 4 0 }
    plc := { s.plc with wear := curField s (11, 0x200) 32 1 1, period := 60 * curField s (11, 0x200) 32 1 1 }
    int := { s.int with
      challenge := BitVec.ofNat 64 (curField s (13, 0) 0 8 0), posec := curField s (13, 1) 0 8 0
      antiRoll := curField s (13, 2) 0 8 0, calRecordAt := curField s (11, 0x300) 8 4 0 }
    clk := { s.clk with
      calBase := curField s (11, 0x300) 0 8 0 + (curField s (13, 1) 0 8 0 - curField s (11, 0x300) 8 4 0)
      calClk := 0, calAt := s.clk.now, calNotSet := true }
    hmu := { s.hmu with dailies := dailies, stages := stagesFrom dailies } }
  (recsOf s 7).foldl (fun s r => loadPage reads (r.obj.toNat % 256) s) s1

/-! ### Sectors after replay (R105, R120) -/

/-- The retired-sector map's bit of a sector (R104). -/
def mapBit (s : State) (x : Sector) : Bool :=
  match currentRec s (11, 0x200) with
  | some r => bitsOf (fieldAt r.payload 0 32) (64 * x.bank + x.idx) 1 == 1
  | none => false

/-- A sector as its slot 0 and the map leave it: erased, in use with what its header says, retired, or invalid; no sector found in use
takes more records (R105, R106, R120). -/
def sectorAtStart (reads : List SlotRead) (s : State) (x : Sector) : Sector :=
  if mapBit s x then { x with st := .retired, shut := true }
  else if slotFound reads s x.bank x.idx 0 = some erasedSlot then { x with st := .erased, next := 1, shut := false }
  else match headerFound reads s (sealingBytes s) x with
    | some h => { x with
        st := .inUse, shut := true, erases := fieldAt h 6 4, eraseTime := fieldAt h 0x0A 2, firstSeq := fieldAt h 0x0C 6
        opened := fieldAt h 0x12 4 }
    | none => { x with st := .invalid, shut := true }

/-- The sectors, and the records that count as copies: none in a retired sector (R105, R120). -/
def takeSectors (reads : List SlotRead) (s : State) : State :=
  let sectors := s.jrn.sectors.map (sectorAtStart reads s)
  { s with jrn := { s.jrn with
      sectors := sectors
      insts := s.jrn.insts.filter fun i => sectors.any fun x => x.bank == i.bank && x.idx == i.sector && decide (x.st = .inUse) } }

/-! ### The record of a self-test (R328) -/

/-- The session number that the current SESSION_OPEN names (R115). -/
def lastSession (s : State) : Option Nat := (currentRec s (1, 0)).map fun r => fieldAt r.payload 0 4

/-- What the start does about BIST: the kind of record it writes, 1 after a test, 3 without one with its count (R328). -/
def bistDecision (s : State) : Nat × Nat :=
  match currentRec s (10, 0) with
  | none => (1, 0)
  | some r =>
    let result := fieldAt r.payload 0 1
    let kind := fieldAt r.payload 1 1
    let fresh := decide (some r.obj.toNat = lastSession s)
    let c := fieldAt r.payload 0x24 1
    if result = 1 ∨ kind = 4 then (1, 0)
    else if kind = 0 ∧ result = 0 ∧ fresh = true then (3, 0)
    else if kind = 0 ∧ (result = 0 ∨ result = 2) then (3, 1)
    else if kind = 1 ∧ result = 0 then (3, 1)
    else if kind = 3 ∧ c + 1 < 8 then (3, c + 1)
    else (1, 0)

/-! ### Replay (R111, R115, R116) -/

/-- The journal is unrecoverable (R116). -/
def journalLost (s : State) : Bool :=
  (s.pmu.ranBefore && (currentRec s (1, 0)).isNone) || (copyRetired s false && copyRetired s true)

/-- The highest session number found (R115). -/
def highestSession (insts : List Inst) : Nat :=
  insts.foldl (fun n i => if i.record.typ == 1 then max n (fieldAt i.record.payload 0 4) else n) 0

/-- JOURNAL_REPLAY_DONE: the records are found and the current ones chosen, invalid sectors erased, the units restored, and BIST or the
rebuild follows; an unrecoverable journal puts the part in SAFE (R96, R105, R111-R116, R301, R328, R336). -/
def replayDone (reads : List SlotRead) (s : State) : State :=
  if s.pmu.phase ≠ .replaying then s
  else
    let found := foundRecords reads s
    let s1 := (keysOf found).foldl (chooseCurrent reads found) { s with jrn := { s.jrn with
      insts := found, current := [], nextSeq := found.foldl (fun n i => max n (i.record.seq + 1)) s.jrn.nextSeq
      session := highestSession found } }
    let s2 := eraseInvalid (countCorrected reads (takeSectors reads s1))
    let s3 := { s2 with jrn := { s2.jrn with outA := copyRetired s2 false, outB := copyRetired s2 true } }
    let s5 := restoreUnits reads s3
    if journalLost s5 then enterSafe 3 { s5 with pmu := { s5.pmu with phase := .safe } }
    else
      let plan := bistDecision s5
      { s5 with pmu := { s5.pmu with
          bistPlan := some plan, bistFrom := if plan.1 = 1 then some (bistStartNow s5) else none
          phase := if plan.1 = 1 then .testing else .rebuilding } }

/-! ### The rebuild (R155-R157) -/

/-- What a rebuild has found: the flush marker, section level, a session before this one without a marker (R67, R155, R156). -/
structure Ending where
  flushed : Bool
  section_ : Bool
  unflushed : Bool
deriving DecidableEq, Repr

/-- How the last session ended (R115, R155). A new F840 has no session before its first (notes/assumptions/9.md). -/
def endingOf (s : State) : Ending :=
  let last := lastSession s
  let marked := match currentRec s (12, 0) with
    | some r => decide (some (fieldAt r.payload 0 4) = last)
    | none => false
  { flushed := marked, section_ := marked && decide (curField s (12, 0) 8 4 0 % 2 = 1), unflushed := !marked && last.isSome }

/-- The floor of a group and the sequence number it stands at (R155). -/
def floorAt (s : State) (e : Ending) (g : Nat) : Nat × Nat :=
  let at_ (key : Nat × Nat) : Nat × Nat := match currentRec s key with
    | some r => (fieldAt r.payload 0 8, r.seq)
    | none => (0, 0)
  let own := at_ (3, g)
  let sec := at_ (4, g / 64)
  if e.section_ && decide (some (curField s (4, g / 64) 8 4 0) = lastSession s) && (currentRec s (4, g / 64)).isSome then
    (max own.1 sec.1, max own.2 sec.2)
  else own

/-- The ceiling of a group (R155). -/
def ceilingAt (s : State) (g : Nat) : Nat := curField s (2, g) 0 8 0

/-- F of an open counter with current record r (R113, R155). -/
def floorOf (s : State) (e : Ending) (r : Rec) (cls : Cls) : Nat :=
  let value := fieldAt r.payload 0 8
  let g := recGroup r
  let others := (s.pmu.otherGroups.filter fun p => p.1 == r.obj.toNat % 2 ^ 18).map fun p => p.2
  if e.flushed then
    let own := floorAt s e g
    if others ≠ [] then others.foldl (fun n h => max n (floorAt s e h).1) (max value own.1)
    else if cls = .strict ∨ (cls = .bounded ∧ own.2 < r.seq) then value
    else max value own.1
  else others.foldl (fun n h => max n (ceilingAt s h)) (max value (ceilingAt s g))

/-- A field of a counter's definition form (R102). -/
def definitionField (s : State) (r : Rec) (offset n : Nat) : Nat :=
  match (if r.form = 1 then some r else definitionOf s r) with
  | some d => fieldAt d.payload offset 8
  | none => Config.lostDefinition (r.obj.toNat % 2 ^ 18) n

/-- The class in a status word (R103). -/
def clsAt (status : Nat) : Cls := if status % 4 = 0 then .loose else if status % 4 = 1 then .bounded else .strict

/-- A counter as its records give it, with its floor and its skip (R92, R102, R103, R155). -/
def leafFrom (s : State) (e : Ending) (r : Rec) : Leaf :=
  let status := fieldAt r.payload 8 4
  let cls := clsAt status
  let value := fieldAt r.payload 0 8
  let closed : Bool := bitsOf status 2 1 == 1
  let f := if closed then value else floorOf s e r cls
  let lost : Bool := e.unflushed && !closed && decide (cls = Cls.strict)
  let l : Leaf := {
    num := r.obj.toNat % 2 ^ 18, inc := r.obj.toNat / 2 ^ 18, v := BitVec.ofNat 64 f, shadow := BitVec.ofNat 64 f, cls := cls
    bound := if cls = .bounded then 2 ^ 48 - definitionField s r 12 0 else 0, v0 := BitVec.ofNat 64 (definitionField s r 36 1)
    domain := bitsOf status 5 6, group := bitsOf status 11 12, closed := closed
    inexact := bitsOf status 3 1 == 1 || lost
    repaired := bitsOf status 4 1 == 1, lastSkip := BitVec.ofNat 64 (definitionField s r 20 2)
    totalSkip := BitVec.ofNat 64 (definitionField s r 28 3), skipPending := bitsOf status 23 1 == 1, defOwed := false
    rate := 0, windowRise := 0, slowWindows := 0, movedAt := none }
  if closed then l else recordSkip l value

/-- The current records of host counters (R102). -/
def leafRecs (s : State) : List Rec :=
  sortBy (fun r => r.obj.toNat % 2 ^ 18) (s.jrn.current.filter fun r => (recKey r).1 == 5)

/-- A group as the rebuild finds it: key 0, the first step, its written ceiling (R143, R174, R390); opened at the moment of the rebuild,
its last ceiling record at device time 0 (R85, R180). (DESIGN CHOICE: notes/assumptions/64.md) -/
def rebuiltGroup (s : State) (g domain : Nat) : Group where
  num := g
  domain := domain
  engine := engineForNew s
  key := 0
  liveMax := BitVec.ofNat 64 (topV (members s g))
  dirty := false
  ceiling := (currentRec s (2, g)).map fun r => BitVec.ofNat 64 (fieldAt r.payload 0 8)
  ceilQueued := none
  ceilAt := 0
  step := firstStep
  rate := 0
  windowRise := 0
  windowOps := 0
  windowOps0 := 0
  lastOps := 0
  lastOps0 := 0
  roseAt := none
  openedAt := s.clk.now
  moves := 0
  lastLive := 0
  forMove := none

/-- A counter's group stands, with its nodes above it. -/
def rebuildGroup (s : State) (l : Leaf) : State :=
  if l.closed ∨ (findGroup s l.group).isSome = true then s
  else refreshNodes l.group { s with ctr := { s.ctr with
    groups := insertBy (fun x => x.num) (rebuiltGroup s l.group l.domain) s.ctr.groups } }

/-- The numbers as a start finds them with U as it was: those closed, by the sequence numbers of their records, those never used, and
those that can rise no further, retired before (R66, R67). (DESIGN CHOICE: notes/assumptions/64.md) -/
def rebuildNumbers (recs : List Rec) (s : State) : State :=
  let closed := (sortBy (fun r : Rec => r.seq) (recs.filter fun r => bitsOf (fieldAt r.payload 8 4) 2 1 == 1)).map fun r : Rec =>
    r.obj.toNat % 2 ^ 18
  let s1 := { s with ctr := { s.ctr with closedOrder := [], retired := [], nextNumber := unusedFrom s 0 } }
  let spent := if 16383 < nextInc s1 0 then unusedNumbers s1 else []
  { s1 with ctr := { s1.ctr with
      closedOrder := closed.filter fun n => decide (incOfNext s1 n ≤ 16383)
      retired := spent ++ closed.filter fun n => decide (16383 < incOfNext s1 n) } }

/-- The counters and their groups stand again, U rises after a session without a marker, and the numbers that can rise no further with it
are retired (R66, R67, R155). -/
def rebuildTree (e : Ending) (s : State) : State :=
  let recs := leafRecs s
  let s1 := rebuildNumbers recs { s with ctr := { s.ctr with leaves := recs.map (leafFrom s e) } }
  let s2 := if e.unflushed then retireSpent { s1 with ctr := { s1.ctr with u := s1.ctr.u + 1 } } else s1
  (sortBy (fun l => l.group) s2.ctr.leaves).foldl rebuildGroup s2

/-- The internal counters resume (R156, R308); the mirrors are marked inexact after a session without a marker.
(DEDUCED: notes/assumptions/47.md) -/
def resumeInternals (e : Ending) (s : State) : State :=
  if e.unflushed then
    let posec := max s.int.posec (s.int.calRecordAt + 3660)
    { s with
      int := { s.int with challenge := BitVec.ofNat 64 (min maxV (s.int.challenge.toNat + 2 ^ 32)), posec := posec }
      hyc := { s.hyc with mirrors := s.hyc.mirrors.map fun m => { m with inexact := true } }
      clk := { s.clk with
        calBase := curField s (11, 0x300) 0 8 0 + (posec - s.int.calRecordAt), calClk := 0, calAt := s.clk.now
        calImprecise := true } }
  else { s with clk := { s.clk with calClk := 0, calAt := s.clk.now } }

/-- The counter skipped at this start. -/
def skipped (r : Rec) (l : Leaf) : Bool := !l.closed && decide (fieldAt r.payload 0 8 < l.v.toNat)

/-- Object and details of RECOVERY_SKIP (R157). -/
def recoveryDetails (e : Ending) (s : State) : Nat × List Byte :=
  let counted := (leafRecs s).filterMap fun r => match findLeaf s (r.obj.toNat % 2 ^ 18) with
    | some l => if skipped r l || bitsOf (fieldAt r.payload 8 4) 23 1 == 1 then some l else none
    | none => none
  let strict := (s.ctr.leaves.filter fun l => e.unflushed && !l.closed && decide (l.cls = .strict)).length
  (counted.length, leBytes 1 (bit e.flushed + 2 * bit e.section_) ++ leBytes 3 0 ++ leBytes 4 strict ++
    leBytes 8 (counted.foldl (fun n l => max n l.lastSkip.toNat) 0))

/-- The tree and the internal counters stand as a start leaves them in SRAM, with RECOVERY_SKIP prepared (R155-R157). -/
def rebuildSram (s : State) : State :=
  let e := endingOf s
  let s1 := resumeInternals e (rebuildTree e s)
  { s1 with pmu := { s1.pmu with recovery := some (recoveryDetails e s1) } }

/-! ### The records of a rebuild (R394, R395) -/

/-- An uncovered counter moves to a target, for which a group is opened with its first ceiling where there is none; with no group left
it waits for its BOUNDED-set entry (R143, R170, R394). Answers whether it moved. -/
def coverLeaf (n : Nat) (s : State) : Bool × State :=
  match findLeaf s n with
  | none => (false, s)
  | some l =>
    match boundedTarget s l with
    | some g => (true, moveLeaf l g.num 0x05 false s)
    | none =>
      match emptyGroup s with
      | none => (false, { s with pmu := { s.pmu with uncovered := s.pmu.uncovered ++ [n] } })
      | some g =>
        let v := min maxV (l.v.toNat + firstStep)
        (true, moveLeaf l g 0x05 false (writeNow 3 (.ceiling g (BitVec.ofNat 64 v)) (openGroup g l.domain 0 s)))

/-- The uncovered counters in ascending number; those that moved (R394). -/
def coverLeaves : List Nat → List Nat → State → List Nat × State
  | [], moved, s => (moved, s)
  | n :: rest, moved, s =>
    let (yes, s1) := coverLeaf n s
    coverLeaves rest (if yes then moved ++ [n] else moved) s1

/-- The leaf records of a rebuild: definition forms of counters that skipped, value forms of those marked inexact or moved (R395). -/
def leafWrites (e : Ending) (moved : List Nat) (s : State) : List What :=
  (leafRecs s).filterMap fun r => match findLeaf s (r.obj.toNat % 2 ^ 18) with
    | none => none
    | some l =>
      if skipped r l then some (.leaf l.num true)
      else if moved.contains l.num || (e.unflushed && !l.closed && decide (l.cls = .strict)) then some (.leaf l.num false)
      else none

/-- The internal records of a rebuild, and U (R67, R395). -/
def internalWrites (e : Ending) (before after : State) : List What :=
  if e.unflushed then
    (if before.int.challenge = after.int.challenge then [] else [.challenge]) ++
      (if before.int.posec = after.int.posec then [] else [.posec]) ++
      ((before.hyc.mirrors.filter fun m => !m.inexact).map fun m => What.mirror m.idx) ++ [.config 0x500]
  else []

/-- TREE_REBUILD_DONE: the tree is rebuilt, its records are written, and the start waits for READY.HOLDUP (R155, R301, R394, R395). -/
def rebuildDone (s : State) : State :=
  if s.pmu.phase ≠ .rebuilding then s
  else
    let e := endingOf s
    let s1 := rebuildSram s
    let (moved, s2) := coverLeaves ((uncoveredLeaves s1).map fun l => l.num) [] s1
    let s3 := writeAll 4 (leafWrites e moved s2 ++ internalWrites e s s1) s2
    { s3 with pmu := { s3.pmu with phase := .waiting } }

end Sys2Proof.Machine
end

