-- ==== Sys2Proof/Machine/Start.lean ====
section
/-!
DEFINITION. The steps of a start (spec/11_power_clock_startup.md R298-R312; spec/12_health_selftest.md R328, R329, R337).
-/
namespace Sys2Proof.Machine

/-! ### Steps 1 to 5 (R298-R302, R312) -/

/-- START: power good with RESET_N high; the regulators, the charger and the reference oscillator come up (R289, R291, R301). -/
def startUp (vin vhold : Nat) (s : State) : State :=
  if s.pmu.phase ≠ .reset ∨ vin ≤ 10500 then s
  else
    let full := (s.pmu.full && decide (10900 < vhold)) || decide (11000 ≤ vhold)
    { s with pmu := { s.pmu with
        phase := .clocking, vin := vin, vhold := vhold, chargerOn := true, resetLow := false, full := full, reached := full } }

/-- The current record of a key as the boot code reads it, before replay (R111-R113, R311, R312). -/
def bootRecord (reads : List SlotRead) (s : State) (key : Nat × Nat) : Option Rec :=
  let found := foundRecords reads s
  (judgeCopies reads found key (highestSeq found key)).1

/-- A field of that record; 0 without it. -/
def bootField (reads : List SlotRead) (s : State) (key : Nat × Nat) (offset size : Nat) : Nat :=
  match bootRecord reads s key with
  | some r => fieldAt r.payload offset size
  | none => 0

/-- A slot at a start: a staging cut off is started again at offset 0 (R310). -/
def slotAtStart (incomplete : Bool) (x : Slot) : Slot := ⟨if incomplete then [] else x.bytes, incomplete⟩

/-- The state of the firmware slots as the journal holds it (R104, R310, R312; notes/assumptions/16.md). -/
def fwAtStart (reads : List SlotRead) (s : State) : Fw :=
  let field (i : Nat) := bootField reads s (11, 0x400) i 1
  { s.fw with
    active := field 0 % 2, pending := field 1 == 1
    slot0 := slotAtStart (field 2 == 1) s.fw.slot0, slot1 := slotAtStart (field 3 == 1) s.fw.slot1 }

/-- The image in slot `n` passes the checks of R312 against an anti-rollback counter. -/
def slotPasses (antiRoll : Nat) (s : State) (n : Nat) : Bool :=
  let x := if n = 0 then s.fw.slot0 else s.fw.slot1
  imageRuns s.fuse x && decide (antiRoll ≤ slotVersion x)

/-- The boot code chooses the slot to run: the pending one or the active one, else the other; with none SAFE is entered
(R312, R336). (DEDUCED: notes/assumptions/65.md) -/
def chooseImage (reads : List SlotRead) (s : State) : State :=
  let s1 := { s with fw := fwAtStart reads s }
  let first := if s1.fw.pending then 1 - s1.fw.active else s1.fw.active
  match [first, 1 - first].find? (slotPasses (bootField reads s (13, 2) 0 8) s1) with
  | some n =>
    { s1 with fw := { s1.fw with
        active := n, pending := false, record := true, version := BitVec.ofNat 32 (slotVersion (if n = 0 then s1.fw.slot0 else s1.fw.slot1)) } }
  | none => enterSafe 2 { s1 with fw := { s1.fw with version := Config.bootVersion } }

/-- The sealing key and the challenge key, derived from the fuses and held in AE0 and AE1 (R99, R245). -/
def deriveKeys (s : State) : State :=
  let sealing := Config.deriveSealing s.fuse.sealingSeed
  { s with keys := ⟨some sealing, some (Config.deriveChallenge sealing s.fuse.challengeSeed)⟩ }

/-- PLL_LOCK: device time begins at 0, the fuses are loaded, the boot code chooses its image, protected SRAM is zeroised; a fuse word
that is lost stops the start (R14, R99, R245, R299, R301, R302, R312). (DEDUCED: notes/assumptions/65.md) -/
def lockPll (fusesOk : Bool) (reads : List SlotRead) (s : State) : State :=
  if s.pmu.phase ≠ .clocking then s
  else
    let s1 := setReady (fun y => { y with pllLock := true }) { s with
      clk := { Clk.reset with running := true, refPresent := true }
      int := { s.int with nextDue := second } }
    if !fusesOk then { s1 with pmu := { s1.pmu with phase := .halted } }
    else setReady (fun y => { y with sramInit := true })
      (chooseImage reads (deriveKeys { s1 with pmu := { s1.pmu with phase := .calibrating } }))

/-! ### Step 6 and the quick check (R276, R303, R304) -/

/-- NSU starts to settle after calibration; every internal instance waits for its first entry (R270, R276). -/
def startNsu (s : State) : State :=
  { s with nsu := { s.nsu with
      powered := true, settling := some s.clk.now, heldS := true
      waitI := s.nsu.internals.map fun d => d.num
      sources := s.nsu.sources.map fun x => { x with
        st := .starting, second := false, wasActive := false, passed := false, switchDue := none, swap := none } } }

/-- CALIBRATION_DONE: READY.CALIB, then replay; a start in SAFE runs no later step (R301, R303, R337). -/
def calibrated (s : State) : State :=
  if s.pmu.phase ≠ .calibrating then s
  else
    let s1 := startNsu (setReady (fun y => { y with calib := true }) s)
    { s1 with pmu := { s1.pmu with phase := if inSafe s1 then .safe else .replaying } }

/-- QUICK_CAPACITANCE_CHECK: the draw begins once step 6 has ended and VHOLD is at 2.0 V (R303). -/
def quickBegin (vhold : Nat) (s : State) : State :=
  if s.ready.calib = false ∨ vhold < 2000 ∨ s.pmu.quickDone = true ∨ s.pmu.drawing = true then s
  else seeVhold vhold { s with pmu := { s.pmu with drawing := true } }

/-- QUICK_CAPACITANCE_CHECK_END: C_meas and ESR_meas from 0.1 A over 20 ms, fall and step in µV; the caps follow (R142, R303,
R304). -/
def quickEnd (fall step vhold : Nat) (s : State) : State :=
  if s.pmu.drawing = false ∨ s.pmu.quickDone = true then s
  else
    let c := if fall = 0 then Config.capacitanceAtNoFall 0 else 2 * 10 ^ 9 / fall
    checkBank (recomputeCaps (seeVhold vhold { s with pmu := { s.pmu with
      cMeas := c, esrMeas := step / 100, measured := true, quickDone := true, drawing := false } }))

/-! ### The hold-up check of a start (R304) -/

/-- HOLDUP_CHECK_TIMEOUT: 500 ms of the charger have passed without 11.0 V (R304). (DEDUCED: notes/assumptions/66.md)
(DEDUCED: notes/assumptions/75.md) -/
def holdTimeout (s : State) : State :=
  if isAlive s = false ∨ s.pmu.reached = true ∨ s.pmu.checkKind ≠ none then s else postCheck 2 s

/-- HOLDUP_CHECK_REPEAT: every 10 s while the start waits at step 10 (R304). -/
def holdRepeat (vhold : Nat) (s : State) : State :=
  if s.pmu.phase ≠ .waiting then s
  else
    let s1 := seeVhold vhold s
    let s2 := if s1.pmu.measured then recomputeCaps s1 else s1
    if s2.ready.holdup then s2 else if s2.pmu.reached then checkBank s2 else postCheck 2 s2

/-! ### Step 8 (R328, R329, R337) -/

/-- The BIST at start has failed in a block whose failure leaves the tree unread (R337). -/
def treeUntested (o : BistOutcome) : Bool := o.failed.any fun n => decide (1 ≤ n ∧ n ≤ 6) || n == 11 || n == 12 || n == 13

/-- RECOVERY_SKIP, once (R157). -/
def postRecovery (s : State) : State :=
  match s.pmu.recovery with
  | some (n, details) => postEvent .recoverySkip n details { s with pmu := { s.pmu with recovery := none } }
  | none => s

/-- START_BIST_DONE: each block has been re-initialised; the start continues, or the failing record is written and the part enters SAFE;
where the tree can be trusted it is rebuilt to be read (R325, R329, R337). (DEDUCED: notes/assumptions/65.md) -/
def startBistDone (o : BistOutcome) (s : State) : State :=
  match s.pmu.phase, s.pmu.bistFrom with
  | .testing, some b =>
    let payload := wholeBist 1 o b
    let s0 := reinitSram s
    if bistResult o = 0 then { s0 with pmu := { s0.pmu with phase := .rebuilding, bistStart := some payload } }
    else
      let s1 := writeNow 4 (.bist (s0.jrn.session + 1) payload) s0
      let s2 := enterSafe 0 { s1 with pmu := { s1.pmu with phase := .safe } }
      if treeUntested o || decide (s2.regs.safeCause ≠ 1) then s2
      else postRecovery (setReady (fun y => { y with counters := true }) (rebuildSram s2))
  | _, _ => s

/-! ### Step 11 (R301, R328, R394) -/

/-- The BOUNDED-set entries of R394 fit C_B. -/
def coverFits (s : State) : Bool := decide (boundedOccupancy s + s.pmu.uncovered.length ≤ s.owed.capB)

/-- The entries of R394 are admitted. -/
def admitCover (s : State) : State :=
  let s1 := s.pmu.uncovered.foldl (fun s n => oweBounded n s) s
  { s1 with pmu := { s1.pmu with uncovered := [] } }

/-- The start's BIST_RESULT at rank 6, and BIST_OVERDUE (R328, R329). -/
def recordBist (s : State) : State :=
  match s.pmu.bistPlan with
  | none => s
  | some (kind, count) =>
    let payload := match s.pmu.bistStart with
      | some p => if kind = 1 then p else bistPayload 3 3 0 [] [] 0 0 (bistStartNow s) 0 0 count
      | none => bistPayload 3 3 0 [] [] 0 0 (bistStartNow s) 0 0 count
    let s1 := if kind = 3 ∧ count ≠ 0 then postEvent .bistOverdue count [] s else s
    queueWrite 6 (.bist s.jrn.session payload)
      { s1 with pmu := { s1.pmu with bistPlan := none, bistStart := none, bistFrom := none } }

/-- Ports that READY.HALYARD waits for: those enabled at READY.COUNTERS (R258, R306). -/
def markFirst (s : State) : State :=
  { s with hyc := { s.hyc with ports := s.hyc.ports.map fun x => { x with firstDue := portEnabled s x.num } } }

/-- What a session's opening sets going: the firmware's record, the catch-up, ceilings that are due, the day's times, the ports and what
was waiting (R110, R142, R174, R312, R315, R390, R391). -/
def beginSession (s : State) : State :=
  let s1 := if s.fw.record then queueWrite 4 (.config 0x400) { s with fw := { s.fw with record := false } } else s
  let s2 := (s1.ctr.groups.map fun g => g.num).foldl (fun s g => scheduleCeiling g s) (queueCatchUp s1)
  let s3 := { s2 with hmu := { s2.hmu with
    capFirst := some (s2.clk.now + 10 * second), nextDaily := (s2.int.posec / 86400 + 1) * 86400 } }
  background (checkCopies (checkHalyard (portsUp (placesAtStart (markFirst s3)))))

/-- The rebuild's records that found no place at the rebuild are written first; none where one still cannot be (R301, R395). -/
def writeQueued (s : State) : Option State :=
  (s.jrn.queue.filter fun j => (layoutOf (formNow j.what s) s).isSome).foldl (fun o j => o.bind (tryWrite j.rank j.what))
    (some { s with jrn := { s.jrn with queue := [] } })

/-- START_SESSION_OPEN: with READY.HOLDUP and the entries of R394 admitted, SESSION_OPEN is written; READY.JOURNAL, READY.COUNTERS and
RECOVERY_SKIP follow. It waits for the rebuild's records and for a place of its own (R115, R301, R394, R395). -/
def openSession (s : State) : State :=
  if s.pmu.phase ≠ .waiting ∨ s.ready.holdup = false ∨ coverFits s = false then s
  else
    let opened := (writeQueued (admitCover s)).bind fun s1 =>
      tryWrite 1 .session { s1 with jrn := { s1.jrn with session := s1.jrn.session + 1 } }
    match opened with
    | none => s
    | some s2 =>
      let s3 := setReady (fun y => { y with journal := true }) { s2 with pmu := { s2.pmu with phase := .running, ranBefore := true } }
      beginSession (recordBist (postRecovery (setReady (fun y => { y with counters := true }) s3)))

/-! ### The link (R305) -/

/-- LINK_UP: HIF trains the link once READY.SRAM_INIT is set; what was kept for the event ring can go out (R54, R305). -/
def linkUp (s : State) : State :=
  if s.ready.sramInit then drainEvents { s with hif := { s.hif with linkUp := true } } else s

end Sys2Proof.Machine
end

