-- ==== Sys2Proof/Machine/Registers.lean ====
section
/-!
DEFINITION. Reads and writes of BAR0 (spec/14_registers.md R351-R370; spec/01_architecture.md R15; spec/12_health_selftest.md R340).
-/
namespace Sys2Proof.Machine

/-! ### Refusals (R351, R353, R358) -/

/-- The reserved bits of the register at an offset (R354-R367). -/
def reservedBits : Nat → W32
  | 0x004 => 0xFFFF0000
  | 0x008 => 0xF0000000
  | 0x00C => 0x7FFFFE00
  | 0x010 => 0xFFFFFFF0
  | 0x014 => 0x0000FFFE
  | 0x018 => 0xFFFFF808
  | 0x020 => 0x00000FFF
  | 0x030 => 0x00000FFF
  | 0x038 => 0x00000FFF
  | 0x040 => 0xFFFFFF00
  | 0x044 => 0x00000FFF
  | 0x04C => 0xFFFFFFE0
  | 0x050 => 0xFFFFFF00
  | 0x054 => 0x000000C0
  | 0x058 => 0xB0000000
  | 0x068 => 0xFFFF0000
  | 0x06C => 0xFFFF0000
  | 0x078 => 0x0000FFFC
  | 0x084 => 0xFFFF00F0
  | _ => 0

/-- A size field above 8 in ADMIN_SIZES or EVENT_RING_SIZE (R357). -/
def sizeTooBig (v : W32) (lo : Nat) : Bool := decide (8 < bitsOf v.toNat lo 4)

/-- A write of a value to a register is refused (R353-R367). -/
def isRefused (s : State) (offset : Nat) (v : W32) : Bool :=
  v &&& reservedBits offset != 0 ||
    match offset with
    | 0x014 => v.getLsbD 0 && decide (bitsOf v.toNat 16 16 ≠ 0xA5C3)
    | 0x020 => adminUp s
    | 0x024 => adminUp s
    | 0x030 => adminUp s
    | 0x034 => adminUp s
    | 0x038 => adminUp s
    | 0x03C => adminUp s
    | 0x040 =>
      adminUp s || sizeTooBig v 0 || sizeTooBig v 4 || s.regs.hoist.eff.isNone || s.regs.adminSq.eff.isNone ||
        s.regs.adminCq.eff.isNone
    | 0x044 => eventsUp s
    | 0x048 => eventsUp s
    | 0x04C =>
      eventsUp s || sizeTooBig v 0 || (v.getLsbD 4 && (s.regs.hoist.eff.isNone || s.regs.eventRing.eff.isNone))
    | 0x050 => decide (bitsOf v.toNat 0 8 = 0)
    | 0x054 => decide (1 < bitsOf v.toNat 8 8) && decide (bitsOf v.toNat 16 16 = 0)
    | 0x06C =>
      decide (bitsOf v.toNat 0 8 < 20) || decide (250 < bitsOf v.toNat 0 8) || decide (bitsOf v.toNat 8 8 < 5) ||
        decide (250 < bitsOf v.toNat 8 8)
    | 0x078 => v.getLsbD 1 && decide (bitsOf v.toNat 16 16 ≠ 0x6E1D)
    | _ => false

/-- STATUS.SETUP_ERROR is set (R353). -/
def setupError (s : State) : State := { s with regs := { s.regs with setupError := true } }

/-! ### What accepted writes do (R356-R368) -/

/-- A LO half is stored (R356). -/
def putLo (v : W32) (p : BasePair) : BasePair := { p with lo := v }

/-- A HI half is stored, and the pair takes effect (R356). -/
def putHi (v : W32) (p : BasePair) : BasePair := { p with hi := v, eff := some (BitVec.ofNat 64 (p.lo.toNat + 2 ^ 32 * v.toNat)) }

/-- An address in effect, as a number. -/
def effOf (p : BasePair) : Nat := match p.eff with
  | some a => a.toNat
  | none => 0

/-- QP 0 as the admin registers define it (R33, R357). -/
def adminQp (s : State) (v : W32) : Qp where
  num := 0
  sqBase := effOf s.regs.adminSq
  cqBase := effOf s.regs.adminCq
  sqSize := 2 ^ (6 + bitsOf v.toNat 0 4)
  cqSize := 2 ^ (6 + bitsOf v.toNat 4 4)
  limit := 8
  cls := 0
  domain := 0
  vector := 0
  coalCount := 0
  coalTime := 0
  tail := 0
  head := 0
  fetched := 0
  written := 0
  stopped := false
  deleting := false
  unsignalled := 0
  oldest := 0
  deficit := 0

/-- ADMIN_SIZES creates QP 0 (R33, R357). -/
def putAdminSizes (v : W32) (s : State) : State :=
  { s with
    regs := { s.regs with adminSizes := v }
    hif := { s.hif with qps := insertBy (fun q => q.num) (adminQp s v) s.hif.qps } }

/-- EVENT_RING_SIZE sets up the ring where ENABLE is set, and the buffered events go into it (R54, R357). -/
def putEventSize (v : W32) (s : State) : State :=
  let s1 := { s with regs := { s.regs with eventSize := v } }
  if v.getLsbD 4 then
    drainEvents { s1 with ev := { s1.ev with ring := some (effOf s.regs.eventRing, 2 ^ (6 + bitsOf v.toNat 0 4)) } }
  else s1

/-- One port's enable bit has changed (R205, R227): enabled it charges, unless PORT_POWER holds it OFF; disabled it goes OFF at the end
of its transfer. (DEDUCED: notes/assumptions/69.md) -/
def portSwitched (s : State) (p : Nat) (before after : Bool) : State :=
  match findPort s p with
  | none => s
  | some x =>
    if !before && after then
      tryCharge p (modPort p (fun y =>
        if y.faultCause = 2 ∧ y.st = .off then { y with held := false, shorts := [], faultCause := 0 } else y) s)
    else if before && !after && decide (x.st ≠ .off) then
      (if onLine x.act then modPort p (fun y => { y with leaving := true }) s else goDown p s)
    else s

/-- PORT_ENABLE_LO or PORT_ENABLE_HI takes a value (R363). -/
def putPorts (hi : Bool) (v : W32) (s : State) : State :=
  let s1 := { s with regs := if hi then { s.regs with portHi := v } else { s.regs with portLo := v } }
  background (serveAll ((List.range 48).foldl (fun t p => portSwitched t p (portEnabled s p) (portEnabled s1 p)) s1))

/-- A write that has been accepted takes its effect; read-only registers and offsets not listed take none (R351, R352). -/
def putRegister (offset : Nat) (v : W32) (s : State) : State :=
  match offset with
  | 0x014 => if v.getLsbD 0 then requestReset 3 s else s
  | 0x018 => if v.getLsbD 10 then { s with regs := { s.regs with setupError := false } } else s
  | 0x020 => { s with regs := { s.regs with hoist := putLo v s.regs.hoist } }
  | 0x024 => { s with regs := { s.regs with hoist := putHi v s.regs.hoist } }
  | 0x030 => { s with regs := { s.regs with adminSq := putLo v s.regs.adminSq } }
  | 0x034 => { s with regs := { s.regs with adminSq := putHi v s.regs.adminSq } }
  | 0x038 => { s with regs := { s.regs with adminCq := putLo v s.regs.adminCq } }
  | 0x03C => { s with regs := { s.regs with adminCq := putHi v s.regs.adminCq } }
  | 0x040 => putAdminSizes v s
  | 0x044 => { s with regs := { s.regs with eventRing := putLo v s.regs.eventRing } }
  | 0x048 => { s with regs := { s.regs with eventRing := putHi v s.regs.eventRing } }
  | 0x04C => putEventSize v s
  | 0x050 => { s with regs := { s.regs with pollPeriod := v } }
  | 0x054 => { s with regs := { s.regs with msixCfg := v } }
  | 0x05C => { s with regs := { s.regs with monA := v } }
  | 0x060 => { s with regs := { s.regs with monB := v } }
  | 0x064 => putPorts false v s
  | 0x068 => putPorts true v s
  | 0x06C => { s with regs := { s.regs with halyardCfg := v } }
  | 0x078 => if v.getLsbD 1 then requestUnlock s else s
  | 0x07C => { s with regs := { s.regs with scratch := v } }
  | _ => s

/-! ### Writes as they arrive (R351, R353) -/

/-- A 32-bit write at an aligned offset of a reachable BAR0 (R351, R353). -/
def write32 (offset : Nat) (v : W32) (s : State) : State :=
  if barReachable s = false ∨ offset % 4 ≠ 0 then s
  else if isRefused s offset v then setupError s
  else putRegister offset v s

/-- The LO register of a LO/HI pair (R351, R352). -/
def isPairLo (offset : Nat) : Bool := [0x020, 0x030, 0x038, 0x044, 0x064, 0x070].contains offset

/-- A 64-bit write at the LO register of a pair; it is refused as a whole (R351, R353, R356). -/
def write64 (offset : Nat) (v : W64) (s : State) : State :=
  let lo : W32 := BitVec.truncate 32 v
  let hi : W32 := BitVec.truncate 32 (v >>> 32)
  if barReachable s = false ∨ isPairLo offset = false then s
  else if isRefused s offset lo || isRefused s (offset + 4) hi then setupError s
  else putRegister (offset + 4) hi (putRegister offset lo s)

/-- A write of so many bytes: 4, 8, or fewer than 4, which is dropped with SETUP_ERROR (R351). (DEDUCED: notes/assumptions/67.md) -/
def writeBar (offset width : Nat) (v : W64) (s : State) : State :=
  if width = 4 then write32 offset (BitVec.truncate 32 v) s
  else if width = 8 then write64 offset v s
  else if width < 4 ∧ 0 < width ∧ barReachable s = true then setupError s
  else s

/-- BASE_PAIR_WRITE: a LO or HI register of a base address pair, or the pair in one 64-bit write (R356). -/
def writeBasePair (offset : Nat) (wide : Bool) (v : W64) (s : State) : State :=
  if [0x020, 0x024, 0x030, 0x034, 0x038, 0x03C, 0x044, 0x048].contains offset then
    (if wide then write64 offset v s else write32 offset (BitVec.truncate 32 v) s)
  else s

/-- MON_THRESH_WRITE: the next comparator samples judge the two inputs' levels under the new thresholds (R362). -/
def writeMonitors (b : Bool) (v : W32) (levels : List Nat) (s : State) : State :=
  let s1 := write32 (if b then 0x060 else 0x05C) v s
  if barReachable s then
    ((List.range 2).zip levels).foldl (fun s x => monitorAt ((if b then 2 else 0) + x.1) x.2 s) s1
  else s1

/-! ### TIME_LO, TIME_HI (R15, R365) -/

/-- A BAR0 read returned this. -/
def returnData (v : W64) (s : State) : State := { s with clk := { s.clk with readData := v } }

/-- A requester's capture is gone, or new. -/
def setCapture (requester : Nat) (c : Option W64) (s : State) : State :=
  let others := s.clk.captures.filter fun x => x.1 != requester
  { s with clk := { s.clk with captures := match c with | some v => (requester, v) :: others | none => others } }

/-- TIME_LO_READ: all 64 bits are captured; a 64-bit read returns both halves (R15, R365). (DEDUCED: notes/assumptions/68.md) -/
def readTimeLo (requester : Nat) (wide : Bool) (s : State) : State :=
  if barReachable s then
    returnData (if wide then timeWord s else timeWord s &&& 0xFFFFFFFF) (setCapture requester (some (timeWord s)) s)
  else s

/-- TIME_HI_READ: the captured upper half where the requester's last read was of TIME_LO, else the current one (R15, R365). -/
def readTimeHi (requester : Nat) (between : Bool) (s : State) : State :=
  if barReachable s then
    let word : W64 := match s.clk.captures.find? fun x => x.1 == requester with
      | some x => if between then timeWord s else x.2
      | none => timeWord s
    returnData (word >>> 32) (setCapture requester none s)
  else s

end Sys2Proof.Machine
end

