-- ==== Sys2Proof/Machine/Operations.lean ====
section
/-!
DEFINITION. The meanings of the host operations (spec/02_host_rings.md R60): each is the dispatch of the fetched operation with fetch
number `k` at device time `t`, its checks in the order of R389 and its effect. An operation that does not stand at its dispatch, or
has another opcode, leaves all but the clock and host memory as they are (notes/assumptions/2.md).
-/
namespace Sys2Proof.Machine

/-- What a meaning answers. -/
abbrev Answer := Host.Outcome State Fault Refusal

/-- The operation has this opcode, on a QP that may carry it (R60, R389 row 1). -/
def hasCode (code : Nat) (op : Op) : Bool := op.opcode == code && !isBadOpcode op

/-- The dispatch of operation `k` at device time `t`, where it has come so far and is one of those that `p` names (R46, R47).
(DESIGN CHOICE: notes/assumptions/2.md) -/
def dispatchAt (p : Op → Bool) (t k : Nat) (run : Op → State → State) (s : State) : State :=
  match findOp (advance t s) k with
  | some op => if p op && dispatchable op (advance t s) then run op (advance t s) else advance t s
  | none => advance t s

/-- The dispatch of an operation after which what waits is looked at again. -/
def dispatchThen (code t k : Nat) (run : Op → State → State) (s : State) : State :=
  dispatchAt (hasCode code) t k (fun op s => background (run op s)) s

/-! ### Admin operations -/

/-- QP_CREATE (R34, R35). -/
def execQpCreate (t k : Nat) (s : State) : Answer := .next (dispatchAt (hasCode 0x01) t k qpCreate s)

/-- QP_DELETE (R57). -/
def execQpDelete (t k : Nat) (s : State) : Answer := .next (dispatchThen 0x02 t k qpDelete s)

/-- IDENTIFY (R59). -/
def execIdentify (t k : Nat) (s : State) : Answer := .next (dispatchAt (hasCode 0x04) t k identify s)

/-- SHUTDOWN_PREPARE (R323). -/
def execShutdownPrepare (t k : Nat) (s : State) : Answer := .next (dispatchAt (hasCode 0x05) t k shutdownPrepare s)

/-- TIME_SET (R307). -/
def execTimeSet (t k : Nat) (s : State) : Answer := .next (dispatchThen 0x06 t k timeSet s)

/-- FW_STAGE (R310). -/
def execFwStage (t k : Nat) (hw : HostWrites) (s : State) : Answer := .next (dispatchThen 0x07 t k fwStage (hostWrites hw s))

/-- FW_ACTIVATE (R311). -/
def execFwActivate (t k : Nat) (readable : Bool) (s : State) : Answer := .next (dispatchThen 0x08 t k (fwActivate readable) s)

/-- FAMILY_KEY_LOAD (R246, R247). -/
def execFamilyKeyLoad (t k : Nat) (hw : HostWrites) (s : State) : Answer :=
  .next (dispatchThen 0x09 t k familyKeyLoad (hostWrites hw s))

/-- DOMAIN_SET (R38). -/
def execDomainSet (t k : Nat) (s : State) : Answer := .next (dispatchThen 0x0A t k domainSet s)

/-- UNKNOWN_OPCODE: BAD_OPCODE (R60, R389 row 1). -/
def execUnknownOpcode (t k : Nat) (s : State) : Answer :=
  .next (dispatchAt isBadOpcode t k (fun op => refuse op .badOpcode) s)

/-! ### Counters -/

/-- A read of a counter: what waits is looked at again where a repair has changed something (R160). -/
def readCounter (code t k : Nat) (bad : List BadWord) (s : State) : State :=
  dispatchAt (hasCode code) t k
    (fun op s => if bad = [] then runCounter [] op s else background (runCounter bad op s)) s

/-- CTR_CREATE (R74, R75). -/
def execCtrCreate (t k : Nat) (s : State) : Answer := .next (dispatchThen 0x10 t k (runCounter []) s)

/-- CTR_READ (R80). -/
def execCtrRead (t k : Nat) (bad : List BadWord) (s : State) : Answer := .next (readCounter 0x11 t k bad s)

/-- CTR_ADVANCE (R78). -/
def execCtrAdvance (t k : Nat) (bad : List BadWord) (s : State) : Answer := .next (dispatchThen 0x12 t k (runCounter bad) s)

/-- CTR_RESERVE (R77). -/
def execCtrReserve (t k : Nat) (bad : List BadWord) (s : State) : Answer := .next (dispatchThen 0x13 t k (runCounter bad) s)

/-- CTR_RAISE (R79). -/
def execCtrRaise (t k : Nat) (bad : List BadWord) (s : State) : Answer := .next (dispatchThen 0x14 t k (runCounter bad) s)

/-- CTR_CLOSE (R81). -/
def execCtrClose (t k : Nat) (s : State) : Answer := .next (dispatchThen 0x15 t k (runCounter []) s)

/-- CTR_RECLASS (R83, R84). -/
def execCtrReclass (t k : Nat) (s : State) : Answer := .next (dispatchThen 0x16 t k (runCounter []) s)

/-- CTR_GROUP_READ (R85). -/
def execCtrGroupRead (t k : Nat) (bad : List BadWord) (s : State) : Answer := .next (readCounter 0x17 t k bad s)

/-! ### Key identifiers, fault reports -/

/-- KID_ALLOC (R189). -/
def execKidAlloc (t k : Nat) (s : State) : Answer := .next (dispatchThen 0x20 t k runKid s)

/-- KID_SPLICE_BEGIN (R190). -/
def execKidSpliceBegin (t k : Nat) (s : State) : Answer := .next (dispatchThen 0x21 t k runKid s)

/-- KID_FLUSHED (R191). -/
def execKidFlushed (t k : Nat) (s : State) : Answer := .next (dispatchThen 0x22 t k runKid s)

/-- KID_SPLICE_COMMIT (R192). -/
def execKidSpliceCommit (t k : Nat) (s : State) : Answer := .next (dispatchThen 0x23 t k runKid s)

/-- KID_READ (R194). -/
def execKidRead (t k : Nat) (s : State) : Answer := .next (dispatchAt (hasCode 0x24) t k runKid s)

/-- FAULT_REPORT (R198). -/
def execFaultReport (t k : Nat) (s : State) : Answer := .next (dispatchThen 0x25 t k (runCounter []) s)

/-! ### Halyards -/

/-- HY_SLATE (R255). -/
def execHySlate (t k : Nat) (s : State) : Answer := .next (dispatchThen 0x30 t k runPort s)

/-- TAG_AUTH (R255). -/
def execTagAuth (t k : Nat) (s : State) : Answer := .next (dispatchThen 0x31 t k runPort s)

/-- TAG_CONSUME (R257). -/
def execTagConsume (t k : Nat) (s : State) : Answer := .next (dispatchThen 0x32 t k runPort s)

/-- TAG_READ (R259). -/
def execTagRead (t k : Nat) (s : State) : Answer := .next (dispatchAt (hasCode 0x33) t k runTagRead s)

/-- TAG_SIDE (R255). -/
def execTagSide (t k : Nat) (s : State) : Answer := .next (dispatchAt (hasCode 0x34) t k runTagRead s)

/-- PORT_POWER (R255, R256). -/
def execPortPower (t k : Nat) (s : State) : Answer := .next (dispatchThen 0x35 t k runPort s)

/-! ### Random numbers -/

/-- DRBG_INSTANTIATE (R280). -/
def execDrbgInstantiate (t k : Nat) (hw : HostWrites) (s : State) : Answer :=
  .next (dispatchAt (hasCode 0x41) t k runDrbg (hostWrites hw s))

/-- DRBG_GENERATE (R280). -/
def execDrbgGenerate (t k : Nat) (hw : HostWrites) (s : State) : Answer :=
  .next (dispatchAt (hasCode 0x42) t k runDrbg (hostWrites hw s))

/-- DRBG_RESEED (R280). -/
def execDrbgReseed (t k : Nat) (hw : HostWrites) (s : State) : Answer :=
  .next (dispatchAt (hasCode 0x43) t k runDrbg (hostWrites hw s))

/-- DRBG_UNINSTANTIATE (R280). -/
def execDrbgUninstantiate (t k : Nat) (s : State) : Answer := .next (dispatchAt (hasCode 0x44) t k runDrbg s)

/-! ### The parameter store -/

/-- PARAM_READ (R127-R129). -/
def execParamRead (t k : Nat) (corrected uncorrectable : List Nat) (s : State) : Answer :=
  .next (dispatchAt (hasCode 0x50) t k (runParamRead corrected uncorrectable) s)

/-- PARAM_WRITE (R126, R132). -/
def execParamWrite (t k : Nat) (hw : HostWrites) (s : State) : Answer :=
  .next (dispatchThen 0x51 t k runParam (hostWrites hw s))

/-- PARAM_SYNC (R130). -/
def execParamSync (t k : Nat) (s : State) : Answer := .next (dispatchThen 0x52 t k runParam s)

/-! ### Health, maintenance, placement -/

/-- HEALTH_READ (R321). -/
def execHealthRead (t k : Nat) (m : Measures) (s : State) : Answer := .next (dispatchAt (hasCode 0x60) t k (healthRead m) s)

/-- EOL_READ (R322). -/
def execEolRead (t k : Nat) (s : State) : Answer := .next (dispatchAt (hasCode 0x61) t k eolRead s)

/-- MAINT_START (R333). -/
def execMaintStart (t k : Nat) (s : State) : Answer := .next (dispatchThen 0x62 t k maintStart s)

/-- MAINT_STATUS (R334). -/
def execMaintStatus (t k : Nat) (s : State) : Answer := .next (dispatchAt (hasCode 0x63) t k maintStatus s)

/-- PLACEMENT_REPORT (R178). -/
def execPlacementReport (t k : Nat) (s : State) : Answer := .next (dispatchAt (hasCode 0x64) t k placementReport s)

end Sys2Proof.Machine
end

