-- ==== Sys2Proof/Machine/Interface.lean ====
section
/-!
DEFINITION. The meanings of HIF's own happenings, of the ends of waits, and of BAR0 accesses (spec/02_host_rings.md R27-R58;
spec/03_counters.md R88; spec/07_key_identifiers.md R192, R199; spec/10_random.md R282; spec/14_registers.md R351-R368).
-/
namespace Sys2Proof.Machine

/-! ### Polling and fetching -/

/-- A poll: the group words in ascending order with what they ask for, then the event ring (R31, R43, R52-R54). -/
def pollAll (s : State) : State := if polling s then pollEvents (pollGroups 64 0 s) else s

/-- POLL (R31). -/
def execPoll (t : Nat) (hw : HostWrites) (s : State) : Answer := .next (pollAll (advance t (hostWrites hw s)))

/-- One group's tail words in turn (R31). -/
def scanTails (s : State) : State :=
  if polling s then
    let s1 := readTails s.hif.scanGroup s
    { s1 with hif := { s1.hif with scanGroup := (s1.hif.scanGroup + 1) % 64 } }
  else s

/-- TAIL_WORD_SCAN (R31). -/
def execTailWordScan (t : Nat) (hw : HostWrites) (s : State) : Answer := .next (scanTails (advance t (hostWrites hw s)))

/-- DESCRIPTOR_FETCH (R42, R45). -/
def execDescriptorFetch (t : Nat) (hw : HostWrites) (s : State) : Answer :=
  .next (if s.hif.linkUp then fetchOnce (advance t (hostWrites hw s)) else advance t (hostWrites hw s))

/-- FENCE_DISPATCH (R47). -/
def execFenceDispatch (t q : Nat) (s : State) : Answer := .next (dispatchFence q (advance t s))

/-- DESCRIPTOR_READ_FAIL (R58). -/
def execDescriptorReadFail (t : Nat) (s : State) : Answer :=
  .next (if s.hif.linkUp then failFetch (advance t s) else advance t s)

/-- HOIST_READ_FAIL: the read is repeated at the next poll; nothing else follows (R58). -/
def execHoistReadFail (t : Nat) (s : State) : Answer := .next (advance t s)

/-- COALESCING_TIME of a queue pair, or of the event ring (R50, R360). -/
def execCoalescingTime (t : Nat) (q : Option Nat) (s : State) : Answer :=
  .next (match q with
    | some n => coalesceQp n (advance t s)
    | none => coalesceEvents (advance t s))

/-- HIF_RESET (R55, R352). -/
def execHifReset (t : Nat) (linkDown : Bool) (s : State) : Answer := .next (background (resetHif linkDown (advance t s)))

/-- LINK_UP (R305). -/
def execLinkUp (t : Nat) (s : State) : Answer := .next (linkUp (advance t s))

/-! ### Ends of waits -/

/-- An operation ends with a status where its wait has ended; the others go on. -/
def endWait (k : Nat) (ended : Op → State → Bool) (finish : Op → State → State) (s : State) : State :=
  match findOp s k with
  | some op => if ended op s then background (finish op s) else s
  | none => s

/-- An energy wait has lasted 1 ms (R88). -/
def energyOver (op : Op) (s : State) : Bool :=
  match op.st with
  | .energy since => decide (since + oneMs ≤ s.clk.now)
  | _ => false

/-- ENERGY_WAIT_TIMEOUT (R88). -/
def execEnergyWaitTimeout (t k : Nat) (s : State) : Answer :=
  .next (endWait k energyOver (fun op => refuse op .energyWaitTimeout) (advance t s))

/-- A commit has reached its deadline (R192). -/
def spliceOver (op : Op) (s : State) : Bool :=
  match op.st with
  | .splice deadline => decide (deadline ≤ s.clk.now)
  | _ => false

/-- A commit ends with the units it still waited for (R192). -/
def endSplice (op : Op) (s : State) : State :=
  complete op .spliceTimeout (missingUnits op (kidOf s (kidNumber op))) 0 false s

/-- SPLICE_TIMEOUT (R192). -/
def execSpliceTimeout (t k : Nat) (s : State) : Answer := .next (endWait k spliceOver endSplice (advance t s))

/-- An operation waits for fresh entropy, or its port for a challenge, since 10 ms (R269, R282). (DEDUCED: notes/assumptions/71.md) -/
def randomOver (op : Op) (s : State) : Bool :=
  match op.st with
  | .random since => decide (since + tenMs ≤ s.clk.now)
  | _ => s.hyc.ports.any fun x =>
      match x.act with
      | .needChallenge e since => decide (exchOp e = some op.id) && decide (since + tenMs ≤ s.clk.now)
      | _ => false

/-- RANDOM_WAIT_TIMEOUT (R282). -/
def execRandomWaitTimeout (t k : Nat) (s : State) : Answer :=
  .next (endWait k randomOver (fun op => refuse op .randomWaitTimeout) (advance t s))

/-- The oldest window closes, if 2^20 CLK have passed since its opening (R199, R201). -/
def closeDue (s : State) : State :=
  match s.kit.windows with
  | w :: _ => if w.opened + 2 ^ 20 ≤ s.clk.now then closeWindow w s else s
  | [] => s

/-- FAULT_STORM (R199). -/
def execFaultStorm (t : Nat) (s : State) : Answer := .next (closeDue (advance t s))

/-! ### BAR0 writes -/

/-- CTRL_SOFT_RESET (R355). -/
def execCtrlSoftReset (t : Nat) (value : W32) (s : State) : Answer := .next (write32 0x014 value (advance t s))

/-- STATUS_SETUP_ERROR_CLEAR (R355). -/
def execStatusSetupErrorClear (t : Nat) (value : W32) (s : State) : Answer := .next (write32 0x018 value (advance t s))

/-- BASE_PAIR_WRITE (R356). -/
def execBasePairWrite (t offset : Nat) (wide : Bool) (value : W64) (s : State) : Answer :=
  .next (writeBasePair offset wide value (advance t s))

/-- ADMIN_SIZES_WRITE (R33, R357). -/
def execAdminSizesWrite (t : Nat) (value : W32) (s : State) : Answer := .next (write32 0x040 value (advance t s))

/-- EVENT_RING_SIZE_WRITE (R54, R357). -/
def execEventRingSizeWrite (t : Nat) (value : W32) (s : State) : Answer := .next (write32 0x04C value (advance t s))

/-- POLL_PERIOD_WRITE (R360). -/
def execPollPeriodWrite (t : Nat) (value : W32) (s : State) : Answer := .next (write32 0x050 value (advance t s))

/-- MSIX_CFG_WRITE (R360). -/
def execMsixCfgWrite (t : Nat) (value : W32) (s : State) : Answer := .next (write32 0x054 value (advance t s))

/-- MON_THRESH_WRITE (R293, R362). -/
def execMonThreshWrite (t : Nat) (b : Bool) (value : W32) (levels : List Nat) (s : State) : Answer :=
  .next (writeMonitors b value levels (advance t s))

/-- PORT_ENABLE_WRITE (R205, R363). -/
def execPortEnableWrite (t : Nat) (hi : Bool) (value : W32) (s : State) : Answer :=
  .next (write32 (if hi then 0x068 else 0x064) value (advance t s))

/-- HALYARD_CFG_WRITE (R364). -/
def execHalyardCfgWrite (t : Nat) (value : W32) (s : State) : Answer := .next (write32 0x06C value (advance t s))

/-- TIME_LO_READ (R15, R365). -/
def execTimeLoRead (t requester : Nat) (wide : Bool) (s : State) : Answer := .next (readTimeLo requester wide (advance t s))

/-- TIME_HI_READ (R15, R365). -/
def execTimeHiRead (t requester : Nat) (between : Bool) (s : State) : Answer :=
  .next (readTimeHi requester between (advance t s))

/-- DEBUG_LOCK_UNLOCK (R340, R367). -/
def execDebugLockUnlock (t : Nat) (value : W32) (s : State) : Answer := .next (write32 0x078 value (advance t s))

/-- TAP_UNLOCK (R340). -/
def execTapUnlock (t : Nat) (s : State) : Answer := .next (requestUnlock (advance t s))

/-- REGISTER_WRITE (R351-R368). -/
def execRegisterWrite (t offset width : Nat) (value : W64) (s : State) : Answer :=
  .next (writeBar offset width value (advance t s))

end Sys2Proof.Machine
end

