-- ==== Sys2Proof/Machine/Units.lean ====
section
/-!
DEFINITION. The meanings of what happens in the journal, in placement, in maintenance, in power and in a start
(spec/04_journal_flash.md; spec/05_durability_recovery.md; spec/06_placement.md; spec/11_power_clock_startup.md;
spec/12_health_selftest.md).
-/
namespace Sys2Proof.Machine

/-! ### The journal -/

/-- A slot program has ended: JRN goes on, emptied groups return, a catch-up ends, a written daily's fits count
(R107, R110, R182, R320). -/
def slotEnded (bank : Nat) (passed : Bool) (s : State) : State :=
  background (fitWritten (endCatchUp (returnEmptied (pump (endSlot bank passed s)))))

/-- SLOT_PROGRAM_VERIFY (R107, R109). -/
def execSlotProgramVerify (t bank : Nat) (passed : Bool) (s : State) : Answer := .next (slotEnded bank passed (advance t s))

/-- SECTOR_ERASE_DONE (R105, R117, R120). -/
def execSectorEraseDone (t bank sector : Nat) (erased : Bool) (duration : Nat) (s : State) : Answer :=
  .next (background (eraseDone bank sector erased duration (advance t s)))

/-! ### Placement and the tree -/

/-- PLACEMENT_WINDOW (R166, R172, R173). -/
def execPlacementWindow (t : Nat) (s : State) : Answer := .next (background (placementWindow (advance t s)))

/-- LOOSE_MOVE (R169, R171). -/
def execLooseMove (t n : Nat) (s : State) : Answer := .next (background (looseMove n (advance t s)))

/-- BOUNDED_MOVE (R170, R171). -/
def execBoundedMove (t : Nat) (s : State) : Answer := .next (background (boundedMove (advance t s)))

/-- CEILING_STEP_UPDATE (R174). -/
def execCeilingStepUpdate (t : Nat) (s : State) : Answer := .next (background (stepUpdate (advance t s)))

/-- CTT_SCRUB (R159, R160). -/
def execCttScrub (t corrected : Nat) (bad : List BadWord) (s : State) : Answer :=
  .next (background (scrub corrected bad (advance t s)))

/-! ### Seconds, dailies -/

/-- POWERED_ON_SECOND (R238, R391). -/
def execPoweredOnSecond (t : Nat) (s : State) : Answer := .next (background (secondDue (advance t s)))

/-- CALENDAR_RECORD (R308). -/
def execCalendarRecord (t : Nat) (s : State) : Answer := .next (background (calendarDue (advance t s)))

/-- DAILY_COLLECTION (R175, R315). -/
def execDailyCollection (t : Nat) (m : Measures) (s : State) : Answer := .next (background (dailyDue m (advance t s)))

/-! ### Maintenance -/

/-- CAP_MEASURE_FIRST (R142). -/
def execCapMeasureFirst (t : Nat) (s : State) : Answer := .next (firstCapMeasure (advance t s))

/-- MAINT_ACTIVITY_START (R332). -/
def execMaintActivityStart (t : Nat) (s : State) : Answer := .next (background (startMaint (advance t s)))

/-- BLOCK_DRAINED (R173). -/
def execBlockDrained (t : Nat) (s : State) : Answer := .next (blockDrained (advance t s))

/-- BIST_BLOCK_DONE (R331, R335). -/
def execBistBlockDone (t failedStep peakMw unreadable : Nat) (s : State) : Answer :=
  .next (background (blockDone failedStep peakMw unreadable (advance t s)))

/-- BIST_BLOCK_DEFERRED (R332). -/
def execBistBlockDeferred (t : Nat) (s : State) : Answer := .next (deferBlock (advance t s))

/-- COMPACT_SLICE (R117, R119, R335). -/
def execCompactSlice (t : Nat) (reads : List SlotRead) (s : State) : Answer :=
  .next (background (compactSlice reads (advance t s)))

/-- REFRESH_SCAN_SECTOR (R122, R123). -/
def execRefreshScanSector (t bank sector weak : Nat) (reads : List SlotRead) (s : State) : Answer :=
  .next (background (scanSector bank sector weak reads (advance t s)))

/-- CAP_MEASURE_DRAW_END (R142). -/
def execCapMeasureDrawEnd (t fall step : Nat) (s : State) : Answer := .next (background (drawEnd fall step (advance t s)))

/-- CAP_MEASURE_GAP_END (R142). -/
def execCapMeasureGapEnd (t : Nat) (s : State) : Answer := .next (gapEnd (advance t s))

/-! ### Power, resets, clock -/

/-- POWER_WARN (R149, R150). -/
def execPowerWarn (t vin vhold : Nat) (s : State) : Answer := .next (warnPower vin vhold (advance t s))

/-- POWER_HOLDUP (R150). -/
def execPowerHoldup (t vin vhold : Nat) (s : State) : Answer := .next (holdupPower vin vhold (advance t s))

/-- FLUSH_COMPLETE (R147). -/
def execFlushComplete (t : Nat) (s : State) : Answer := .next (flushComplete (advance t s))

/-- VIN_WARNING_CLEAR (R150, R154). -/
def execVinWarningClear (t : Nat) (s : State) : Answer := .next (clearWarning (advance t s))

/-- VIN_RESUME (R150-R152). -/
def execVinResume (t vhold : Nat) (s : State) : Answer := .next (vinBack vhold (advance t s))

/-- VHOLD_RESET (R150). -/
def execVholdReset (t : Nat) (s : State) : Answer := .next (vholdLow (advance t s))

/-- VHOLD_FULL (R289). -/
def execVholdFull (t : Nat) (s : State) : Answer := .next (holdFull (advance t s))

/-- CHARGER_RESTART (R289). -/
def execChargerRestart (t : Nat) (s : State) : Answer := .next (holdLow (advance t s))

/-- CHARGER_ENABLE (R289, R291). -/
def execChargerEnable (t vin : Nat) (s : State) : Answer := .next (chargerAt vin (advance t s))

/-- VIN_OVERVOLTAGE (R291, R294). -/
def execVinOvervoltage (t vin : Nat) (s : State) : Answer := .next (overvoltage vin (advance t s))

/-- MONITOR_CROSSING (R294). -/
def execMonitorCrossing (t object level : Nat) (s : State) : Answer := .next (monitorAt object level (advance t s))

/-- INTERNAL_RAIL_RESET (R295). -/
def execInternalRailReset (t object level : Nat) (s : State) : Answer := .next (railReset object level (advance t s))

/-- RESET_N (R297, R298). -/
def execResetN (t : Nat) (s : State) : Answer := .next (resetPin (advance t s))

/-- WATCHDOG (R297). -/
def execWatchdog (t pair : Nat) (s : State) : Answer := .next (pairFails pair 2 (advance t s))

/-- LOCKSTEP_MISMATCH (R297). -/
def execLockstepMismatch (t pair : Nat) (s : State) : Answer := .next (pairFails pair 4 (advance t s))

/-- REFERENCE_LOST (R300). -/
def execReferenceLost (t : Nat) (s : State) : Answer := .next (loseReference (advance t s))

/-- REFERENCE_RETURNED (R300). -/
def execReferenceReturned (t : Nat) (s : State) : Answer := .next (findReference (advance t s))

/-- RELOCK (R300). -/
def execRelock (t : Nat) (s : State) : Answer := .next (relockPll (advance t s))

/-- CAP_RECOMPUTE (R140, R141). -/
def execCapRecompute (t vhold : Nat) (s : State) : Answer := .next (capRecompute vhold (advance t s))

/-! ### A start -/

/-- START (R301). -/
def execStart (t vin vhold : Nat) (s : State) : Answer := .next (startUp vin vhold (advance t s))

/-- PLL_LOCK (R299, R302, R312). -/
def execPllLock (t : Nat) (fusesOk : Bool) (reads : List SlotRead) (s : State) : Answer :=
  .next (lockPll fusesOk reads (advance t s))

/-- CALIBRATION_DONE (R303). -/
def execCalibrationDone (t : Nat) (s : State) : Answer := .next (calibrated (advance t s))

/-- QUICK_CAPACITANCE_CHECK (R303). -/
def execQuickCapacitanceCheck (t vhold : Nat) (s : State) : Answer := .next (quickBegin vhold (advance t s))

/-- QUICK_CAPACITANCE_CHECK_END (R142, R304). -/
def execQuickCapacitanceCheckEnd (t fall step vhold : Nat) (s : State) : Answer :=
  .next (quickEnd fall step vhold (advance t s))

/-- JOURNAL_REPLAY_DONE (R111). -/
def execJournalReplayDone (t : Nat) (reads : List SlotRead) (s : State) : Answer := .next (replayDone reads (advance t s))

/-- START_BIST_DONE (R329). -/
def execStartBistDone (t : Nat) (o : BistOutcome) (s : State) : Answer := .next (startBistDone o (advance t s))

/-- TREE_REBUILD_DONE (R395). -/
def execTreeRebuildDone (t : Nat) (s : State) : Answer := .next (rebuildDone (advance t s))

/-- START_SESSION_OPEN (R301). -/
def execStartSessionOpen (t : Nat) (s : State) : Answer := .next (openSession (advance t s))

/-- HOLDUP_CHECK_TIMEOUT (R304). -/
def execHoldupCheckTimeout (t : Nat) (s : State) : Answer := .next (holdTimeout (advance t s))

/-- HOLDUP_CHECK_REPEAT (R304). -/
def execHoldupCheckRepeat (t vhold : Nat) (s : State) : Answer := .next (holdRepeat vhold (advance t s))

/-- SHUTDOWN_BIST_DONE (R323, R325). -/
def execShutdownBistDone (t : Nat) (o : BistOutcome) (s : State) : Answer := .next (shutdownBistDone o (advance t s))

end Sys2Proof.Machine
end

