-- ==== Sys2Proof/Machine/Sensing.lean ====
section
/-!
DEFINITION. The meanings of what happens in NSU and DRB and on the halyards (spec/10_random.md; spec/08_halyard_line.md;
spec/09_halyard_chains.md).
-/
namespace Sys2Proof.Machine

/-! ### NSU and DRB -/

/-- CLK of settling after calibration or a resume (R276). -/
def settleTime : Nat := 1572864

/-- Settling ends, and the start-up tests begin (R276). -/
def settleDone (s : State) : State :=
  match s.nsu.settling with
  | some since => if since + settleTime ≤ s.clk.now then { s with nsu := { s.nsu with settling := none } } else s
  | none => s

/-- NSU_SETTLE_DONE (R276). -/
def execNsuSettleDone (t : Nat) (s : State) : Answer := .next (settleDone (advance t s))

/-- What NSU does while its sources run; then what waits is looked at again (R269, R275). -/
def nsuThen (f : State → State) (s : State) : State := if s.nsu.powered then background (f s) else s

/-- SOURCE_STARTUP_TEST_DONE (R265, R271). -/
def execSourceStartupTestDone (t src : Nat) (alarms : List Nat) (s : State) : Answer :=
  .next (nsuThen (endStartupTest src alarms) (advance t s))

/-- HEALTH_TEST_ALARM (R263, R264, R268, R275). -/
def execHealthTestAlarm (t src : Nat) (test : HealthTest) (count sample : Nat) (s : State) : Answer :=
  .next (nsuThen (healthAlarm src test count sample) (advance t s))

/-- APT_WINDOW_CLOSE: tested entries join their queues and go to those that wait (R264, R268, R269). -/
def execAptWindowClose (t src : Nat) (s : State) : Answer := .next (nsuThen (closeAptWindow src) (advance t s))

/-- ENTRY_WINDOW_BOUNDARY (R266, R267, R272, R273). -/
def execEntryWindowBoundary (t : Nat) (classS : Bool) (samples : List (Nat × Nat)) (s : State) : Answer :=
  .next (nsuThen (windowBoundary classS samples) (advance t s))

/-- SOURCE_EXCHANGE (R273). -/
def execSourceExchange (t : Nat) (s : State) : Answer := .next (nsuThen exchangeSource (advance t s))

/-- An instantiated internal instance asks for an entry, behind those that wait already (R269, R270). -/
def askReseed (i : Nat) (s : State) : State :=
  if (s.nsu.internals.any fun d => d.num == i && d.state.isSome) && !s.nsu.waitI.contains i then
    { s with nsu := { s.nsu with waitI := s.nsu.waitI ++ [i] } }
  else s

/-- INTERNAL_DRBG_RESEED (R269, R270). (DESIGN CHOICE: notes/assumptions/42.md) -/
def execInternalDrbgReseed (t i : Nat) (s : State) : Answer := .next (serveSeeds (askReseed i (advance t s)))

/-- DRBG_AUTO_RESEED (R283). -/
def execDrbgAutoReseed (t : Nat) (s : State) : Answer := .next (autoReseed (advance t s))

/-! ### Halyards -/

/-- STATUS_SWEEP_DUE (R237). -/
def execStatusSweepDue (t p : Nat) (s : State) : Answer := .next (background (sweepDueAt p (advance t s)))

/-- AUTH_DUE (R237, R247). -/
def execAuthDue (t p i : Nat) (s : State) : Answer := .next (background (authDueAt p i (advance t s)))

/-- STATUS_ANSWER (R231, R240, R254). -/
def execStatusAnswer (t p : Nat) (slots : Uplink) (presence : List Nat) (s : State) : Answer :=
  .next (background (statusEnded p slots presence (advance t s)))

/-- The answer to the ASSIGN on the line (R231). -/
def assignAnswered (p : Nat) (up : Uplink) (s : State) : State :=
  match findPort s p with
  | some x =>
    match x.act with
    | .assign n => assignEnded p n up s
    | _ => s
  | none => s

/-- ASSIGN_ANSWER (R231). -/
def execAssignAnswer (t p : Nat) (up : Uplink) (s : State) : Answer := .next (background (assignAnswered p up (advance t s)))

/-- SELECT_ANSWER (R233). -/
def execSelectAnswer (t p : Nat) (up : Uplink) (s : State) : Answer := .next (background (answerOf .select p up (advance t s)))

/-- IDENTITY_ANSWER (R233, R243). -/
def execIdentityAnswer (t p : Nat) (up : Uplink) (s : State) : Answer :=
  .next (background (answerOf .identity p up (advance t s)))

/-- AUTH_ANSWER (R233, R239, R248). -/
def execAuthAnswer (t p : Nat) (up : Uplink) (s : State) : Answer := .next (background (answerOf .auth p up (advance t s)))

/-- CONSUME_ANSWER (R257). -/
def execConsumeAnswer (t p : Nat) (up : Uplink) (s : State) : Answer := .next (background (answerOf .consume p up (advance t s)))

/-- READ_LIMIT_ANSWER (R250, R393). -/
def execReadLimitAnswer (t p : Nat) (up : Uplink) (s : State) : Answer :=
  .next (background (answerOf .readLimit p up (advance t s)))

/-- TAKE_RETRY (R231, R233, R257). -/
def execTakeRetry (t p : Nat) (s : State) : Answer := .next (background (retryTake p (advance t s)))

/-- SWEEP_REPEAT (R240). -/
def execSweepRepeat (t p : Nat) (s : State) : Answer := .next (background (repeatSweep p (advance t s)))

/-- STALE_SLATE_RETRY (R236). -/
def execStaleSlateRetry (t p : Nat) (s : State) : Answer := .next (background (staleRetry p (advance t s)))

/-- PORT_CHARGED (R205). -/
def execPortCharged (t p : Nat) (s : State) : Answer := .next (background (portCharge p (advance t s)))

/-- PORT_FAULT_TIMER (R205). -/
def execPortFaultTimer (t p : Nat) (s : State) : Answer := .next (faultTimer p (advance t s))

/-- OVERCURRENT (R205, R236, R260). -/
def execOvercurrent (t p : Nat) (s : State) : Answer := .next (background (overcurrentAt p (advance t s)))

end Sys2Proof.Machine
end

