-- ==== Sys2Proof/Machine/Dispatch.lean ====
section
/-!
DEFINITION. One arm per command of spec/opcode_table.json.
-/
namespace Sys2Proof.Machine

def exec (i : Instr) (s : State) : Host.Outcome State Fault Refusal :=
  match i with
  | .qpCreate t k => Sys2Proof.Machine.execQpCreate t k s
  | .qpDelete t k => Sys2Proof.Machine.execQpDelete t k s
  | .identify t k => Sys2Proof.Machine.execIdentify t k s
  | .shutdownPrepare t k => Sys2Proof.Machine.execShutdownPrepare t k s
  | .timeSet t k => Sys2Proof.Machine.execTimeSet t k s
  | .fwStage t k hw => Sys2Proof.Machine.execFwStage t k hw s
  | .fwActivate t k readable => Sys2Proof.Machine.execFwActivate t k readable s
  | .familyKeyLoad t k hw => Sys2Proof.Machine.execFamilyKeyLoad t k hw s
  | .domainSet t k => Sys2Proof.Machine.execDomainSet t k s
  | .unknownOpcode t k => Sys2Proof.Machine.execUnknownOpcode t k s
  | .ctrCreate t k => Sys2Proof.Machine.execCtrCreate t k s
  | .ctrRead t k bad => Sys2Proof.Machine.execCtrRead t k bad s
  | .ctrAdvance t k bad => Sys2Proof.Machine.execCtrAdvance t k bad s
  | .ctrReserve t k bad => Sys2Proof.Machine.execCtrReserve t k bad s
  | .ctrRaise t k bad => Sys2Proof.Machine.execCtrRaise t k bad s
  | .ctrClose t k => Sys2Proof.Machine.execCtrClose t k s
  | .ctrReclass t k => Sys2Proof.Machine.execCtrReclass t k s
  | .ctrGroupRead t k bad => Sys2Proof.Machine.execCtrGroupRead t k bad s
  | .kidAlloc t k => Sys2Proof.Machine.execKidAlloc t k s
  | .kidSpliceBegin t k => Sys2Proof.Machine.execKidSpliceBegin t k s
  | .kidFlushed t k => Sys2Proof.Machine.execKidFlushed t k s
  | .kidSpliceCommit t k => Sys2Proof.Machine.execKidSpliceCommit t k s
  | .kidRead t k => Sys2Proof.Machine.execKidRead t k s
  | .faultReport t k => Sys2Proof.Machine.execFaultReport t k s
  | .hySlate t k => Sys2Proof.Machine.execHySlate t k s
  | .tagAuth t k => Sys2Proof.Machine.execTagAuth t k s
  | .tagConsume t k => Sys2Proof.Machine.execTagConsume t k s
  | .tagRead t k => Sys2Proof.Machine.execTagRead t k s
  | .tagSide t k => Sys2Proof.Machine.execTagSide t k s
  | .portPower t k => Sys2Proof.Machine.execPortPower t k s
  | .drbgInstantiate t k hw => Sys2Proof.Machine.execDrbgInstantiate t k hw s
  | .drbgGenerate t k hw => Sys2Proof.Machine.execDrbgGenerate t k hw s
  | .drbgReseed t k hw => Sys2Proof.Machine.execDrbgReseed t k hw s
  | .drbgUninstantiate t k => Sys2Proof.Machine.execDrbgUninstantiate t k s
  | .paramRead t k corrected uncorrectable => Sys2Proof.Machine.execParamRead t k corrected uncorrectable s
  | .paramWrite t k hw => Sys2Proof.Machine.execParamWrite t k hw s
  | .paramSync t k => Sys2Proof.Machine.execParamSync t k s
  | .healthRead t k m => Sys2Proof.Machine.execHealthRead t k m s
  | .eolRead t k => Sys2Proof.Machine.execEolRead t k s
  | .maintStart t k => Sys2Proof.Machine.execMaintStart t k s
  | .maintStatus t k => Sys2Proof.Machine.execMaintStatus t k s
  | .placementReport t k => Sys2Proof.Machine.execPlacementReport t k s
  | .poll t hw => Sys2Proof.Machine.execPoll t hw s
  | .tailWordScan t hw => Sys2Proof.Machine.execTailWordScan t hw s
  | .descriptorFetch t hw => Sys2Proof.Machine.execDescriptorFetch t hw s
  | .fenceDispatch t q => Sys2Proof.Machine.execFenceDispatch t q s
  | .descriptorReadFail t => Sys2Proof.Machine.execDescriptorReadFail t s
  | .hoistReadFail t => Sys2Proof.Machine.execHoistReadFail t s
  | .coalescingTime t q => Sys2Proof.Machine.execCoalescingTime t q s
  | .hifReset t linkDown => Sys2Proof.Machine.execHifReset t linkDown s
  | .energyWaitTimeout t k => Sys2Proof.Machine.execEnergyWaitTimeout t k s
  | .capRecompute t vhold => Sys2Proof.Machine.execCapRecompute t vhold s
  | .spliceTimeout t k => Sys2Proof.Machine.execSpliceTimeout t k s
  | .faultStorm t => Sys2Proof.Machine.execFaultStorm t s
  | .randomWaitTimeout t k => Sys2Proof.Machine.execRandomWaitTimeout t k s
  | .slotProgramVerify t bank passed => Sys2Proof.Machine.execSlotProgramVerify t bank passed s
  | .sectorEraseDone t bank sector erased duration => Sys2Proof.Machine.execSectorEraseDone t bank sector erased duration s
  | .placementWindow t => Sys2Proof.Machine.execPlacementWindow t s
  | .looseMove t n => Sys2Proof.Machine.execLooseMove t n s
  | .boundedMove t => Sys2Proof.Machine.execBoundedMove t s
  | .ceilingStepUpdate t => Sys2Proof.Machine.execCeilingStepUpdate t s
  | .cttScrub t corrected bad => Sys2Proof.Machine.execCttScrub t corrected bad s
  | .poweredOnSecond t => Sys2Proof.Machine.execPoweredOnSecond t s
  | .calendarRecord t => Sys2Proof.Machine.execCalendarRecord t s
  | .dailyCollection t m => Sys2Proof.Machine.execDailyCollection t m s
  | .capMeasureFirst t => Sys2Proof.Machine.execCapMeasureFirst t s
  | .maintActivityStart t => Sys2Proof.Machine.execMaintActivityStart t s
  | .blockDrained t => Sys2Proof.Machine.execBlockDrained t s
  | .bistBlockDone t failedStep peakMw unreadable => Sys2Proof.Machine.execBistBlockDone t failedStep peakMw unreadable s
  | .bistBlockDeferred t => Sys2Proof.Machine.execBistBlockDeferred t s
  | .compactSlice t reads => Sys2Proof.Machine.execCompactSlice t reads s
  | .refreshScanSector t bank sector weak reads => Sys2Proof.Machine.execRefreshScanSector t bank sector weak reads s
  | .capMeasureDrawEnd t fall step => Sys2Proof.Machine.execCapMeasureDrawEnd t fall step s
  | .capMeasureGapEnd t => Sys2Proof.Machine.execCapMeasureGapEnd t s
  | .powerWarn t vin vhold => Sys2Proof.Machine.execPowerWarn t vin vhold s
  | .powerHoldup t vin vhold => Sys2Proof.Machine.execPowerHoldup t vin vhold s
  | .flushComplete t => Sys2Proof.Machine.execFlushComplete t s
  | .vinWarningClear t => Sys2Proof.Machine.execVinWarningClear t s
  | .vinResume t vhold => Sys2Proof.Machine.execVinResume t vhold s
  | .vholdReset t => Sys2Proof.Machine.execVholdReset t s
  | .vholdFull t => Sys2Proof.Machine.execVholdFull t s
  | .chargerRestart t => Sys2Proof.Machine.execChargerRestart t s
  | .chargerEnable t vin => Sys2Proof.Machine.execChargerEnable t vin s
  | .vinOvervoltage t vin => Sys2Proof.Machine.execVinOvervoltage t vin s
  | .monitorCrossing t object level => Sys2Proof.Machine.execMonitorCrossing t object level s
  | .internalRailReset t object level => Sys2Proof.Machine.execInternalRailReset t object level s
  | .resetN t => Sys2Proof.Machine.execResetN t s
  | .watchdog t pair => Sys2Proof.Machine.execWatchdog t pair s
  | .lockstepMismatch t pair => Sys2Proof.Machine.execLockstepMismatch t pair s
  | .referenceLost t => Sys2Proof.Machine.execReferenceLost t s
  | .referenceReturned t => Sys2Proof.Machine.execReferenceReturned t s
  | .relock t => Sys2Proof.Machine.execRelock t s
  | .start t vin vhold => Sys2Proof.Machine.execStart t vin vhold s
  | .pllLock t fusesOk reads => Sys2Proof.Machine.execPllLock t fusesOk reads s
  | .calibrationDone t => Sys2Proof.Machine.execCalibrationDone t s
  | .quickCapacitanceCheck t vhold => Sys2Proof.Machine.execQuickCapacitanceCheck t vhold s
  | .quickCapacitanceCheckEnd t fall step vhold => Sys2Proof.Machine.execQuickCapacitanceCheckEnd t fall step vhold s
  | .journalReplayDone t reads => Sys2Proof.Machine.execJournalReplayDone t reads s
  | .startBistDone t o => Sys2Proof.Machine.execStartBistDone t o s
  | .treeRebuildDone t => Sys2Proof.Machine.execTreeRebuildDone t s
  | .startSessionOpen t => Sys2Proof.Machine.execStartSessionOpen t s
  | .holdupCheckTimeout t => Sys2Proof.Machine.execHoldupCheckTimeout t s
  | .holdupCheckRepeat t vhold => Sys2Proof.Machine.execHoldupCheckRepeat t vhold s
  | .nsuSettleDone t => Sys2Proof.Machine.execNsuSettleDone t s
  | .sourceStartupTestDone t src alarms => Sys2Proof.Machine.execSourceStartupTestDone t src alarms s
  | .healthTestAlarm t src test count sample => Sys2Proof.Machine.execHealthTestAlarm t src test count sample s
  | .aptWindowClose t src => Sys2Proof.Machine.execAptWindowClose t src s
  | .entryWindowBoundary t classS samples => Sys2Proof.Machine.execEntryWindowBoundary t classS samples s
  | .sourceExchange t => Sys2Proof.Machine.execSourceExchange t s
  | .internalDrbgReseed t n => Sys2Proof.Machine.execInternalDrbgReseed t n s
  | .drbgAutoReseed t => Sys2Proof.Machine.execDrbgAutoReseed t s
  | .statusSweepDue t p => Sys2Proof.Machine.execStatusSweepDue t p s
  | .authDue t p n => Sys2Proof.Machine.execAuthDue t p n s
  | .statusAnswer t p slots presence => Sys2Proof.Machine.execStatusAnswer t p slots presence s
  | .assignAnswer t p up => Sys2Proof.Machine.execAssignAnswer t p up s
  | .selectAnswer t p up => Sys2Proof.Machine.execSelectAnswer t p up s
  | .identityAnswer t p up => Sys2Proof.Machine.execIdentityAnswer t p up s
  | .authAnswer t p up => Sys2Proof.Machine.execAuthAnswer t p up s
  | .consumeAnswer t p up => Sys2Proof.Machine.execConsumeAnswer t p up s
  | .readLimitAnswer t p up => Sys2Proof.Machine.execReadLimitAnswer t p up s
  | .takeRetry t p => Sys2Proof.Machine.execTakeRetry t p s
  | .sweepRepeat t p => Sys2Proof.Machine.execSweepRepeat t p s
  | .staleSlateRetry t p => Sys2Proof.Machine.execStaleSlateRetry t p s
  | .portCharged t p => Sys2Proof.Machine.execPortCharged t p s
  | .portFaultTimer t p => Sys2Proof.Machine.execPortFaultTimer t p s
  | .overcurrent t p => Sys2Proof.Machine.execOvercurrent t p s
  | .shutdownBistDone t o => Sys2Proof.Machine.execShutdownBistDone t o s
  | .ctrlSoftReset t value => Sys2Proof.Machine.execCtrlSoftReset t value s
  | .statusSetupErrorClear t value => Sys2Proof.Machine.execStatusSetupErrorClear t value s
  | .basePairWrite t offset wide value => Sys2Proof.Machine.execBasePairWrite t offset wide value s
  | .adminSizesWrite t value => Sys2Proof.Machine.execAdminSizesWrite t value s
  | .eventRingSizeWrite t value => Sys2Proof.Machine.execEventRingSizeWrite t value s
  | .pollPeriodWrite t value => Sys2Proof.Machine.execPollPeriodWrite t value s
  | .msixCfgWrite t value => Sys2Proof.Machine.execMsixCfgWrite t value s
  | .monThreshWrite t b value levels => Sys2Proof.Machine.execMonThreshWrite t b value levels s
  | .portEnableWrite t hi value => Sys2Proof.Machine.execPortEnableWrite t hi value s
  | .halyardCfgWrite t value => Sys2Proof.Machine.execHalyardCfgWrite t value s
  | .timeLoRead t requester wide => Sys2Proof.Machine.execTimeLoRead t requester wide s
  | .timeHiRead t requester between => Sys2Proof.Machine.execTimeHiRead t requester between s
  | .debugLockUnlock t value => Sys2Proof.Machine.execDebugLockUnlock t value s
  | .tapUnlock t => Sys2Proof.Machine.execTapUnlock t s
  | .registerWrite t offset width value => Sys2Proof.Machine.execRegisterWrite t offset width value s
  | .linkUp t => Sys2Proof.Machine.execLinkUp t s

end Sys2Proof.Machine
end

