-- ==== Sys2Proof/Machine/Step.lean ====
section
/-!
DEFINITION. One step: the command at the front of the queue, or one CLK of an idle F840.
-/
namespace Sys2Proof.Machine

/-- The front of the queue is taken and carried out with the rest of the queue behind it; on an empty queue the clock counts one CLK
(R14, notes/assumptions/1.md). (DESIGN CHOICE: notes/assumptions/11.md) -/
def step (s : State) : Host.Outcome State Fault Refusal :=
  match s.pending with
  | [] => .next (tick s)
  | c :: rest => exec c { s with pending := rest }

/-- The state with the command that a word spells at the front of its queue; no word spells one. -/
def State.withFetchWord (s : State) (nbits w : Nat) : State :=
  match decodeTableWord nbits w with
  | some c => { s with pending := c :: s.pending }
  | none => s

end Sys2Proof.Machine
end

