-- ==== Sys2Proof/WellFormed.lean ====
section
/-!
DEFINITION. The commands whose operands the manual admits (`Instr.wf`): device times and host addresses of 64 bits, ports,
banks, sectors, sources, queue pairs and positions that exist. `exec` is total on all commands.
-/
namespace Sys2Proof

/-- Device time is a 64-bit count (spec/01_architecture.md R14). -/
def clkOk (t : Nat) : Bool := decide (t < 2 ^ 64)

/-- Host addresses are 64 bits wide (spec/02_host_rings.md R39). -/
def writesOk (hw : HostWrites) : Bool := hw.all fun c => decide (c.1 < 2 ^ 64)

/-- A word of CTT that exists (spec/03_counters.md R64, R89; spec/05_durability_recovery.md R160). -/
def BadWord.wf : BadWord → Bool
  | .leaf n => decide (n < 262144)
  | .shadow n => decide (n < 262144)
  | .group g => decide (g < 4096)
  | .sect k => decide (k < 64)
  | .root copies => decide (1 ≤ copies) && decide (copies ≤ 3)
  | .indirection n copies => decide (n < 262144) && decide (1 ≤ copies) && decide (copies ≤ 2)

/-- The words found bad exist. -/
def badOk (bad : List BadWord) : Bool := bad.all BadWord.wf

/-- The turnaround gives 128 samples, and a byte at least those of its eight bit slots (spec/08_halyard_line.md R215, R217). -/
def uplinkOk (up : Uplink) : Bool :=
  decide (up.turnaround.length = 128) && up.bytes.all fun x => decide (512 ≤ x.length)

/-- A slot of the flash, its groups, and 32 bytes read (spec/04_journal_flash.md R95, R96). -/
def SlotRead.wf (x : SlotRead) : Bool :=
  decide (x.bank < 4) && decide (x.sector < 64) && decide (x.slot < 1024) && (x.corrected.all fun g => decide (g < 4)) &&
    match x.found with
    | .other bytes => decide (bytes.length = 32)
    | _ => true

/-- Reads of slots that exist. -/
def readsOk (reads : List SlotRead) : Bool := reads.all SlotRead.wf

/-- There are eight ageing pairs (spec/12_health_selftest.md R314). -/
def measuresOk (m : Measures) : Bool := decide (m.ag.length = 8)

/-- The failed steps are steps of the BIST, and the failed sources exist (spec/12_health_selftest.md R325). -/
def bistOk (o : BistOutcome) : Bool :=
  o.failed.all (fun x => decide (1 ≤ x) && decide (x ≤ 16)) && decide (o.sources < 1024)

/-- The 8-byte groups of a parameter page (spec/04_journal_flash.md R124, R128). -/
def groupsOk (gs : List Nat) : Bool := gs.all fun g => decide (g < 8)

/-- The operands of a command are ones that its happening can have. -/
def Instr.wf : Instr → Bool
  | .qpCreate t _ => clkOk t
  | .qpDelete t _ => clkOk t
  | .identify t _ => clkOk t
  | .shutdownPrepare t _ => clkOk t
  | .timeSet t _ => clkOk t
  | .fwStage t _ hw => clkOk t && writesOk hw
  | .fwActivate t _ _ => clkOk t
  | .familyKeyLoad t _ hw => clkOk t && writesOk hw
  | .domainSet t _ => clkOk t
  | .unknownOpcode t _ => clkOk t
  | .ctrCreate t _ => clkOk t
  | .ctrRead t _ bad => clkOk t && badOk bad
  | .ctrAdvance t _ bad => clkOk t && badOk bad
  | .ctrReserve t _ bad => clkOk t && badOk bad
  | .ctrRaise t _ bad => clkOk t && badOk bad
  | .ctrClose t _ => clkOk t
  | .ctrReclass t _ => clkOk t
  | .ctrGroupRead t _ bad => clkOk t && badOk bad
  | .kidAlloc t _ => clkOk t
  | .kidSpliceBegin t _ => clkOk t
  | .kidFlushed t _ => clkOk t
  | .kidSpliceCommit t _ => clkOk t
  | .kidRead t _ => clkOk t
  | .faultReport t _ => clkOk t
  | .hySlate t _ => clkOk t
  | .tagAuth t _ => clkOk t
  | .tagConsume t _ => clkOk t
  | .tagRead t _ => clkOk t
  | .tagSide t _ => clkOk t
  | .portPower t _ => clkOk t
  | .drbgInstantiate t _ hw => clkOk t && writesOk hw
  | .drbgGenerate t _ hw => clkOk t && writesOk hw
  | .drbgReseed t _ hw => clkOk t && writesOk hw
  | .drbgUninstantiate t _ => clkOk t
  | .paramRead t _ corrected uncorrectable => clkOk t && groupsOk corrected && groupsOk uncorrectable
  | .paramWrite t _ hw => clkOk t && writesOk hw
  | .paramSync t _ => clkOk t
  | .healthRead t _ m => clkOk t && measuresOk m
  | .eolRead t _ => clkOk t
  | .maintStart t _ => clkOk t
  | .maintStatus t _ => clkOk t
  | .placementReport t _ => clkOk t
  | .poll t hw => clkOk t && writesOk hw
  | .tailWordScan t hw => clkOk t && writesOk hw
  | .descriptorFetch t hw => clkOk t && writesOk hw
  | .fenceDispatch t q => clkOk t && decide (q < 4096)
  | .descriptorReadFail t => clkOk t
  | .hoistReadFail t => clkOk t
  | .coalescingTime t q => clkOk t && (q.all fun x => decide (x < 4096))
  | .hifReset t _ => clkOk t
  | .energyWaitTimeout t _ => clkOk t
  | .capRecompute t _ => clkOk t
  | .spliceTimeout t _ => clkOk t
  | .faultStorm t => clkOk t
  | .randomWaitTimeout t _ => clkOk t
  | .slotProgramVerify t bank _ => clkOk t && decide (bank < 4)
  | .sectorEraseDone t bank sector _ _ => clkOk t && decide (bank < 4) && decide (sector < 64)
  | .placementWindow t => clkOk t
  | .looseMove t n => clkOk t && decide (n < 262144)
  | .boundedMove t => clkOk t
  | .ceilingStepUpdate t => clkOk t
  | .cttScrub t _ bad => clkOk t && badOk bad
  | .poweredOnSecond t => clkOk t
  | .calendarRecord t => clkOk t
  | .dailyCollection t m => clkOk t && measuresOk m
  | .capMeasureFirst t => clkOk t
  | .maintActivityStart t => clkOk t
  | .blockDrained t => clkOk t
  | .bistBlockDone t failedStep _ _ => clkOk t && decide (failedStep ≤ 16)
  | .bistBlockDeferred t => clkOk t
  | .compactSlice t reads => clkOk t && readsOk reads
  | .refreshScanSector t bank sector _ reads => clkOk t && decide (bank < 4) && decide (sector < 64) && readsOk reads
  | .capMeasureDrawEnd t _ _ => clkOk t
  | .capMeasureGapEnd t => clkOk t
  | .powerWarn t _ _ => clkOk t
  | .powerHoldup t _ _ => clkOk t
  | .flushComplete t => clkOk t
  | .vinWarningClear t => clkOk t
  | .vinResume t _ => clkOk t
  | .vholdReset t => clkOk t
  | .vholdFull t => clkOk t
  | .chargerRestart t => clkOk t
  | .chargerEnable t _ => clkOk t
  | .vinOvervoltage t _ => clkOk t
  | .monitorCrossing t object _ => clkOk t && decide (object ∈ [0, 1, 2, 3, 0x10, 0x11, 0x12, 0x13])
  | .internalRailReset t object _ => clkOk t && decide (object ∈ [0x10, 0x11, 0x12])
  | .resetN t => clkOk t
  | .watchdog t pair => clkOk t && decide (pair < 2)
  | .lockstepMismatch t pair => clkOk t && decide (pair < 2)
  | .referenceLost t => clkOk t
  | .referenceReturned t => clkOk t
  | .relock t => clkOk t
  | .start t _ _ => clkOk t
  | .pllLock t _ reads => clkOk t && readsOk reads
  | .calibrationDone t => clkOk t
  | .quickCapacitanceCheck t _ => clkOk t
  | .quickCapacitanceCheckEnd t _ _ _ => clkOk t
  | .journalReplayDone t reads => clkOk t && readsOk reads
  | .startBistDone t o => clkOk t && bistOk o
  | .treeRebuildDone t => clkOk t
  | .startSessionOpen t => clkOk t
  | .holdupCheckTimeout t => clkOk t
  | .holdupCheckRepeat t _ => clkOk t
  | .nsuSettleDone t => clkOk t
  | .sourceStartupTestDone t src _ => clkOk t && decide (src < 10)
  | .healthTestAlarm t src _ _ _ => clkOk t && decide (src < 10)
  | .aptWindowClose t src => clkOk t && decide (src < 10)
  | .entryWindowBoundary t _ samples => clkOk t && (samples.all fun x => decide (x.1 < 10))
  | .sourceExchange t => clkOk t
  | .internalDrbgReseed t i => clkOk t && decide (i < 8)
  | .drbgAutoReseed t => clkOk t
  | .statusSweepDue t p => clkOk t && decide (p < 48)
  | .authDue t p i => clkOk t && decide (p < 48) && decide (1 ≤ i) && decide (i ≤ 16)
  | .statusAnswer t p slots presence => clkOk t && decide (p < 48) && uplinkOk slots && decide (512 ≤ presence.length)
  | .assignAnswer t p up => clkOk t && decide (p < 48) && uplinkOk up
  | .selectAnswer t p up => clkOk t && decide (p < 48) && uplinkOk up
  | .identityAnswer t p up => clkOk t && decide (p < 48) && uplinkOk up
  | .authAnswer t p up => clkOk t && decide (p < 48) && uplinkOk up
  | .consumeAnswer t p up => clkOk t && decide (p < 48) && uplinkOk up
  | .readLimitAnswer t p up => clkOk t && decide (p < 48) && uplinkOk up
  | .takeRetry t p => clkOk t && decide (p < 48)
  | .sweepRepeat t p => clkOk t && decide (p < 48)
  | .staleSlateRetry t p => clkOk t && decide (p < 48)
  | .portCharged t p => clkOk t && decide (p < 48)
  | .portFaultTimer t p => clkOk t && decide (p < 48)
  | .overcurrent t p => clkOk t && decide (p < 48)
  | .shutdownBistDone t o => clkOk t && bistOk o
  | .ctrlSoftReset t _ => clkOk t
  | .statusSetupErrorClear t _ => clkOk t
  | .basePairWrite t offset _ _ => clkOk t && (offset % 4 == 0 && decide (offset < 4096))
  | .adminSizesWrite t _ => clkOk t
  | .eventRingSizeWrite t _ => clkOk t
  | .pollPeriodWrite t _ => clkOk t
  | .msixCfgWrite t _ => clkOk t
  | .monThreshWrite t _ _ levels => clkOk t && decide (levels.length = 2)
  | .portEnableWrite t _ _ => clkOk t
  | .halyardCfgWrite t _ => clkOk t
  | .timeLoRead t _ _ => clkOk t
  | .timeHiRead t _ _ => clkOk t
  | .debugLockUnlock t _ => clkOk t
  | .tapUnlock t => clkOk t
  | .registerWrite t offset width _ => clkOk t && decide (offset < 65536) && decide (width ∈ [1, 2, 4, 8])
  | .linkUp t => clkOk t

end Sys2Proof
end

