-- ==== Sys2Proof/Safety.lean ====
section
/-!
DEFINITION. The words in which statements about the F840 are made: an operation at its dispatch, a device that serves it, where
a completion and an event are stored, and the invariant every step keeps.
-/
namespace Sys2Proof.Safety

open Sys2Proof.Machine

/-- Operation `op` with fetch number `k` stands at its dispatch in `u`, has opcode `code`, and is on a QP that may carry it
(spec/02_host_rings.md R46, R47, R60). -/
abbrev Dispatched (code k : Nat) (op : Op) (u : State) : Prop :=
  findOp u k = some op ∧ hasCode code op = true ∧ dispatchable op u = true

/-- The F840 is not in SAFE and SHUTDOWN_PREPARE has not been dispatched (R60, R324). -/
abbrev Serving (u : State) : Prop := inSafe u = false ∧ u.pmu.shutdown = false

/-- The entries an operation needs fit, and it has its ceiling (R87, R141, R144). -/
abbrev Admitted (n : Need) (u : State) : Prop := admits (waitingNeeds u) n u = true

/-- The opcode, the device time and the fetch number of a command that is the dispatch of an operation of R60, with what the host
has written by then. -/
def dispatchOf : Instr → Option (Nat × Nat × Nat × HostWrites)
  | .qpCreate t k => some (0x01, t, k, [])
  | .qpDelete t k => some (0x02, t, k, [])
  | .identify t k => some (0x04, t, k, [])
  | .shutdownPrepare t k => some (0x05, t, k, [])
  | .timeSet t k => some (0x06, t, k, [])
  | .fwStage t k hw => some (0x07, t, k, hw)
  | .fwActivate t k _ => some (0x08, t, k, [])
  | .familyKeyLoad t k hw => some (0x09, t, k, hw)
  | .domainSet t k => some (0x0A, t, k, [])
  | .ctrCreate t k => some (0x10, t, k, [])
  | .ctrRead t k _ => some (0x11, t, k, [])
  | .ctrAdvance t k _ => some (0x12, t, k, [])
  | .ctrReserve t k _ => some (0x13, t, k, [])
  | .ctrRaise t k _ => some (0x14, t, k, [])
  | .ctrClose t k => some (0x15, t, k, [])
  | .ctrReclass t k => some (0x16, t, k, [])
  | .ctrGroupRead t k _ => some (0x17, t, k, [])
  | .kidAlloc t k => some (0x20, t, k, [])
  | .kidSpliceBegin t k => some (0x21, t, k, [])
  | .kidFlushed t k => some (0x22, t, k, [])
  | .kidSpliceCommit t k => some (0x23, t, k, [])
  | .kidRead t k => some (0x24, t, k, [])
  | .faultReport t k => some (0x25, t, k, [])
  | .hySlate t k => some (0x30, t, k, [])
  | .tagAuth t k => some (0x31, t, k, [])
  | .tagConsume t k => some (0x32, t, k, [])
  | .tagRead t k => some (0x33, t, k, [])
  | .tagSide t k => some (0x34, t, k, [])
  | .portPower t k => some (0x35, t, k, [])
  | .drbgInstantiate t k hw => some (0x41, t, k, hw)
  | .drbgGenerate t k hw => some (0x42, t, k, hw)
  | .drbgReseed t k hw => some (0x43, t, k, hw)
  | .drbgUninstantiate t k => some (0x44, t, k, [])
  | .paramRead t k _ _ => some (0x50, t, k, [])
  | .paramWrite t k hw => some (0x51, t, k, hw)
  | .paramSync t k => some (0x52, t, k, [])
  | .healthRead t k _ => some (0x60, t, k, [])
  | .eolRead t k => some (0x61, t, k, [])
  | .maintStart t k => some (0x62, t, k, [])
  | .maintStatus t k => some (0x63, t, k, [])
  | .placementReport t k => some (0x64, t, k, [])
  | _ => none

/-- Where HIF writes the next completion of a QP (R41). -/
def completionEntry (q : Qp) : Nat := q.cqBase + 32 * (q.written.toNat % q.cqSize)

/-- `v` differs from `u` in nothing but HIF, host memory, the messages that left the part, and who still waits for fresh entropy. -/
abbrev HostOnly (u v : State) : Prop :=
  v = { u with mem := v.mem, hif := v.hif, out := v.out, nsu := { u.nsu with waitS := v.nsu.waitS } }

/-- The numbers of units that no command changes: engines, sections, root copies, ports, noise sources and internal DRBG instances
(spec/01_architecture.md R10, spec/03_counters.md R73, spec/09_halyard_chains.md R260). -/
abbrev UnitsWhole (s : State) : Prop :=
  s.ctr.engines.length = 4 ∧ s.ctr.sections.length = 64 ∧ s.ctr.roots.length = 3 ∧ s.hyc.ports.length = 48 ∧
    s.nsu.sources.length = 10 ∧ s.nsu.internals.length = 8

/-- What every step keeps: host memory in its canonical form, and every unit in its place. -/
abbrev Invariant (s : State) : Prop := memWf s.mem = true ∧ UnitsWhole s

/-- The table of counters: rows in ascending order of their numbers, the next number unused, every closed number in the table
(spec/03_counters.md R66, R67). -/
abbrev TableWhole (s : State) : Prop :=
  s.ctr.leaves.Pairwise (fun a b => a.num < b.num) ∧ (∀ l ∈ s.ctr.leaves, l.num ≠ s.ctr.nextNumber) ∧
    ∀ n ∈ s.ctr.closedOrder, ∃ l ∈ s.ctr.leaves, l.num = n

end Sys2Proof.Safety
end

