-- ==== Sys2Proof/Certificates/Slice0/Obligations.lean ====
section
/-!
DEFINITION. The statements about the F840 for the provers. `u` is the state at the command's device time; every statement about a
next state says which one it is, so that all it does not name is as it was.
-/
open Sys2Proof Sys2Proof.Machine Sys2Proof.Safety


/-! ### Operations of the host -/

/-- O1. QP_CREATE adds the queue pair its fields describe, IDENTIFY writes its 256 bytes, TIME_SET sets the calendar and
DOMAIN_SET the domain's row, each of the last two completing with its CONFIG record (R35, R59, R307, R38). -/
def Obligations.AdminOperationsComplete : Prop :=
  (∀ s t k op q u, u = advance t s → Dispatched 0x01 k op u → Serving u → u.ready.calib = true → qpFields op u = true →
    domainEnabled u (opBits op.c 18 6) = true →
    q = { num := op.obj.toNat, sqBase := op.a.toNat, cqBase := op.b.toNat, sqSize := 2 ^ (6 + opBits op.c 0 4),
          cqSize := 2 ^ (6 + opBits op.c 4 4), limit := opBits op.c 8 7, cls := opBits op.c 16 2, domain := opBits op.c 18 6,
          vector := opBits op.c 24 6, coalCount := opBits op.c 32 8, coalTime := opBits op.c 40 16, tail := 0, head := 0,
          fetched := 0, written := 0, stopped := false, deleting := false, unsignalled := 0, oldest := 0, deficit := 0 } →
    exec (.qpCreate t k) s = .next (complete op .ok (BitVec.zeroExtend 64 op.obj) 0 false
      { u with hif := { u.hif with qps := insertBy (fun q => q.num) q u.hif.qps } })) ∧
  (∀ s t k op u, u = advance t s → Dispatched 0x04 k op u → u.ready.calib = true → fieldsFree op 0 0 0 allBits = true →
    op.c.toNat % 32 = 0 →
    exec (.identify t k) s = .next (complete op .ok 0 0 false (writeHost op.c.toNat (identifyBytes u) u))) ∧
  (∀ s t k op u, u = advance t s → Dispatched 0x06 k op u → Serving u → u.ready.journal = true →
    fieldsFree op 0 0x000000FFFFFFFFFF 0x3FFFFFFF 0 = true →
    calendar u < op.a.toNat ∨ calendar u = op.a.toNat ∧ calendarClk u ≤ op.b.toNat →
    exec (.timeSet t k) s = .next (background (awaitRecord op (.config 0x300) (BitVec.ofNat 64 (calendar u)) 0
      { u with clk := { u.clk with
          calBase := op.a.toNat, calClk := op.b.toNat, calAt := u.clk.now, calNotSet := false, calImprecise := false } }))) ∧
  (∀ s t k op d u, u = advance t s → Dispatched 0x0A k op u → Serving u → u.ready.journal = true → domainFields op u = true →
    d = { num := op.obj.toNat, counters := opBits op.a 0 32, strict := opBits op.a 32 32, bounded := opBits op.b 0 32,
          kids := opBits op.b 32 16, drbgs := opBits op.b 48 9, enabled := op.c.getLsbD 0 } →
    exec (.domainSet t k) s = .next (background (awaitRecord op (.config op.obj.toNat) 0 0
      { u with kit := { u.kit with
          domains := insertBy (fun d => d.num) d (u.kit.domains.filter fun d => d.num != op.obj.toNat) } })))

/-- O2. QP_DELETE stops fetching from the QP, ends its waiting operations with ABORTED, and waits with the descriptors announced
and not fetched, and the fetch count; while the QP has operations nothing ends it; with its last one it completes with these, and
the QP is gone (R55, R57). -/
def Obligations.QpDeleteEndsWithTheLastOperation : Prop :=
  (∀ s t k op q u, u = advance t s → Dispatched 0x02 k op u → Serving u → u.ready.calib = true →
    fieldsFree op allObj 0 0 0 = true → op.obj ≠ 0 → findQp u op.obj.toNat = some q →
    exec (.qpDelete t k) s = .next (background (endDelete q.num (refuseWaits (fun o => o.qp == q.num) .aborted
      (setOpSt op.id (.deleting (BitVec.ofNat 64 (announced q)) (BitVec.ofNat 64 (q.fetched.toNat + 2 ^ 32 * bit (tailOut q))))
        (modQp q.num (fun q => { q with deleting := true }) u)))))) ∧
  (∀ n u, qpOps u n ≠ [] → endDelete n u = u) ∧
  (∀ n op resA resB u, qpOps u n = [] → op ∈ u.hif.ops → op.opcode = 0x02 → op.obj.toNat = n → op.st = .deleting resA resB →
    (∀ o ∈ u.hif.ops, ∀ a b, o.st = .deleting a b → o.obj.toNat = n → o = op) →
    endDelete n u = removeOp op.id (writeCompletion op .ok resA resB false
      { u with hif := { u.hif with qps := u.hif.qps.filter fun q => q.num != n } }))

/-- O3. FW_STAGE stores its chunk in the inactive slot: at offset 0 with the slot's record, at the end of what is staged at once;
FW_ACTIVATE of an image that runs, with its anti-rollback entry admitted, raises the anti-rollback version, leaves the slot
pending and completes with both records; FAMILY_KEY_LOAD unwraps the host's 32 bytes under the key-loading key, keeps the family's
key and completes with its record (R309, R310, R311, R246, R247). -/
def Obligations.FirmwareAndFamilyKeysComplete : Prop :=
  (∀ s t k hw op u, u = advance t (hostWrites hw s) → Dispatched 0x07 k op u → Serving u → u.ready.journal = true →
    u.fw.pending = false → stageFields op u = true →
    exec (.fwStage t k hw) s = .next (background (if op.a = 0 then
        awaitRecord op (.config 0x400) op.b 0 (setInactive ⟨readHost u op.c.toNat op.b.toNat, true⟩ u)
      else complete op .ok (op.a + op.b) 0 false (setInactive
        { inactiveSlot u with bytes := (inactiveSlot u).bytes ++ readHost u op.c.toNat op.b.toNat } u)))) ∧
  (∀ s t k op u w, u = advance t s → Dispatched 0x08 k op u → Serving u → u.ready.journal = true →
    fieldsFree op 0 0 0 0 = true → imageRuns u.fuse (inactiveSlot u) = true → u.int.antiRoll ≤ slotVersion (inactiveSlot u) →
    Admitted ⟨slotsNeeded .antiRoll u, 0, true⟩ u →
    w = queueWrite 4 (.config 0x400) (queueWrite 4 .antiRoll (setInactive { inactiveSlot u with incomplete := false }
      (owe .antiRoll { u with int := { u.int with antiRoll := slotVersion (inactiveSlot u) }
                              fw := { u.fw with pending := true } }))) →
    exec (.fwActivate t k true) s = .next (background (setOpSt op.id
      (.record (queuedId .antiRoll w ++ queuedId (.config 0x400) w) (BitVec.ofNat 64 (slotVersion (inactiveSlot u)))
        (BitVec.ofNat 64 u.int.antiRoll)) w))) ∧
  (∀ s t k hw op plain key u, u = advance t (hostWrites hw s) → Dispatched 0x09 k op u → Serving u → u.ready.journal = true →
    fieldsFree op 0xF 0 0 allBits = true → op.c.toNat % 32 = 0 →
    unwrapKey (leBytes 32 u.fuse.loadingKey.toNat) (readHost u op.c.toNat 32) = some plain → keyFits op.obj.toNat plain = true →
    key = BitVec.ofNat 128 (fieldAt plain 0 16) →
    exec (.familyKeyLoad t k hw) s = .next (background (awaitRecord op (.config (0x100 + op.obj.toNat)) 0 0
      (rekeyFamily op.obj.toNat key { u with hyc := { u.hyc with
        families := insertBy (fun f => f.1) (op.obj.toNat, key) (u.hyc.families.filter fun f => f.1 != op.obj.toNat) } }))))

/-- O4. SHUTDOWN_PREPARE lets what has been fetched and may be dispatched have its effect, begins the shutdown flush and waits for
its end; an operation whose opcode is not in R60, or an admin opcode on another QP than 0, completes with BAD_OPCODE (R323, R60). -/
def Obligations.ShutdownAndUnknownOpcodes : Prop :=
  (∀ s t k op u v w, u = advance t s → Dispatched 0x05 k op u → Serving u → u.ready.counters = true →
    fieldsFree op 0 0 0 0 = true → u.flush.why = .none → v = setOpSt op.id .shutdown u →
    w = runReady (v.hif.ops.map fun o => o.id) v →
    exec (.shutdownPrepare t k) s = .next (beginFlush .shutdown none { w with pmu := { w.pmu with shutdown := true } })) ∧
  (∀ s t k op u, u = advance t s → findOp u k = some op → dispatchable op u = true → isBadOpcode op = true →
    exec (.unknownOpcode t k) s = .next (complete op .badOpcode 0 0 false u))

/-- O5. A rise of a counter: CTR_RESERVE by N, CTR_ADVANCE by N, CTR_RAISE to V and FAULT_REPORT by N on an open counter of the
operation's domain raise it, with what each answers, once the rise is admitted; each from its place in its engine's queue on (R77,
R78, R79, R198, R346). -/
def Obligations.CounterRisesComplete : Prop :=
  (∀ s t k op l u w, u = advance t s → w = takePlace op u → Dispatched 0x13 k op u → ctrGate op u = none → openTarget op w = .ok l →
    l.v.toNat + op.a.toNat ≤ maxV → Admitted (riseNeed w l (l.v.toNat + op.a.toNat)) w →
    exec (.ctrReserve t k []) s = .next (background (wakeCommits (completeOn op l.num (l.v + 1)
      (BitVec.ofNat 64 (l.v.toNat + op.a.toNat)) (chargeWork op l.group 1 (raiseLeaf l (l.v.toNat + op.a.toNat) w)))))) ∧
  (∀ s t k op l u w, u = advance t s → w = takePlace op u → Dispatched 0x12 k op u → ctrGate op u = none → openTarget op w = .ok l →
    l.v.toNat + op.a.toNat ≤ maxV → Admitted (riseNeed w l (l.v.toNat + op.a.toNat)) w →
    exec (.ctrAdvance t k []) s = .next (background (wakeCommits (completeOn op l.num
      (BitVec.ofNat 64 (l.v.toNat + op.a.toNat)) l.v
      (chargeWork op l.group 1 (raiseLeaf l (l.v.toNat + op.a.toNat) w)))))) ∧
  (∀ s t k op l u w, u = advance t s → w = takePlace op u → Dispatched 0x14 k op u → ctrGate op u = none → openTarget op w = .ok l →
    l.v.toNat < op.a.toNat → Admitted (riseNeed w l op.a.toNat) w →
    exec (.ctrRaise t k []) s = .next (background (wakeCommits (completeOn op l.num op.a 1
      (chargeWork op l.group 1 (raiseLeaf l op.a.toNat w)))))) ∧
  (∀ s t k op l u w, u = advance t s → w = takePlace op u → Dispatched 0x14 k op u → ctrGate op u = none → openTarget op w = .ok l →
    op.a.toNat ≤ l.v.toNat → w.owed.frozen = false →
    exec (.ctrRaise t k []) s = .next (background (wakeCommits (completeOn op l.num l.v 0 (chargeWork op l.group 1 w))))) ∧
  (∀ s t k op l v u w r, u = advance t s → w = takePlace op u → Dispatched 0x25 k op u → ctrGate op u = none →
    openTarget op w = .ok l →
    l.cls = .loose → v = min (l.v.toNat + opBits op.a 0 32) maxV → Admitted (riseNeed w l v) w →
    r = countReport op.domain (BitVec.ofNat 32 (opBits op.b 0 32)) (opBits op.a 32 8) (opBits op.a 0 32) op.obj
      (chargeWork op l.group 2 (raiseLeaf l v w)) →
    exec (.faultReport t k) s = .next (background (wakeCommits (completeOn op l.num (BitVec.ofNat 64 v)
      (r.2 + (if maxV < l.v.toNat + opBits op.a 0 32 then 4 else 0)) r.1))))

/-- O6. CTR_READ answers V and the status of a counter, open or closed, of the operation's domain, and writes its 32 bytes where a
buffer is named; CTR_GROUP_READ answers the group's live maximum and writes its buffer; neither waits (R80, R82, R85). -/
def Obligations.CounterReadsComplete : Prop :=
  (∀ s t k op l u w, u = advance t s → w = takePlace op u → Dispatched 0x11 k op u → ctrGate op u = none →
    byHandle w op.obj = some l →
    foreign op l.domain = false → w.owed.frozen = false →
    exec (.ctrRead t k []) s = .next (wakeCommits (completeOn op l.num l.v
      (BitVec.ofNat 64 (clsCode l.cls + 4 * bit l.closed + 8 * bit l.inexact + 16 * bit l.repaired +
        256 * saturate l.lastSkip.toNat (2 ^ 56 - 1)))
      (chargeWork op l.group 1 (if op.c = 0 then w else writeHost op.c.toNat
        (leBytes 8 l.v.toNat ++ leBytes 8 l.lastSkip.toNat ++ leBytes 8 l.totalSkip.toNat ++
          leBytes 8 (if l.cls = .bounded then l.bound else 0)) w))))) ∧
  (∀ s t k op l g u w, u = advance t s → w = takePlace op u → Dispatched 0x17 k op u → ctrGate op u = none →
    openTarget op w = .ok l →
    findGroup w l.group = some g → w.owed.frozen = false →
    exec (.ctrGroupRead t k []) s = .next (wakeCommits (completeOn op l.num g.liveMax (BitVec.ofNat 64 (g.num + 4096 * g.engine))
      (chargeWork op g.num 2 (writeHost op.c.toNat (groupBuffer w g) w)))))

/-- O7. CTR_CREATE in a group with a written ceiling at or above V0, CTR_CLOSE, and CTR_RECLASS of a counter that stays covered
take effect once their definition forms are admitted (R74, R75, R81, R83, R84). -/
def Obligations.CounterCreateCloseReclassComplete : Prop :=
  (∀ s t k op cls n inc g u w x, u = advance t s → w = takePlace op u → Dispatched 0x10 k op u → ctrGate op u = none →
    clsOf (opBits op.c 0 2) = some cls → classFull w op.domain cls true = false → takeNumber w = some (n, inc, x) →
    chooseGroup w op.domain cls op.a.toNat op.b.toNat (BitVec.ofNat 32 (opBits op.c 32 32)) = .existing g →
    Admitted ⟨2, 0, ceilingAllows w g op.a.toNat⟩ w →
    exec (.ctrCreate t k) s = .next (background (wakeCommits (placeCounter op cls n inc g x)))) ∧
  (∀ s t k op l u w, u = advance t s → w = takePlace op u → Dispatched 0x15 k op u → ctrGate op u = none → openTarget op w = .ok l →
    Admitted ⟨slotsNeeded (.leaf l.num true) w, 0, true⟩ w →
    exec (.ctrClose t k) s =
      .next (background (wakeCommits (completeOn op l.num l.v 0 (closeLeaf l (chargeWork op l.group 8 w)))))) ∧
  (∀ s t k op l cls g u w, u = advance t s → w = takePlace op u → Dispatched 0x16 k op u → ctrGate op u = none →
    openTarget op w = .ok l →
    clsOf (opBits op.a 0 2) = some cls → reclassAllowed l cls op.b.toNat = true →
    (classFull w op.domain cls false = false ∨ l.cls = cls) → findGroup w l.group = some g →
    uncoveredAt g.liveMax.toNat { l with cls := cls, bound := op.b.toNat } = false →
    Admitted ⟨slotsNeeded (.leaf l.num true) w, 0, true⟩ w →
    exec (.ctrReclass t k) s = .next (background (wakeCommits (finishReclass op l cls
      (setClass l cls op.b.toNat w)))))

/-- O8. The splice of a key identifier: KID_ALLOC makes a FREE one LIVE with its units, KID_SPLICE_BEGIN a LIVE one DRAINING,
KID_FLUSHED takes a unit away, KID_SPLICE_COMMIT with no unit missing raises the generation (at the last one it retires the
identifier) and frees it, and with units missing waits 100 ms for them; KID_READ answers (R189, R190, R191, R192, R194). -/
def Obligations.KeyIdentifierOperationsComplete : Prop :=
  (∀ s t k op x u, u = advance t s → Dispatched 0x20 k op u → kidGate op u = none → x = kidOf u (kidNumber op) →
    x.st = .free → x.retired = false → kidQuotaFull u op.domain = false → Admitted ⟨slotsNeeded (.kid x.num) u, 0, true⟩ u →
    exec (.kidAlloc t k) s = .next (background (wakeCommits (complete op .ok (BitVec.zeroExtend 64 x.gen) op.a false
      (owe (.kid x.num) (setKid { x with st := .live, domain := op.domain, mask := op.a } u)))))) ∧
  (∀ s t k op x u, u = advance t s → Dispatched 0x21 k op u → kidGate op u = none → x = kidOf u (kidNumber op) →
    x.st = .live → foreign op x.domain = false → x.gen = BitVec.truncate 32 op.b →
    Admitted ⟨slotsNeeded (.kid x.num) u, 0, true⟩ u →
    exec (.kidSpliceBegin t k) s = .next (background (wakeCommits (awaitRecord op (.kid x.num) (BitVec.zeroExtend 64 x.gen) x.mask
      (owe (.kid x.num) (setKid { x with st := .draining } u)))))) ∧
  (∀ s t k op x u, u = advance t s → Dispatched 0x22 k op u → kidGate op u = none → x = kidOf u (kidNumber op) →
    x.st = .draining → foreign op x.domain = false → x.gen = BitVec.truncate 32 op.b →
    x.mask &&& unitBit (opBits op.a 0 6) ≠ 0 → Admitted ⟨slotsNeeded (.kid x.num) u, 0, true⟩ u →
    exec (.kidFlushed t k) s = .next (background (wakeCommits (complete op .ok (x.mask &&& ~~~unitBit (opBits op.a 0 6)) 1 false
      (owe (.kid x.num) (setKid { x with mask := x.mask &&& ~~~unitBit (opBits op.a 0 6) } u)))))) ∧
  (∀ s t k op x y u, u = advance t s → Dispatched 0x23 k op u → kidGate op u = none → x = kidOf u (kidNumber op) →
    x.st = .draining → foreign op x.domain = false → x.gen = BitVec.truncate 32 op.b → x.mask &&& ~~~op.a = 0 →
    (∀ o ∈ u.hif.ops, o.opcode = 0x23 → o.id ≠ op.id → kidNumber o = x.num → isWaiting u o = false) →
    Admitted ⟨slotsNeeded (.kid x.num) u, 0, true⟩ u →
    y = (if x.gen = 0xFFFFFFFF then { x with st := .free, mask := 0, retired := true }
      else { x with st := .free, mask := 0, gen := x.gen + 1 }) →
    exec (.kidSpliceCommit t k) s = .next (background (wakeCommits (awaitRecord op (.kid x.num) (BitVec.zeroExtend 64 y.gen)
      (x.mask &&& op.a) (owe (.kid x.num) (setKid y u)))))) ∧
  (∀ s t k op x u, u = advance t s → Dispatched 0x23 k op u → kidGate op u = none → x = kidOf u (kidNumber op) →
    x.st = .draining → foreign op x.domain = false → x.gen = BitVec.truncate 32 op.b → x.mask &&& ~~~op.a ≠ 0 →
    (∀ o ∈ u.hif.ops, o.opcode = 0x23 → o.id ≠ op.id → kidNumber o = x.num → isWaiting u o = false) → u.owed.frozen = false →
    exec (.kidSpliceCommit t k) s =
      .next (background (wakeCommits (setOpSt op.id (.splice (u.clk.now + hundredMs)) u)))) ∧
  (∀ s t k op x u, u = advance t s → Dispatched 0x24 k op u → kidGate op u = none → x = kidOf u (kidNumber op) →
    kidForeign op x = false → u.owed.frozen = false →
    exec (.kidRead t k) s = .next (wakeCommits (complete op .ok (BitVec.ofNat 64 (x.gen.toNat + 2 ^ 32 * kidCode x.st +
      2 ^ 34 * bit x.retired + 2 ^ 35 * bit (waitingCommit u x.num).isSome + 2 ^ 36 * x.domain)) x.mask false u)))

/-- O9. TAG_READ writes the buffer of the tag and answers the port's epoch and the count of the tag's mirror; TAG_SIDE answers the
last side message and its time, or 0; TAG_AUTH and TAG_CONSUME queue on their port, where the port's series serves them; HY_SLATE
queues there too, or joins a series the port has under way (the model's own choice); PORT_POWER on a port with nothing before it
takes effect at once (R255, R256, R257, R259). -/
def Obligations.HalyardOperationsComplete : Prop :=
  (∀ s t k op x y u, u = advance t s → Dispatched 0x33 k op u → tagGate op u = none → findPort u (opPort op) = some x →
    staleEpoch op x = false → tagAbsent op x = false → findPos x (opPos op) = some y →
    exec (.tagRead t k) s = .next (complete op .ok (BitVec.zeroExtend 64 x.epoch)
      (BitVec.ofNat 64 (mirrorFor y 0 u).count) false (writeHost op.c.toNat (tagBuffer u x y) u))) ∧
  (∀ s t k op x y u, u = advance t s → Dispatched 0x34 k op u → tagGate op u = none → findPort u (opPort op) = some x →
    staleEpoch op x = false → tagAbsent op x = false → findPos x (opPos op) = some y →
    exec (.tagSide t k) s = .next (match y.side with
      | some (payload, time) => complete op .ok (BitVec.ofNat 64 (leNat payload)) (BitVec.ofNat 64 time) false u
      | none => complete op .ok 0 0 false u)) ∧
  (∀ s t k op x u, u = advance t s → Dispatched 0x31 k op u → tagGate op u = none → findPort u (opPort op) = some x →
    exec (.tagAuth t k) s = .next (background (serveAll (modPort (opPort op) (fun y => { y with queue := y.queue ++ [op.id] })
      (setOpSt op.id .queued u))))) ∧
  (∀ s t k op x u, u = advance t s → Dispatched 0x32 k op u → tagGate op u = none → findPort u (opPort op) = some x →
    exec (.tagConsume t k) s = .next (background (serveAll (modPort (opPort op) (fun y => { y with queue := y.queue ++ [op.id] })
      (setOpSt op.id .queued u))))) ∧
  (∀ s t k op x u, u = advance t s → Dispatched 0x30 k op u → tagGate op u = none → findPort u (opPort op) = some x →
    exec (.hySlate t k) s = .next (background (if x.series.isSome ∨ x.wanted.isSome then
        wantSeries (opPort op) .host 0 [op.id] (setOpSt op.id .serving u)
      else serveAll (modPort (opPort op) (fun y => { y with queue := y.queue ++ [op.id] }) (setOpSt op.id .queued u))))) ∧
  (∀ s t k op x u, u = advance t s → Dispatched 0x35 k op u → tagGate op u = none → findPort u (opPort op) = some x →
    x.queue = [] → x.act = .idle → x.leaving = false →
    exec (.portPower t k) s = .next (background (serveAll (applyPower op (opPort op) u))))

/-- O10. DRBG_INSTANTIATE and DRBG_RESEED with a class S entry at hand and nobody waiting before them, DRBG_GENERATE of an
instance without prediction resistance, and DRBG_UNINSTANTIATE (R269, R280). The states and the bytes are those of CTR_DRBG on
AES-256 (R278). -/
def Obligations.DrbgOperationsComplete : Prop :=
  (∀ s t k hw op n inc e rest d u w, u = advance t (hostWrites hw s) → Dispatched 0x41 k op u → drbgGate op u = none →
    drbgFull u op.domain = false → u.nsu.waitS = [] → internalWantsS u = false → u.nsu.queueS = e :: rest →
    takeInstance { setOpSt op.id (.random u.clk.now) u with nsu := { u.nsu with waitS := [op.id], queueS := rest } } =
      some (n, inc, w) →
    d = ⟨n, inc, op.domain, drbgInstantiate e (drbgInput op u), 0, 0, false⟩ →
    exec (.drbgInstantiate t k hw) s = .next (updateRandom (complete { op with st := .random u.clk.now } .ok
      (BitVec.ofNat 64 (n + 256 * inc)) 0 false
      { w with drb := { w.drb with instances := insertBy (fun x => x.num) d w.drb.instances } }))) ∧
  (∀ s t k hw op d u, u = advance t (hostWrites hw s) → Dispatched 0x42 k op u → drbgGate op u = none →
    findDrbg u op.obj = some d → d.domain = op.domain → op.a.getLsbD 13 = false → d.requests < 2 ^ 48 →
    exec (.drbgGenerate t k hw) s =
      .next (updateRandom (generate op d d.state (drbgInput op u) (d.requests + 1) false u))) ∧
  (∀ s t k hw op d e rest u w, u = advance t (hostWrites hw s) → Dispatched 0x43 k op u → drbgGate op u = none →
    findDrbg u op.obj = some d → d.domain = op.domain → u.nsu.waitS = [] → internalWantsS u = false →
    u.nsu.queueS = e :: rest →
    w = modDrbg d.num (fun x => { x with auto := false })
      { setOpSt op.id (.random u.clk.now) u with nsu := { u.nsu with waitS := [op.id], queueS := rest } } →
    exec (.drbgReseed t k hw) s = .next (updateRandom (complete { op with st := .random u.clk.now } .ok
      (BitVec.ofNat 64 (d.reseeds + 1)) 0 false (modDrbg d.num (fun x =>
        { x with state := drbgReseed d.state e (drbgInput op u), requests := 0, reseeds := x.reseeds + 1 })
        { w with drb := { w.drb with autoOrder := u.drb.autoOrder.filter fun m => m != d.num } })))) ∧
  (∀ s t k op d u, u = advance t s → Dispatched 0x44 k op u → drbgGate op u = none → findDrbg u op.obj = some d →
    d.domain = op.domain →
    exec (.drbgUninstantiate t k) s = .next (updateRandom (complete op .ok 0 0 false
      { u with drb := { u.drb with
          instances := u.drb.instances.filter fun x => x.num != d.num
          freed := u.drb.freed ++ [(d.num, d.inc)]
          autoOrder := u.drb.autoOrder.filter fun m => m != d.num } })))

/-- O11. PARAM_READ writes the bytes it names to the host, PARAM_WRITE puts the host's bytes into the page in one step, which
makes the page owed, and PARAM_SYNC with no page changed completes at once (R124-R132). -/
def Obligations.ParameterOperationsComplete : Prop :=
  (∀ s t k op x u, u = advance t s → Dispatched 0x50 k op u → paramGate op u = none → op.domain = 0 →
    x = pageOf u (pageNumber op) → x.lost &&& groupMask (touchedGroups op) = 0 → u.owed.frozen = false →
    exec (.paramRead t k [] []) s = .next (wakeCommits (complete op .ok (BitVec.ofNat 64 (x.status.toNat + 256 * bit x.dirty)) 0
      false (writeHost op.c.toNat ((pageRange op).map fun i => nthOr 0xFF i x.bytes) u)))) ∧
  (∀ s t k hw op x u, u = advance t (hostWrites hw s) → Dispatched 0x51 k op u → paramGate op u = none → op.domain = 0 →
    x = pageOf u (pageNumber op) → Admitted ⟨slotsNeeded (.page (pageNumber op)) u, 0, true⟩ u →
    exec (.paramWrite t k hw) s = .next (background (wakeCommits (complete op .ok
      (BitVec.zeroExtend 64 (x.status &&& ~~~groupMask (touchedGroups op))) 0 false (owe (.page (pageNumber op)) (setPage
        { x with bytes := writePageBytes op (readHost u op.c.toNat (opBits op.a 8 7)) x.bytes
                 status := x.status &&& ~~~groupMask (touchedGroups op), dirty := true
                 lost := x.lost &&& ~~~groupMask (coveredGroups op) } u)))))) ∧
  (∀ s t k op u, u = advance t s → Dispatched 0x52 k op u → paramGate op u = none → op.domain = 0 →
    (u.kit.pages.all fun x => !x.dirty) = true → u.owed.frozen = false →
    exec (.paramSync t k) s = .next (background (wakeCommits (complete op .ok 0 0 false u))))

/-- O12. HEALTH_READ of a stored daily and of a sample taken now, EOL_READ of one indicator and of all write their buffers and
complete; MAINT_START gives its activity the next ticket and a place in the arbiter's queue; MAINT_STATUS answers for the arbiter,
for a queued, the running and an ended ticket; PLACEMENT_REPORT writes the summary or a page of the decision log (R321, R322,
R333, R334, R178). -/
def Obligations.ReportsComplete : Prop :=
  (∀ s t k m op day payload u, u = advance t s → Dispatched 0x60 k op u → gate op (healthServed u) u = none →
    fieldsFree op allObj 0 0 allBits = true → op.c.toNat % 32 = 0 → op.obj ≠ 0xFFFFFFFF →
    (u.hmu.dailies.find? fun d => d.1 == op.obj.toNat) = some (day, payload) →
    exec (.healthRead t k m) s = .next (complete op .ok (highestDay u) 0 false
      (writeHost op.c.toNat (healthBytes day 0 payload) u))) ∧
  (∀ s t k m op u, u = advance t s → Dispatched 0x60 k op u → gate op (healthServed u) u = none →
    fieldsFree op allObj 0 0 allBits = true → op.c.toNat % 32 = 0 → op.obj = 0xFFFFFFFF →
    exec (.healthRead t k m) s = .next (complete op .ok (highestDay u) 0 false
      (writeHost op.c.toNat (healthBytes (u.int.posec / 86400) 1 (dailyPayload m u)) u))) ∧
  (∀ s t k op i u, u = advance t s → Dispatched 0x61 k op u → gate op (healthServed u) u = none →
    fieldsFree op allObj 0 0 allBits = true → op.c.toNat % 32 = 0 → op.obj ≠ 0xFFFFFFFF →
    (indicators u).find? (fun i => i.code == op.obj.toNat) = some i →
    exec (.eolRead t k) s = .next (complete op .ok (BitVec.ofNat 64 (fitLower (fitOf i))) (BitVec.ofNat 64 (fitDays (fitOf i)))
      false (writeHost op.c.toNat (eolBytes u i (fitOf i)) u))) ∧
  (∀ s t k op lower code u, u = advance t s → Dispatched 0x61 k op u → gate op (healthServed u) u = none →
    fieldsFree op allObj 0 0 allBits = true → op.c.toNat % 32 = 0 → op.obj = 0xFFFFFFFF →
    lowestBound (indicators u) = some (lower, code) →
    exec (.eolRead t k) s = .next (complete op .ok (BitVec.ofNat 64 lower) 0 false (writeHost op.c.toNat
      (padTo 64 (boundBytes (lowestBound (deviceIndicators u.hmu.dailies)) ++ boundBytes (lowestBound (tagIndicators u)) ++
        leBytes 2 (atStage u 1) ++ leBytes 2 (atStage u 2) ++ leBytes 2 (atStage u 3))) u))) ∧
  (∀ s t k op m w u, u = advance t s → Dispatched 0x62 k op u → Serving u → u.ready.counters = true → maintFields op = true →
    op.domain = 0 → ¬(maintKind op = 1 ∧ otherBlocks.contains (maintBlock op) = true) →
    (u.mnt.queue.filter fun m => m.ticket != 0).length < 16 →
    m = { kind := maintKind op, block := if maintKind op ≤ 2 then maintBlock op else 0,
          mode := if maintKind op = 1 then maintMode op else 0, ticket := u.mnt.nextTicket, forced := false, turn := none,
          changed := u.clk.now, value := 0 } →
    w = startMaint { u with mnt := { u.mnt with queue := u.mnt.queue ++ [m], nextTicket := u.mnt.nextTicket + 1 } } →
    exec (.maintStart t k) s = .next (background (complete op .ok (BitVec.ofNat 64 u.mnt.nextTicket)
      (BitVec.ofNat 64 (queuePlace w u.mnt.nextTicket)) false w))) ∧
  (∀ s t k op u, u = advance t s → Dispatched 0x63 k op u → inSafe u = false → fieldsFree op allObj 0 0 0 = true → op.obj = 0 →
    exec (.maintStatus t k) s = .next (match u.mnt.running with
      | some r => complete op .ok (BitVec.ofNat 64 (r.req.kind + 256 * u.mnt.queue.length)) (BitVec.ofNat 64 r.req.ticket) false u
      | none => complete op .ok (BitVec.ofNat 64 (256 * u.mnt.queue.length)) 0 false u)) ∧
  (∀ s t k op m u, u = advance t s → Dispatched 0x63 k op u → inSafe u = false → fieldsFree op allObj 0 0 0 = true → op.obj ≠ 0 →
    (u.mnt.queue.find? fun m => m.ticket == op.obj.toNat) = some m →
    exec (.maintStatus t k) s = .next (complete op .ok (BitVec.ofNat 64 (256 * queuePlace u op.obj.toNat))
      (BitVec.ofNat 64 m.changed) false u)) ∧
  (∀ s t k op result time u, u = advance t s → Dispatched 0x63 k op u → inSafe u = false →
    fieldsFree op allObj 0 0 0 = true → op.obj ≠ 0 → (u.mnt.queue.find? fun m => m.ticket == op.obj.toNat) = none →
    u.mnt.running = none → (u.mnt.ended.find? fun e => e.1 == op.obj.toNat) = some (op.obj.toNat, result, time) →
    exec (.maintStatus t k) s = .next (complete op .ok (BitVec.ofNat 64 (2 + 65536 * result)) (BitVec.ofNat 64 time) false u)) ∧
  (∀ s t k op u, u = advance t s → Dispatched 0x64 k op u → Serving u → u.ready.counters = true → reportFields op = true →
    op.qp = 0 → op.obj.toNat % 256 = 0 →
    exec (.placementReport t k) s = .next (complete op .ok 0 (BitVec.ofNat 64 u.plc.nextNum) false
      (writeHost op.c.toNat (padTo 256 (summaryBytes u)) u))) ∧
  (∀ s t k op u, u = advance t s → Dispatched 0x64 k op u → Serving u → u.ready.counters = true → reportFields op = true →
    op.qp = 0 → op.obj.toNat % 256 = 2 →
    exec (.placementReport t k) s = .next (complete op .ok (BitVec.ofNat 64 (logPage u op.a.toNat).2)
      (BitVec.ofNat 64 u.plc.nextNum) false (writeHost op.c.toNat (padTo 256 (logPage u op.a.toNat).1) u)))

/-! ### HIF -/

/-- O13. A poll reads the 64 group words in ascending order, of each group that changed its tail words, and then serves the event
ring; TAIL_WORD_SCAN reads the tail words of the groups in turn. In a group whose word did not change the poll reads again the
tails that are out of range, and no other (R31, R32, R43, R52). -/
def Obligations.PollsReadTailWords : Prop :=
  (∀ s t hw u, u = advance t (hostWrites hw s) → polling u = true →
    exec (.poll t hw) s = .next (pollEvents (pollGroups 64 0 u))) ∧
  (∀ g u, readWord u (hoistBase u + 4 * g) ≠ nthOr 0 g u.hif.groupWords → wantsHeads (readTails g { u with
      hif := { u.hif with groupWords := modNth (fun _ => readWord u (hoistBase u + 4 * g)) g u.hif.groupWords } }) g = false →
    ∀ q ∈ (pollGroup g u).hif.qps, q.num / 64 = g → q.tail = readWord u (hoistBase u + 0x400 + 4 * q.num)) ∧
  (∀ g u, readWord u (hoistBase u + 4 * g) = nthOr 0 g u.hif.groupWords → wantsHeads (rereadTails g u) g = false →
    pollGroup g u = { u with hif := { u.hif with
      qps := u.hif.qps.map fun (q : Qp) =>
        if q.num / 64 == g && tailOut q then { q with tail := readWord u (hoistBase u + 0x400 + 4 * q.num) } else q } }) ∧
  (∀ s t hw u, u = advance t (hostWrites hw s) → polling u = true →
    exec (.tailWordScan t hw) s = .next
      { readTails u.hif.scanGroup u with hif := { (readTails u.hif.scanGroup u).hif with
          scanGroup := ((readTails u.hif.scanGroup u).hif.scanGroup + 1) % 64 } })

/-- O14. A poll that finds no group word changed, no tail out of range, no head word wanted and no event ring reads no tail word
and changes nothing but the clock and host memory (R31, R32). -/
def Obligations.UnchangedGroupWordsReadNoTails : Prop :=
  ∀ s t hw u, u = advance t (hostWrites hw s) →
    (∀ g, g < 64 → readWord u (hoistBase u + 4 * g) = nthOr 0 g u.hif.groupWords) →
    (∀ q ∈ u.hif.qps, tailOut q = false) → (∀ g, g < 64 → wantsHeads u g = false) → u.ev.ring = none →
    exec (.poll t hw) s = .next u

/-- O15. DESCRIPTOR_FETCH reads the descriptors that its rules give from one QP, spending its class's credit and its own deficit;
FENCE_DISPATCH lets the held operations go that stand before the next FENCE (R42, R45, R47). -/
def Obligations.FetchAndFenceComplete : Prop :=
  (∀ s t hw credits q u w, u = advance t (hostWrites hw s) → s.hif.linkUp = true → nextFetch u = some (credits, q) →
    w = modQp q.num (fun x => { x with
      deficit := if announced x = fetchCount credits q u then 0 else visitDeficit q u - fetchCount credits q u }) u →
    exec (.descriptorFetch t hw) s = .next (takeDescriptors (fetchCount credits q u) false q.num
      { w with hif := { w.hif with credits := modNth (fun x => x - fetchCount credits q u) q.cls credits
                                   visited := modNth (fun _ => q.num) q.cls u.hif.visited } })) ∧
  (∀ s t q u ids, u = advance t s → fenceDispatchable u q = true →
    ids = releaseHeld true ((qpOps u q).filter fun op => decide (op.st = .held)) →
    exec (.fenceDispatch t q) s = .next { u with hif := { u.hif with
      ops := modWhere (fun op => ids.contains op.id) (fun op => { op with st := .ready }) u.hif.ops } })

/-- O16. A failed descriptor read stops its QP and goes to advanced error reporting; a failed hoist read has no effect; a
coalescing time that has passed sends the vector's message; a HIF reset puts HIF and its registers back; the link comes up and the
event ring takes what is kept for it (R58, R50, R55, R305). -/
def Obligations.HifHappeningsComplete : Prop :=
  (∀ s t credits q u, u = advance t s → s.hif.linkUp = true → nextFetch u = some (credits, q) →
    exec (.descriptorReadFail t) s = .next { modQp q.num (fun q => { q with stopped := true }) u with
      out := { u.out with aer := q.num :: u.out.aer } }) ∧
  (∀ s t, exec (.hoistReadFail t) s = .next (advance t s)) ∧
  (∀ s t n q u, u = advance t s → findQp u n = some q → q.unsignalled ≠ 0 → q.oldest + 1024 * q.coalTime ≤ u.clk.now →
    exec (.coalescingTime t (some n)) s =
      .next (sendMsix q.vector (modQp n (fun q => { q with unsignalled := 0 }) u))) ∧
  (∀ s t u, u = advance t s → u.ev.unsignalled ≠ 0 →
    u.ev.oldest + 1024 * bitsOf u.regs.msixCfg.toNat 16 16 ≤ u.clk.now →
    exec (.coalescingTime t none) s =
      .next (sendMsix (bitsOf u.regs.msixCfg.toNat 0 6) { u with ev := { u.ev with unsignalled := 0 } })) ∧
  (∀ s t down, exec (.hifReset t down) s = .next (background (resetHif down (advance t s)))) ∧
  (∀ s t u, u = advance t s → u.ready.sramInit = true →
    exec (.linkUp t) s = .next (drainEvents { u with hif := { u.hif with linkUp := true } }))

/-- O17. A wait ends at its limit: an energy wait 1 ms after it began, a splice at its deadline with the units still missing, a
wait for fresh entropy 10 ms after it began, each with its status; a fault window 2^20 CLK after it opened, with its event. Before
that the same commands leave all but the clock (R88, R192, R282, R199). -/
def Obligations.WaitsEndAtTheirLimitsOnly : Prop :=
  (∀ s t k op since u, u = advance t s → findOp u k = some op → op.st = .energy since → since + oneMs ≤ u.clk.now →
    exec (.energyWaitTimeout t k) s = .next (background (complete op .energyWaitTimeout 0 0 false u))) ∧
  (∀ s t k op deadline u, u = advance t s → findOp u k = some op → op.st = .splice deadline → deadline ≤ u.clk.now →
    exec (.spliceTimeout t k) s = .next (background (complete op .spliceTimeout
      ((kidOf u (kidNumber op)).mask &&& ~~~op.a) 0 false u))) ∧
  (∀ s t k op since u, u = advance t s → findOp u k = some op → op.st = .random since → since + tenMs ≤ u.clk.now →
    exec (.randomWaitTimeout t k) s = .next (background (complete op .randomWaitTimeout 0 0 false u))) ∧
  (∀ s t w rest u, u = advance t s → u.kit.windows = w :: rest → w.opened + 2 ^ 20 ≤ u.clk.now → w.overflow = false →
    exec (.faultStorm t) s = .next (postEvent .faultStorm w.peer.toNat
      (leBytes 1 w.cause ++ leBytes 1 w.domain ++ leBytes 2 (saturate w.reports 65535) ++
        leBytes 4 (saturate w.sum (2 ^ 32 - 1)) ++ leBytes 4 w.first.toNat ++ leBytes 4 w.last.toNat)
      { u with kit := { u.kit with windows := u.kit.windows.filter fun x => decide (x ≠ w) } })) ∧
  (∀ s t k op since u, u = advance t s → findOp u k = some op → op.st = .energy since → u.clk.now < since + oneMs →
    exec (.energyWaitTimeout t k) s = .next u) ∧
  (∀ s t k op deadline u, u = advance t s → findOp u k = some op → op.st = .splice deadline → u.clk.now < deadline →
    exec (.spliceTimeout t k) s = .next u) ∧
  (∀ s t k op since u, u = advance t s → findOp u k = some op → op.st = .random since → u.clk.now < since + tenMs →
    exec (.randomWaitTimeout t k) s = .next u) ∧
  (∀ s t w rest u, u = advance t s → u.kit.windows = w :: rest → u.clk.now < w.opened + 2 ^ 20 →
    exec (.faultStorm t) s = .next u)

/-! ### BAR0 -/

/-- O18. Accepted writes of the setup registers: each takes the value written, ADMIN_SIZES creates QP 0, EVENT_RING_SIZE with
ENABLE sets up the ring, a base pair takes effect with its HI half, SETUP_ERROR is cleared by writing 1 (R353, R355-R357, R360,
R364). -/
def Obligations.SetupRegisterWritesComplete : Prop :=
  (∀ s t v u, u = advance t s → barReachable u = true → isRefused u 0x018 v = false → v.getLsbD 10 = true →
    exec (.statusSetupErrorClear t v) s = .next { u with regs := { u.regs with setupError := false } }) ∧
  (∀ s t (v : W64) u, u = advance t s → barReachable u = true → isRefused u 0x020 (BitVec.truncate 32 v) = false →
    isRefused u 0x024 (BitVec.truncate 32 (v >>> 32)) = false →
    exec (.basePairWrite t 0x020 true v) s = .next { u with regs := { u.regs with
      hoist := ⟨BitVec.truncate 32 v, BitVec.truncate 32 (v >>> 32), some v⟩ } }) ∧
  (∀ s t (v : W64) u, u = advance t s → barReachable u = true → isRefused u 0x048 (BitVec.truncate 32 v) = false →
    exec (.basePairWrite t 0x048 false v) s = .next { u with regs := { u.regs with
      eventRing := ⟨u.regs.eventRing.lo, BitVec.truncate 32 v,
        some (BitVec.ofNat 64 (u.regs.eventRing.lo.toNat + 2 ^ 32 * (BitVec.truncate 32 v : W32).toNat))⟩ } }) ∧
  (∀ s t v u, u = advance t s → barReachable u = true → isRefused u 0x040 v = false →
    exec (.adminSizesWrite t v) s = .next { u with
      regs := { u.regs with adminSizes := v }
      hif := { u.hif with qps := insertBy (fun q => q.num) (adminQp u v) u.hif.qps } }) ∧
  (∀ s t v u, u = advance t s → barReachable u = true → isRefused u 0x04C v = false →
    exec (.eventRingSizeWrite t v) s = .next (if v.getLsbD 4 then drainEvents { u with
        regs := { u.regs with eventSize := v }
        ev := { u.ev with ring := some (effOf u.regs.eventRing, 2 ^ (6 + bitsOf v.toNat 0 4)) } }
      else { u with regs := { u.regs with eventSize := v } })) ∧
  (∀ s t v u, u = advance t s → barReachable u = true → isRefused u 0x050 v = false →
    exec (.pollPeriodWrite t v) s = .next { u with regs := { u.regs with pollPeriod := v } }) ∧
  (∀ s t v u, u = advance t s → barReachable u = true → isRefused u 0x054 v = false →
    exec (.msixCfgWrite t v) s = .next { u with regs := { u.regs with msixCfg := v } }) ∧
  (∀ s t v u, u = advance t s → barReachable u = true → isRefused u 0x06C v = false →
    exec (.halyardCfgWrite t v) s = .next { u with regs := { u.regs with halyardCfg := v } }) ∧
  (∀ s t (v : W64) u, u = advance t s → barReachable u = true →
    exec (.registerWrite t 0x07C 4 v) s = .next { u with regs := { u.regs with scratch := BitVec.truncate 32 v } })

/-- O19. Writes that act on the part: CTRL with its key asks for a device reset, the monitor thresholds take effect and judge the
two levels, the port enables switch their ports, DEBUG_LOCK with its key and TAP_UNLOCK ask for the unlock (R355, R362, R363,
R340). -/
def Obligations.ActingRegisterWritesComplete : Prop :=
  (∀ s t v u, u = advance t s → barReachable u = true → isRefused u 0x014 v = false → v.getLsbD 0 = true →
    exec (.ctrlSoftReset t v) s = .next (requestReset 3 u)) ∧
  (∀ s t v x y u, u = advance t s → barReachable u = true →
    exec (.monThreshWrite t false v [x, y]) s =
      .next (monitorAt 1 y (monitorAt 0 x { u with regs := { u.regs with monA := v } }))) ∧
  (∀ s t v x y u, u = advance t s → barReachable u = true →
    exec (.monThreshWrite t true v [x, y]) s =
      .next (monitorAt 3 y (monitorAt 2 x { u with regs := { u.regs with monB := v } }))) ∧
  (∀ s t v u w, u = advance t s → barReachable u = true → w = { u with regs := { u.regs with portLo := v } } →
    exec (.portEnableWrite t false v) s = .next (background (serveAll ((List.range 48).foldl
      (fun x p => portSwitched x p (portEnabled u p) (portEnabled w p)) w)))) ∧
  (∀ s t v u, u = advance t s → barReachable u = true → isRefused u 0x078 v = false → v.getLsbD 1 = true →
    exec (.debugLockUnlock t v) s = .next (requestUnlock u)) ∧
  (∀ s t u, u = advance t s → inSafe u = true → u.regs.locked = true → u.regs.unlockReq = false → u.flush.why = .none →
    exec (.tapUnlock t) s = .next (beginFlush .debug none { u with regs := { u.regs with unlockReq := true } }))

/-- O20. A refused write, and a write narrower than 32 bits, change nothing but STATUS.SETUP_ERROR; while BAR0 cannot be reached
no write has an effect (R351, R353). -/
def Obligations.RefusedWritesSetSetupError : Prop :=
  (∀ s t offset (v : W64) u, u = advance t s → barReachable u = true → offset % 4 = 0 →
    isRefused u offset (BitVec.truncate 32 v) = true →
    exec (.registerWrite t offset 4 v) s = .next { u with regs := { u.regs with setupError := true } }) ∧
  (∀ s t offset width v u, u = advance t s → barReachable u = true → 0 < width → width < 4 →
    exec (.registerWrite t offset width v) s = .next { u with regs := { u.regs with setupError := true } }) ∧
  (∀ s t offset width v, barReachable (advance t s) = false →
    exec (.registerWrite t offset width v) s = .next (advance t s))

/-- O21. TIME_LO captures device time for its requester and returns the lower half, or all of it in a 64-bit read; TIME_HI returns
the captured upper half where the requester's last read was of TIME_LO, else the current one (R15, R365). -/
def Obligations.TimeReadsComplete : Prop :=
  (∀ s t r wide u, u = advance t s → barReachable u = true →
    exec (.timeLoRead t r wide) s = .next { u with clk := { u.clk with
      captures := (r, timeWord u) :: u.clk.captures.filter (fun x => x.1 != r)
      readData := if wide then timeWord u else timeWord u &&& 0xFFFFFFFF } }) ∧
  (∀ s t r word u, u = advance t s → barReachable u = true → (u.clk.captures.find? fun x => x.1 == r) = some (r, word) →
    exec (.timeHiRead t r false) s = .next { u with clk := { u.clk with
      captures := u.clk.captures.filter (fun x => x.1 != r), readData := word >>> 32 } }) ∧
  (∀ s t r u, u = advance t s → barReachable u = true → (u.clk.captures.find? fun x => x.1 == r) = none →
    exec (.timeHiRead t r false) s = .next { u with clk := { u.clk with
      captures := u.clk.captures.filter (fun x => x.1 != r), readData := timeWord u >>> 32 } }) ∧
  (∀ s t r u, u = advance t s → barReachable u = true →
    exec (.timeHiRead t r true) s = .next { u with clk := { u.clk with
      captures := u.clk.captures.filter (fun x => x.1 != r), readData := timeWord u >>> 32 } })

/-- O22. A read of TIME_LO and the read of TIME_HI that follows it give the two halves of one instant, however much time passes
between them (R15). -/
def Obligations.TimeHalvesAreOfOneInstant : Prop :=
  ∀ s t r u t', u = advance t s → barReachable u = true → ∃ v w,
    exec (.timeLoRead t r false) s = .next v ∧ exec (.timeHiRead t' r false) v = .next w ∧
    v.clk.readData = timeWord u &&& 0xFFFFFFFF ∧ w.clk.readData = timeWord u >>> 32

/-! ### Journal, placement, time -/

/-- O23. A verified slot of a record that has more is followed by the record's next slot; the last slot of copy A makes the record
wait for copy B; the last of copy B, or of a record in one copy, makes it written; the last of a copy forward moves its record. A
slot that fails program-verify holds nothing, and its record starts again in a fresh sector ahead of the others; the second
failure in a sector begins to empty it (R98, R107, R109, R110, R117, R120). -/
def Obligations.SlotProgramsComplete : Prop :=
  (∀ s t bank p u v, u = advance t s → (u.jrn.progs.find? fun p => p.bank == bank) = some p → p.done + 1 < recSlots p.record →
    v = { u with jrn := { u.jrn with
      progs := (u.jrn.progs.filter fun x => x.bank != bank) ++ [{ p with done := p.done + 1 }]
      flash := u.jrn.flash ++ [⟨p.bank, p.sector, p.slot + p.done, some (((recBytes p.record).drop (32 * p.done)).take 32)⟩] } } →
    exec (.slotProgramVerify t bank true) s = .next (background (fitWritten (endCatchUp (returnEmptied (pump v)))))) ∧
  (∀ s t bank p u v w, u = advance t s → (u.jrn.progs.find? fun p => p.bank == bank) = some p →
    recSlots p.record ≤ p.done + 1 →
    v = { u with jrn := { u.jrn with
      progs := u.jrn.progs.filter fun x => x.bank != bank
      flash := u.jrn.flash ++ [⟨p.bank, p.sector, p.slot + p.done, some (((recBytes p.record).drop (32 * p.done)).take 32)⟩]
      insts := u.jrn.insts ++ [⟨decide (2 ≤ p.bank), p.bank, p.sector, p.slot, p.record⟩] } } →
    w = countSlots p.write.rank p.record.typ (recSlots p.record) v →
    (isCopying p.write.what = false → p.bank < 2 → p.record.single = false →
      exec (.slotProgramVerify t bank true) s = .next (background (fitWritten (endCatchUp (returnEmptied (pump { w with
        jrn := { w.jrn with waiting := w.jrn.waiting ++ [⟨p.write, p.record, true, false⟩] } })))))) ∧
    (isCopying p.write.what = false → (2 ≤ p.bank ∨ p.record.single = true) →
      exec (.slotProgramVerify t bank true) s = .next (background (fitWritten (endCatchUp (returnEmptied (pump
        (tendEmptying (recordWritten p.record.single p.write p.record w)))))))) ∧
    (isCopying p.write.what = true →
      exec (.slotProgramVerify t bank true) s = .next (background (fitWritten (endCatchUp (returnEmptied (pump
        (tendEmptying (noteFirst p w)))))))))  ∧
  (∀ s t bank p u v x, u = advance t s → (u.jrn.progs.find? fun p => p.bank == bank) = some p →
    v = modSector p.bank p.sector (fun x => { x with failures := x.failures + 1 }) { u with jrn := { u.jrn with
      progs := u.jrn.progs.filter fun x => x.bank != bank
      flash := u.jrn.flash ++ [⟨p.bank, p.sector, p.slot + p.done, none⟩]
      waiting := ⟨p.write, p.record, decide (2 ≤ p.bank), true⟩ :: u.jrn.waiting } } →
    findSector v p.bank p.sector = some x →
    exec (.slotProgramVerify t bank false) s = .next (background (fitWritten (endCatchUp (returnEmptied (pump
      (if x.failures = 2 then startEmptying ⟨p.bank, p.sector, true, 6, none, none⟩ v else v)))))))

/-- O24. A sector whose erase succeeds within 20 ms is erased with its count raised by 1; one whose erase fails or takes longer is
retired, and one whose erase failed can no longer be read (R105, R117, R120). -/
def Obligations.SectorErasesComplete : Prop :=
  (∀ s t bank idx duration x u v, u = advance t s → findSector u bank idx = some x → x.st = .erasing →
    1000 * duration ≤ 20 * second → (∀ r, u.mnt.running = some r → r.req.kind ≠ 2) →
    v = { u with jrn := { u.jrn with eraseTimes := (u.jrn.eraseTimes.1 + 1, u.jrn.eraseTimes.2 + duration / 2 ^ 14) } } →
    exec (.sectorEraseDone t bank idx true duration) s = .next (background (modSector bank idx (fun y => { y with
      st := .erased, erases := min (2 ^ 32 - 1) (y.erases + 1), eraseTime := saturate (duration / 2 ^ 14) 65535
      next := 1, shut := false, failures := 0, corrected := 0, weak := 0 }) v))) ∧
  (∀ s t bank idx duration x u v, u = advance t s → findSector u bank idx = some x → x.st = .erasing →
    20 * second < 1000 * duration →
    v = { u with jrn := { u.jrn with eraseTimes := (u.jrn.eraseTimes.1 + 1, u.jrn.eraseTimes.2 + duration / 2 ^ 14) } } →
    exec (.sectorEraseDone t bank idx true duration) s =
      .next (background (retireSector bank idx (modSector bank idx (erasedNow duration) v)))) ∧
  (∀ s t bank idx duration x u v, u = advance t s → findSector u bank idx = some x → x.st = .erasing →
    v = { u with jrn := { u.jrn with
      eraseTimes := (u.jrn.eraseTimes.1 + 1, u.jrn.eraseTimes.2 + duration / 2 ^ 14), flash := u.jrn.flash ++ [⟨bank, idx, 0, none⟩] } } →
    exec (.sectorEraseDone t bank idx false duration) s = .next (background (retireSector bank idx v)))

/-- O25. A placement window gives every counter and group its new rate (7/8 of the old, 1/8 of the window's) and every engine the
loads of the window, then balances: with class 0 loads more than 524,288 operations/s apart for the fourth window, the group that
best closes the gap moves and code 0x07 is logged, and the same for total load while class 0 is not so. A ceiling step update
counts the groups whose live maximum rose within 2^36 CLK and gives each of them its step, the least power of two from 2^16 to
2^56 not below rate × w × max(60, N/10). A scrub counts its corrections, and repairs the words it could not correct (R159, R160,
R166, R172, R173, R174, R179). -/
def Obligations.PlacementUpdatesComplete : Prop :=
  (∀ s t u v w, u = advance t s → u.ready.counters = true →
    v = { u with ctr := { u.ctr with
      groups := u.ctr.groups.map fun (g : Group) => { g with
        rate := (7 * g.rate + 64 * g.windowRise) / 8, windowRise := 0
        lastOps := g.windowOps, lastOps0 := g.windowOps0, windowOps := 0, windowOps0 := 0 }
      engines := u.ctr.engines.map fun (e : Engine) => { e with load := 64 * e.ops, load0 := 64 * e.ops0, ops := 0, ops0 := 0 } } } →
    w = { v with
      ctr := { v.ctr with leaves := v.ctr.leaves.map fun (l : Leaf) => { l with
        rate := (7 * l.rate + 64 * l.windowRise) / 8, windowRise := 0
        slowWindows := if l.cls = .loose ∧ (v.ctr.groups.any fun g =>
          decide (findGroup v l.group = some g ∧ 16 * ((7 * l.rate + 64 * l.windowRise) / 8) < g.rate)) = true
          then l.slowWindows + 1 else 0 } }
      mnt := { v.mnt with load := sumOf (fun e => e.load) v.ctr.engines } } →
    exec (.placementWindow t) s = .next (background (noteDrains (watchDrain (balance w))))) ∧
  (∀ u v high low gap g, (loadPair u fun e => e.load0) = some (high, low, gap) → 524288 < gap → 3 ≤ u.ctr.gapWindows0 →
    v = { u with ctr := { u.ctr with
      gapWindows0 := u.ctr.gapWindows0 + 1
      gapWindows := if farApart (loadPair u fun e => e.load) then u.ctr.gapWindows + 1 else 0 } } →
    minBy (fun g => distance gap (2 * 64 * g.lastOps0))
      (u.ctr.groups.filter fun g => g.engine == high && decide (g.lastOps0 ≠ 0) && groupQuiet v g.num) = some g →
    balance u = logDecision 0x07 g.num (engineOf v g.num) low gap (modGroup g.num (fun x => { x with engine := low }) v)) ∧
  (∀ u v high low gap g, farApart (loadPair u fun e => e.load0) = false →
    (loadPair u fun e => e.load) = some (high, low, gap) → 524288 < gap → 3 ≤ u.ctr.gapWindows →
    v = { u with ctr := { u.ctr with gapWindows0 := 0, gapWindows := u.ctr.gapWindows + 1 } } →
    minBy (fun g => distance gap (2 * 64 * g.lastOps))
      (u.ctr.groups.filter fun g => g.engine == high && decide (g.lastOps ≠ 0) && groupQuiet v g.num) = some g →
    balance u = logDecision 0x07 g.num (engineOf v g.num) low gap (modGroup g.num (fun x => { x with engine := low }) v)) ∧
  (∀ u, farApart (loadPair u fun e => e.load0) = false → farApart (loadPair u fun e => e.load) = false →
    balance u = { u with ctr := { u.ctr with gapWindows0 := 0, gapWindows := 0 } }) ∧
  (∀ s t u n, u = advance t s → u.ready.counters = true →
    n = (u.ctr.groups.filter fun g => match g.roseAt with
      | some t => decide (u.clk.now ≤ t + 2 ^ 36)
      | none => false).length →
    exec (.ceilingStepUpdate t) s = .next (background (u.ctr.groups.foldl (setStep n)
      { u with plc := { u.plc with active := n, period := u.plc.wear * max 600 n / 10 } }))) ∧
  (∀ n u g step, isActive u g = true → step = stepFor g.rate u.plc.wear n → step ≠ g.step →
    setStep n u g = scheduleCeiling g.num (logDecision 0x0A g.num (Nat.log2 g.step) (Nat.log2 step) g.rate
      (modGroup g.num (fun x => { x with step := step }) u))) ∧
  (∀ n u g, isActive u g = false → setStep n u g = u) ∧
  (∀ rate wear n, ∃ k, stepFor rate wear n = 2 ^ k ∧ 16 ≤ k ∧ k ≤ 56 ∧
    (rate * wear * max 600 n ≤ 10 * 2 ^ k ∨ k = 56) ∧ (10 * 2 ^ (k - 1) < rate * wear * max 600 n ∨ k = 16)) ∧
  (∀ s t corrected u, u = advance t s → u.ready.counters = true →
    exec (.cttScrub t corrected []) s = .next (background
      { u with ctr := { u.ctr with corrected := u.ctr.corrected + corrected } })) ∧
  (∀ s t corrected bad u, u = advance t s → u.ready.counters = true →
    exec (.cttScrub t corrected bad) s = .next (background (repairOrSafe bad
      { u with ctr := { u.ctr with corrected := u.ctr.corrected + corrected } })))

/-- O26. A LOOSE counter that has been slow for 8 windows and has rested moves to the group of similar rate whose live maximum
lies closest, if its value form is admitted; under pressure the uncovered BOUNDED counters are taken in ascending number: the
first that can move does, or has a group opened for it, and the next one's turn comes while it cannot (R169, R170, R171). -/
def Obligations.CounterMovesComplete : Prop :=
  (∀ s t n l g u, u = advance t s → findLeaf u n = some l → l.closed = false → l.cls = .loose → 8 ≤ l.slowWindows →
    (∀ m, l.movedAt = some m → m + 2 ^ 36 ≤ u.clk.now) → counterQuiet u n = true →
    Admitted ⟨slotsNeeded (.leaf n false) u, 0, true⟩ u → looseRoom u = true → inSafe u = false → looseTarget u l = some g →
    exec (.looseMove t n) s = .next (background (moveLeaf l g.num 0x04 false { u with plc := { u.plc with
      looseMoves := if u.plc.looseSecond = u.clk.now / second then u.plc.looseMoves + 1 else 1
      looseSecond := u.clk.now / second } }))) ∧
  (∀ s t l rest g u, u = advance t s → boundedPressed u = true → u.owed.frozen = false → inSafe u = false →
    uncoveredLeaves u = l :: rest → counterQuiet u l.num = true → moveAdmitted u l.num = true → boundedTarget u l = some g →
    exec (.boundedMove t) s = .next (background (moveLeaf l g.num 0x05 false u))) ∧
  (∀ s t l rest g u, u = advance t s → boundedPressed u = true → u.owed.frozen = false → inSafe u = false →
    uncoveredLeaves u = l :: rest → counterQuiet u l.num = true → moveAdmitted u l.num = true → boundedTarget u l = none →
    waitingGroup u l.num l.v.toNat = none → emptyGroup u = some g →
    exec (.boundedMove t) s = .next (background (queueCeiling g (l.v.toNat + firstStep)
      (modGroup g (fun x => { x with forMove := some l.num }) (openGroup g l.domain 0 u))))) ∧
  (∀ l rest u, counterQuiet u l.num = false ∨ moveAdmitted u l.num = false ∨
      boundedTarget u l = none ∧ (waitingGroup u l.num l.v.toNat ≠ none ∨ emptyGroup u = none) →
    moveFirst (l :: rest) u = moveFirst rest u)

/-- O27. Each 2^30 CLK of device time a powered-on second falls due and is counted once its place is admitted; every 3,600 of them
the calendar's record is queued; each 86,400 of them a daily is collected (R391, R308, R315). -/
def Obligations.SecondsAndDailiesComplete : Prop :=
  (∀ s t u v, u = advance t s → u.clk.running = true → u.int.nextDue ≤ u.clk.now → u.pmu.shutdown = false →
    u.pmu.phase = .running →
    v = { u with int := { u.int with nextDue := u.int.nextDue + second, pending := u.int.pending + 1 } } →
    Admitted ⟨slotsNeeded .posec v, 0, true⟩ v →
    exec (.poweredOnSecond t) s = .next (background (rebuildSweepList (owe .posec { v with
      int := { v.int with posec := u.int.posec + (u.int.pending + 1), pending := 0 } })))) ∧
  (∀ s t u, u = advance t s → u.ready.journal = true → u.int.calRecordAt + 3600 ≤ u.int.posec →
    exec (.calendarRecord t) s = .next (background (queueWrite 4 (.config 0x300) u))) ∧
  (∀ s t m u v, u = advance t s → u.pmu.phase = .running → u.hmu.nextDaily ≤ u.int.posec →
    v = endDay { u with hmu := { u.hmu with nextDaily := (u.int.posec / 86400 + 1) * 86400 } } →
    v.pmu.power = .normal → inSafe v = false → v.pmu.shutdown = false →
    exec (.dailyCollection t m) s = .next (background (collectDaily m v)))

/-! ### Maintenance -/

/-- O28. The first CAP_MEASURE is queued when it is due; the arbiter starts the request at the head of its queue where nothing
runs; a drained block's test begins; a BIST_BLOCK that could not start for 60 s ends with result 4 (R142, R332, R173). -/
def Obligations.MaintenanceStartsComplete : Prop :=
  (∀ s t due u, u = advance t s → u.hmu.capFirst = some due → due ≤ u.clk.now →
    exec (.capMeasureFirst t) s = .next (queueInternal 4 0 false { u with hmu := { u.hmu with capFirst := none } })) ∧
  (∀ s t m rest u, u = advance t s → u.mnt.running = none → u.flush.why = .none → inSafe u = false → u.pmu.shutdown = false →
    u.mnt.queue = m :: rest → mayRun m u = true → (m.kind = 1 → drainReady u m.block = true) →
    exec (.maintActivityStart t) s =
      .next (background (startActivity m { u with mnt := { u.mnt with queue := rest } }))) ∧
  (∀ s t r u, u = advance t s → u.mnt.running = some r → r.req.kind = 1 → r.test = none → isDrained r.req.block u = true →
    exec (.blockDrained t) s = .next { u with mnt := { u.mnt with
      running := some { r with test := some ⟨u.clk.now, u.int.posec, calendar u, u.pmu.vin⟩ } } }) ∧
  (∀ s t m rest since u, u = advance t s → u.mnt.queue = m :: rest → m.kind = 1 → m.turn = some since →
    since + 60 * second ≤ u.clk.now →
    exec (.bistBlockDeferred t) s = .next (postDone m since 4 0
      { u with mnt := { u.mnt with queue := u.mnt.queue.filter fun x => decide (x ≠ m) } }))

/-- O29. A tested counter engine returns to service with MAINT_DONE where its test passed; where it failed it stays out, with a
BIST_RESULT record; draws and gaps of CAP_MEASURE follow each other; a slice of COMPACT begins to empty its source sector, and a
sector that is emptied is erased; the scan of the next sector notes its weak cells and, where nothing asks for a refresh, clears
its count of corrections, else the sector is emptied for the reason it has; the activity ends when no sector and no refresh is
left (R331, R335, R142, R117, R119, R122). -/
def Obligations.MaintenanceStepsFollow : Prop :=
  (∀ s t peak unreadable r start u, u = advance t s → u.mnt.running = some r → r.test = some start → r.req.kind = 1 →
    r.catching = false → r.req.block < 4 →
    exec (.bistBlockDone t 0 peak unreadable) s =
      .next (background (maintDone r.req r.started 0 0 (returnBlock r.req.block 0 u)))) ∧
  (∀ s t step peak unreadable r start u, u = advance t s → u.mnt.running = some r → r.test = some start → r.req.kind = 1 →
    r.catching = false → r.req.block < 4 → step ≠ 0 →
    exec (.bistBlockDone t step peak unreadable) s = .next (background (maintDone r.req r.started 1 step (queueWrite 4
      (.bist u.jrn.session (bistPayload 1 2 1 [] [step] 0 unreadable start ((u.clk.now - start.at_) / 1024) peak 0))
      (keepOut r.req.block u))))) ∧
  (∀ s t fall step r u, u = advance t s → u.mnt.running = some r → r.req.kind = 4 → r.drawing = true →
    exec (.capMeasureDrawEnd t fall step) s = .next (background { u with
      pmu := { u.pmu with drawing := false }
      mnt := { u.mnt with running := some { r with
        draws := r.draws + 1, drawing := false, falls := r.falls + fall, steps := r.steps + step } } })) ∧
  (∀ s t r u, u = advance t s → u.mnt.running = some r → r.req.kind = 4 → r.drawing = false → 1 ≤ r.draws → r.draws < 4 →
    exec (.capMeasureGapEnd t) s = .next { u with
      mnt := { u.mnt with running := some { r with drawing := true } }, pmu := { u.pmu with drawing := true } }) ∧
  (∀ s t reads r copyB x u seen, u = advance t s → runningCompact u = some (r, copyB) → copyBusy u copyB = false →
    compactOver u copyB = false → (r.req.forced = true ∨ writesWait u = false) → compactSource u copyB = some x →
    seen = reads.filter (fun y => y.bank == x.bank && y.sector == x.idx) →
    exec (.compactSlice t reads) s = .next (background (startEmptying
      ⟨x.bank, x.idx, false, if r.req.forced then 2 else 6, none, none⟩ (loseUnreadable seen false (countCorrected seen u))))) ∧
  (∀ s t bank idx weak r x u v, u = advance t s → u.mnt.running = some r → findSector u bank idx = some x →
    r.req.kind = 3 → (scanLeft 4 0 r.left u).head? = some (bank, idx) → bankIdle u bank = true → writesWait u = false →
    refreshAction u x weak = none →
    v = modSector bank idx (fun y => { y with weak := weak, corrected := 0 })
      { u with jrn := { u.jrn with weakMax := max u.jrn.weakMax weak } } →
    exec (.refreshScanSector t bank idx weak []) s = .next (background (endScan
      { v with mnt := { v.mnt with running := some { r with left := scanLeft bank idx r.left v } } }))) ∧
  (∀ s t bank idx weak reason r x u v, u = advance t s → u.mnt.running = some r → findSector u bank idx = some x →
    r.req.kind = 3 → (scanLeft 4 0 r.left u).head? = some (bank, idx) → bankIdle u bank = true → writesWait u = false →
    refreshAction u x weak = some reason →
    v = modSector bank idx (fun y => { y with weak := weak })
      { u with jrn := { u.jrn with weakMax := max u.jrn.weakMax weak } } →
    exec (.refreshScanSector t bank idx weak []) s = .next (background (endScan
      (startEmptying ⟨bank, idx, decide (reason = 3), 6, some (weak, x.corrected, reason), none⟩
        { v with mnt := { v.mnt with running := some { r with left := scanLeft bank idx r.left v } } })))) ∧
  (∀ e u, isEmptied u e.bank e.sector = true → e.refresh = none → e.retire = false →
    tendOne u e = modSector e.bank e.sector (fun x => { x with st := .erasing }) (dropSector e.bank e.sector
      { u with jrn := { u.jrn with
        emptying := u.jrn.emptying.filter fun x => !(x.bank == e.bank && x.sector == e.sector) } })) ∧
  (∀ r u, u.mnt.running = some r → r.req.kind = 3 → scanLeft 4 0 r.left u = [] →
    (u.jrn.emptying.any fun e => e.refresh.isSome) = false → endScan u = maintDone r.req r.started 0 r.value u)

/-! ### Power, resets, clock -/

/-- O30. VIN below 10.2 V puts a NORMAL part into WARN with POWER_WARN; below 9.0 V a part in a session enters HOLDUP with
POWER_HOLDUP and begins its flush, and one that is still starting resets, one held in reset will report a supply loss; the last
record of a flush for a reset request is followed by that reset (R149, R150, R297, R298, R147). -/
def Obligations.PowerLossComplete : Prop :=
  (∀ s t vin vhold u v, u = advance t s → isAlive u = true → u.pmu.power = .normal → vin < 10200 →
    v = { u with pmu := { u.pmu with vin := vin, vhold := vhold, power := .warn, warnAt := u.clk.now } } →
    exec (.powerWarn t vin vhold) s =
      .next (pump (interruptBist (releaseStrict (warnMaint (postPower .powerWarn v)))))) ∧
  (∀ s t vin vhold u v, u = advance t s → u.pmu.phase = .running → u.pmu.power = .warn → vin < 9000 →
    v = interruptBist (postPower .powerHoldup { u with pmu := { u.pmu with
      vin := vin, vhold := vhold, chargerOn := false, power := .holdup, warnTime := u.clk.now - u.pmu.warnAt,
      holdupAt := u.clk.now, vinBack := false } }) →
    v.flush.why = .none → v.jrn.dead = false →
    exec (.powerHoldup t vin vhold) s = .next (beginFlush .holdup none v)) ∧
  (∀ s t vin vhold u, u = advance t s → u.pmu.phase ≠ .reset → u.pmu.phase ≠ .running → u.pmu.power ≠ .holdup → vin < 9000 →
    exec (.powerHoldup t vin vhold) s =
      .next (doReset 0 { u with pmu := { u.pmu with vin := vin, vhold := vhold, chargerOn := false } })) ∧
  (∀ s t vin vhold u v, u = advance t s → u.pmu.phase = .reset → u.pmu.power ≠ .holdup → vin < 9000 →
    v = { u with pmu := { u.pmu with vin := vin, vhold := vhold, chargerOn := false } } →
    exec (.powerHoldup t vin vhold) s = .next { v with regs := { v.regs with resetCause := 0 } }) ∧
  (∀ s t cause u v, u = advance t s → flushWritten u = true → (u.jrn.outA && u.jrn.outB) = false → u.pmu.phase = .running →
    u.flush.resetCause = some cause → tryWrite 1 .marker u = some v →
    exec (.flushComplete t) s = .next (doReset cause { v with flush := { v.flush with why := .none, marker := true } }))

/-- O31. VIN back above 10.5 V ends WARN with POWER_RESUMED; in HOLDUP the part notes it, recomputes its caps and resumes if it
can; VHOLD at 4.5 V in HOLDUP resets it; the charger stops at 11.0 V, restarts at 10.9 V and follows VIN (R150, R151, R289). -/
def Obligations.PowerReturnAndChargerComplete : Prop :=
  (∀ s t u, u = advance t s → u.pmu.power = .warn →
    exec (.vinWarningClear t) s = .next (postResumed (u.clk.now - u.pmu.warnAt) 0 0 0
      { u with pmu := { u.pmu with power := .normal } })) ∧
  (∀ s t vhold u, u = advance t s → u.pmu.power = .holdup →
    exec (.vinResume t vhold) s = .next (tryResume (recomputeCaps
      { u with pmu := { u.pmu with vinBack := true, vhold := vhold } }))) ∧
  (∀ s t u, u = advance t s → u.pmu.power = .holdup → exec (.vholdReset t) s = .next (doReset 0 u)) ∧
  (∀ s t u, u = advance t s → u.pmu.chargerOn = true → u.pmu.full = false → u.pmu.drawing = false → u.pmu.measured = true →
    exec (.vholdFull t) s = .next (checkBank (recomputeCaps
      { u with pmu := { u.pmu with full := true, reached := true, vhold := 11000 } }))) ∧
  (∀ s t u, u = advance t s → u.pmu.full = true →
    exec (.chargerRestart t) s = .next { u with pmu := { u.pmu with full := false, vhold := 10900 } }) ∧
  (∀ s t vin u, u = advance t s →
    exec (.chargerEnable t vin) s = .next { u with pmu := { u.pmu with
      vin := vin, chargerOn := decide (9000 ≤ vin), vinBack := u.pmu.vinBack && decide (10500 < vin) } })

/-- O32. A monitored level that leaves its window for the first time posts RAIL_FAULT with the level and the threshold it passed;
back inside it is noted; VIN above 13.2 V is such a level; a rail below its reset level resets the part at once with cause 5
(R290, R291, R293, R294, R295). -/
def Obligations.MonitorsComplete : Prop :=
  (∀ s t level field u, u = advance t s → isAlive u = true → field = bitsOf u.regs.monA.toNat 0 8 → field ≠ 0 →
    level < 5 * field → (∀ m ∈ u.pmu.outside, m.object ≠ 0) →
    exec (.monitorCrossing t 0 level) s = .next (postRail 0 level (5 * field) 0
      { u with pmu := { u.pmu with outside := u.pmu.outside ++ [⟨0, 0, none⟩] } })) ∧
  (∀ s t level u, u = advance t s → isAlive u = true → 760 ≤ level → level ≤ 840 →
    exec (.monitorCrossing t 0x10 level) s = .next { u with pmu := { u.pmu with
      outside := u.pmu.outside.map fun m =>
        if m.object == 0x10 && m.backAt.isNone then { m with backAt := some u.clk.now } else m } }) ∧
  (∀ s t vin u, u = advance t s → isAlive u = true → 13200 < vin → (∀ m ∈ u.pmu.outside, m.object ≠ 0x14) →
    exec (.vinOvervoltage t vin) s = .next (postRail 0x14 vin 13200 1
      { u with pmu := { u.pmu with vin := vin, outside := u.pmu.outside ++ [⟨0x14, 1, none⟩] } })) ∧
  (∀ s t object level u, u = advance t s → level < resetLevel object →
    exec (.internalRailReset t object level) s = .next (doReset 5 u))

/-- O33. RESET_N, a watchdog and a lockstep mismatch ask for a device reset: in a session with no flush under way one begins for
it, with its cause; with both pairs failed the reset is at once (R297, R298, R153). -/
def Obligations.ResetRequestsComplete : Prop :=
  (∀ s t u, u = advance t s → u.pmu.phase ≠ .reset →
    exec (.resetN t) s = .next (requestReset 1 { u with pmu := { u.pmu with resetLow := true } })) ∧
  (∀ s t pair u, u = advance t s → isAlive u = true → pair < 2 → u.pmu.failedPairs = [] →
    exec (.watchdog t pair) s = .next (requestReset 2 { u with pmu := { u.pmu with failedPairs := [pair] } })) ∧
  (∀ s t pair u, u = advance t s → isAlive u = true → pair < 2 → u.pmu.failedPairs = [] →
    exec (.lockstepMismatch t pair) s = .next (requestReset 4 { u with pmu := { u.pmu with failedPairs := [pair] } })) ∧
  (∀ s t pair u, u = advance t s → isAlive u = true → pair < 2 → u.pmu.failedPairs = [1 - pair] → u.flush.resetCause = none →
    exec (.watchdog t pair) s = .next (doReset 2 { u with pmu := { u.pmu with failedPairs := [pair, 1 - pair] } })) ∧
  (∀ cause u, u.pmu.phase = .running → u.jrn.dead = false → u.flush.why = .none → u.pmu.power ≠ .holdup →
    requestReset cause u = beginFlush .reset (some cause) { u with hmu := { u.hmu with bistRuns := false } })

/-- O34. The loss of the reference puts the clock into holdover with READY.PLL_LOCK cleared and CLOCK_REF_LOST; its return slews;
the relock ends holdover and sets READY.PLL_LOCK (R300). -/
def Obligations.ReferenceComplete : Prop :=
  (∀ s t u, u = advance t s → isAlive u = true → u.clk.refPresent = true →
    exec (.referenceLost t) s = .next (postEvent .clockRefLost 0 [] (setReady (fun y => { y with pllLock := false })
      { u with clk := { u.clk with
          refPresent := false, slewing := false, holdover := true, losses := min 255 (u.clk.losses + 1) } }))) ∧
  (∀ s t u, u = advance t s → isAlive u = true → u.clk.refPresent = false →
    exec (.referenceReturned t) s = .next { u with clk := { u.clk with refPresent := true, slewing := true } }) ∧
  (∀ s t u, u = advance t s → u.clk.slewing = true →
    exec (.relock t) s = .next (setReady (fun y => { y with pllLock := true })
      { u with clk := { u.clk with holdover := false, slewing := false } }))

/-- O35. The caps follow VHOLD: CAP_RECOMPUTE takes the level measured, ends a CAP_MEASURE that is due, sets the caps and lets
what waits for them go on (R140, R141, R142). -/
def Obligations.CapRecomputeCompletes : Prop :=
  ∀ s t vhold u, u = advance t s → isAlive u = true → u.pmu.measured = true →
    exec (.capRecompute t vhold) s = .next (background (firstDraw (tryResume (recomputeCaps
      (finishMeasure { u with pmu := { u.pmu with vhold := vhold } })))))

/-- O36. The certificate: b is the least of 36,864 and half the slot writes certified, r what b leaves over 4,097 and at most
32,767; the caps are 0 while r is below 2,048, else C_S is the least of 16,383 and half of r, and C_B the rest of r; READY.HOLDUP
is set from r = 2,048 on (R140, R141, R306). -/
def Obligations.CapsFollowTheCertificate : Prop :=
  ∀ u k, k = certifiedWrites u →
    (recomputeCaps u).owed.b = min 36864 (k / 2) ∧
    (recomputeCaps u).owed.r = min 32767 (min 36864 (k / 2) - 4097) ∧
    ((recomputeCaps u).owed.r < 2048 → (recomputeCaps u).owed.capS = 0 ∧ (recomputeCaps u).owed.capB = 0) ∧
    (2048 ≤ (recomputeCaps u).owed.r →
      (recomputeCaps u).owed.capS = min 16383 ((recomputeCaps u).owed.r / 2) ∧
      (recomputeCaps u).owed.capS + (recomputeCaps u).owed.capB = (recomputeCaps u).owed.r) ∧
    ((recomputeCaps u).ready.holdup = true ↔ 2048 ≤ (recomputeCaps u).owed.r)

/-! ### The start -/

/-- O37. The start up to replay: power good begins it, at PLL lock device time begins at 0, the boot code derives the part's keys
and chooses its image, or stops where the fuses fail; after calibration NSU settles and replay runs; the quick check draws and
sets C_meas and ESR_meas (R99, R299, R301, R302, R303, R312). -/
def Obligations.StartBeforeReplayCompletes : Prop :=
  (∀ s t vin vhold u, u = advance t s → u.pmu.phase = .reset → 10500 < vin → vhold < 10900 →
    exec (.start t vin vhold) s = .next { u with pmu := { u.pmu with
      phase := .clocking, vin := vin, vhold := vhold, chargerOn := true, resetLow := false, full := false, reached := false } }) ∧
  (∀ s t reads u w, u = advance t s → u.pmu.phase = .clocking →
    w = setReady (fun y => { y with pllLock := true }) { u with
      clk := { Clk.reset with running := true, refPresent := true }, int := { u.int with nextDue := second } } →
    exec (.pllLock t true reads) s = .next (setReady (fun y => { y with sramInit := true })
      (chooseImage reads (deriveKeys { w with pmu := { w.pmu with phase := .calibrating } })))) ∧
  (∀ s t reads u w, u = advance t s → u.pmu.phase = .clocking →
    w = setReady (fun y => { y with pllLock := true }) { u with
      clk := { Clk.reset with running := true, refPresent := true }, int := { u.int with nextDue := second } } →
    exec (.pllLock t false reads) s = .next { w with pmu := { w.pmu with phase := .halted } }) ∧
  (∀ s t u w, u = advance t s → u.pmu.phase = .calibrating → w = startNsu (setReady (fun y => { y with calib := true }) u) →
    inSafe w = false →
    exec (.calibrationDone t) s = .next { w with pmu := { w.pmu with phase := .replaying } }) ∧
  (∀ s t vhold u, u = advance t s → u.ready.calib = true → 2000 ≤ vhold → u.pmu.quickDone = false → u.pmu.drawing = false →
    exec (.quickCapacitanceCheck t vhold) s = .next { u with pmu := { u.pmu with drawing := true, vhold := vhold } }) ∧
  (∀ s t fall step vhold u, u = advance t s → u.pmu.drawing = true → u.pmu.quickDone = false → 0 < fall →
    exec (.quickCapacitanceCheckEnd t fall step vhold) s = .next (checkBank (recomputeCaps { u with pmu := { u.pmu with
      vhold := vhold, cMeas := 2 * 10 ^ 9 / fall, esrMeas := step / 100, measured := true, quickDone := true
      drawing := false } })))

/-- O38. The start from replay on: the current records are chosen and the units restored, a passed BIST and the rebuild follow,
and with READY.HOLDUP the session opens with what is queued and then SESSION_OPEN written first; while the bank is not up the
start reports it. The shutdown's self-test ends with its BIST_RESULT record, READY.SHUTDOWN_DONE and the completion of
SHUTDOWN_PREPARE (R111, R301, R329, R394, R395, R304, R323, R325). -/
def Obligations.StartFromReplayCompletesAndSelfTestsEnd : Prop :=
  (∀ s t reads found u v w x, u = advance t s → u.pmu.phase = .replaying → found = foundRecords reads u →
    v = (keysOf found).foldl (chooseCurrent reads found) { u with jrn := { u.jrn with
      insts := found, current := [], nextSeq := found.foldl (fun n i => max n (i.record.seq + 1)) u.jrn.nextSeq
      session := highestSession found } } →
    w = eraseInvalid (countCorrected reads (takeSectors reads v)) →
    x = restoreUnits reads { w with jrn := { w.jrn with outA := copyRetired w false, outB := copyRetired w true } } →
    journalLost x = false → (bistDecision x).1 ≠ 1 →
    exec (.journalReplayDone t reads) s = .next { x with pmu := { x.pmu with
      bistPlan := some (bistDecision x), bistFrom := none, phase := .rebuilding } }) ∧
  (∀ s t o b u v, u = advance t s → u.pmu.phase = .testing → u.pmu.bistFrom = some b → bistResult o = 0 → v = reinitSram u →
    exec (.startBistDone t o) s = .next { v with pmu := { v.pmu with
      phase := .rebuilding, bistStart := some (wholeBist 1 o b) } }) ∧
  (∀ s t u v w, u = advance t s → u.pmu.phase = .rebuilding → v = rebuildSram u →
    w = coverLeaves ((uncoveredLeaves v).map fun l => l.num) [] v →
    ∀ x, x = writeAll 4 (leafWrites (endingOf u) w.1 w.2 ++ internalWrites (endingOf u) u v) w.2 →
    exec (.treeRebuildDone t) s = .next { x with pmu := { x.pmu with phase := .waiting } }) ∧
  (∀ s t u v w, u = advance t s → u.pmu.phase = .waiting → u.ready.holdup = true → coverFits u = true →
    writeQueued (admitCover u) = some v →
    tryWrite 1 .session { v with jrn := { v.jrn with session := v.jrn.session + 1 } } = some w →
    exec (.startSessionOpen t) s = .next (beginSession (recordBist (postRecovery
      (setReady (fun y => { y with counters := true }) (setReady (fun y => { y with journal := true })
        { w with pmu := { w.pmu with phase := .running, ranBefore := true } })))))) ∧
  (∀ s t u, u = advance t s → isAlive u = true → u.pmu.reached = false → u.pmu.checkKind = none →
    exec (.holdupCheckTimeout t) s = .next (postRail 0x15 u.pmu.vhold 0 2
      { u with pmu := { u.pmu with checkKind := some 2 } })) ∧
  (∀ s t vhold u v, u = advance t s → u.pmu.phase = .waiting → u.pmu.measured = true →
    v = recomputeCaps { u with pmu := { u.pmu with vhold := vhold } } → v.ready.holdup = false → v.pmu.reached = false →
    exec (.holdupCheckRepeat t vhold) s = .next (postCheck 2 v)) ∧
  (∀ s t o b u v w op, u = advance t s → u.hmu.bistRuns = true → u.hmu.bistAt = some b →
    w = reinitSram u →
    v = setReady (fun y => { y with shutdownDone := true }) (writeNow 4 (.bist w.jrn.session (wholeBist 0 o b))
      { w with hmu := { w.hmu with bistRuns := false, bistAt := none } }) →
    (v.hif.ops.find? fun op => decide (op.st = .shutdown)) = some op →
    exec (.shutdownBistDone t o) s =
      .next (complete op .ok (BitVec.ofNat 64 (bistResult o)) (BitVec.ofNat 64 o.duration) false v))

/-! ### NSU and DRB -/

/-- O39. Settling ends after 1,572,864 CLK and no earlier; a source that passes its start-up test joins its class, one that alarms
in it once is tested again, one that alarms twice is retired; an alarm of an active or a spare source drops its untested entries,
spoils its APT window and counts against it, and the eighteenth within 2^20 samples retires it; once a day a spare with fewer
alarms is named for the place of the active source with the most (R264, R265, R271, R273, R276). -/
def Obligations.NoiseSourcesComplete : Prop :=
  (∀ s t since u, u = advance t s → u.nsu.settling = some since → since + 1572864 ≤ u.clk.now →
    exec (.nsuSettleDone t) s = .next { u with nsu := { u.nsu with settling := none } }) ∧
  (∀ s t since u, u = advance t s → u.nsu.settling = some since → u.clk.now < since + 1572864 →
    exec (.nsuSettleDone t) s = .next u) ∧
  (∀ s t src x u, u = advance t s → u.nsu.powered = true → findSource u src = some x → x.st = .starting → x.passed = false →
    u.nsu.settling = none → (u.nsu.heldS && isClassS src) = false →
    exec (.sourceStartupTestDone t src []) s = .next (background (updateRandom
      (modSource src (fun z => { z with
        st := if roleNeeds u src then .active else .spare, second := false, wasActive := false, passed := false
        from_ := nextWindow src u, lastPass := max z.lastPass (u.clk.now / aptWindow src * aptWindow src) })
        { u with nsu := { u.nsu with pending := u.nsu.pending.filter fun p => !holdsUntested x p } })))) ∧
  (∀ s t src x u, u = advance t s → u.nsu.powered = true → findSource u src = some x → x.st = .starting → x.passed = false →
    u.nsu.settling = none → u.nsu.heldS = true → isClassS src = true →
    exec (.sourceStartupTestDone t src []) s =
      .next (background (updateRandom (releaseS (modSource src (fun z => { z with second := false, passed := true }) u))))) ∧
  (∀ s t src alarms x u, u = advance t s → u.nsu.powered = true → findSource u src = some x → x.st = .starting →
    x.passed = false → u.nsu.settling = none → x.second = false → alarms ≠ [] →
    exec (.sourceStartupTestDone t src alarms) s = .next (background (modSource src (fun z => { z with second := true })
      (dropUntested x (modSource src (countAlarms alarms 0) u))))) ∧
  (∀ s t src alarms x u, u = advance t s → u.nsu.powered = true → findSource u src = some x → x.st = .starting →
    x.passed = false → u.nsu.settling = none → x.second = true → alarms ≠ [] →
    exec (.sourceStartupTestDone t src alarms) s = .next (background (failStartup (countAlarms alarms 0 x)
      (dropUntested x (modSource src (countAlarms alarms 0) u))))) ∧
  (∀ s t src test count sample cost x y u v recent, u = advance t s → u.nsu.powered = true → findSource u src = some x →
    (x.st = .active ∨ x.st = .spare) → (test = .rct ∧ rctCutoff src ≤ count ∨ test = .apt ∧ aptCutoff src ≤ count) →
    recent = (x.alarms.filter fun a => decide (sample < a.1 + 2 ^ 20)).length + 1 →
    cost = (u.nsu.pending.filter fun p => holdsUntested x p).length +
      (if 18 ≤ recent ∧ x.st = .active ∧
          x.from_ ≤ u.clk.now / entryWindow (isClassS x.code) * entryWindow (isClassS x.code) then 1 else 0) →
    y = { countAlarms [sample] cost x with
      badEnds := ((u.clk.now / aptWindow x.code + 1) * aptWindow x.code ::
        x.badEnds.filter fun e => e != (u.clk.now / aptWindow x.code + 1) * aptWindow x.code).take 4 } →
    v = modSource x.code (fun _ => y) { u with nsu := { u.nsu with
      pending := u.nsu.pending.filter fun p => !holdsUntested x p } } →
    exec (.healthTestAlarm t src test count sample) s = .next (background
      (if 18 ≤ recent then if x.st = .active then retireActive y v else retireSpare x.code v else v))) ∧
  (∀ s t x y u v, u = advance t s → u.nsu.powered = true → u.nsu.exchangeDay ≤ u.int.posec / 86400 →
    maxBy (fun x => x.today) (u.nsu.sources.filter fun x =>
      decide (x.st = .active) && x.switchDue.isNone &&
        !(u.nsu.sources.any fun y => sameRole y.code x.code && decide (y.st = .drained)) &&
        (match spareFor u x.code with | some y => decide (y.today < x.today) | none => false)) = some x →
    spareFor u x.code = some y → v = modSource x.code (fun z => { z with swap := some y.code }) u →
    exec (.sourceExchange t) s =
      .next (background { v with nsu := { v.nsu with exchangeDay := u.int.posec / 86400 + 1 } })) ∧
  (∀ s t u, u = advance t s → u.nsu.powered = true → u.int.posec / 86400 < u.nsu.exchangeDay →
    exec (.sourceExchange t) s = .next (background u))

/-- O40. An APT window that closes without an alarm lets the entries it completes join their queues, one with an alarm does
nothing; an entry window's end conditions the sources' samples and switches replacements in; an internal instance asks for an
entry once, behind those that ask already; an automatic reseed takes one (R267, R268, R269, R270, R272, R283). -/
def Obligations.EntropyComplete : Prop :=
  (∀ s t src x u, u = advance t s → u.nsu.powered = true → findSource u src = some x →
    (x.st = .active ∨ x.st = .spare ∨ x.st = .drained) →
    x.badEnds.contains (u.clk.now / aptWindow src * aptWindow src) = false →
    exec (.aptWindowClose t src) s = .next (background (joinQueues (modSource src (fun z => { z with
      lastPass := max z.lastPass (u.clk.now / aptWindow src * aptWindow src) }) u)))) ∧
  (∀ s t src x u, u = advance t s → u.nsu.powered = true → findSource u src = some x →
    x.badEnds.contains (u.clk.now / aptWindow src * aptWindow src) = true →
    exec (.aptWindowClose t src) s = .next (background u)) ∧
  (∀ s t classS samples stop xs u, u = advance t s → u.nsu.powered = true →
    stop = u.clk.now / entryWindow classS * entryWindow classS → entryWindow classS ≤ stop →
    xs = windowSources u classS (stop - entryWindow classS) → windowLost (stop - entryWindow classS) xs = false →
    exec (.entryWindowBoundary t classS samples) s = .next (background (updateRandom (swapIn classS (switchIn classS
      (addWindow classS (stop - entryWindow classS) samples xs u)))))) ∧
  (∀ s t i u, u = advance t s → (u.nsu.internals.any fun d => d.num == i && d.state.isSome) = true →
    u.nsu.waitI.contains i = false →
    exec (.internalDrbgReseed t i) s = .next (serveSeeds { u with nsu := { u.nsu with waitI := u.nsu.waitI ++ [i] } })) ∧
  (∀ s t n rest e more u v, u = advance t s → u.drb.autoOrder = n :: rest → u.nsu.queueS = e :: more → u.nsu.waitS = [] →
    internalWantsS u = false → 32 < u.nsu.queueS.length →
    v = modDrbg n (fun d => { d with
      state := drbgReseed d.state e [], requests := 0, reseeds := d.reseeds + 1, auto := false }) u →
    exec (.drbgAutoReseed t) s =
      .next { v with nsu := { v.nsu with queueS := more }, drb := { v.drb with autoOrder := rest } })

/-! ### Halyards -/

/-- O41. The port timers: 25 ms after power a port is ON and its slate is wanted, 100 ms after a fault it charges again, or goes
down where it is held or disabled by then; a sweep and an AUTH that fall due are wanted, a stale slate is tried again after 1 s,
and 5 ms pauses end in their take, exchange or sweep. An overcurrent on a port that is ON ends what is on the line with
TAG_LINE_ERROR and what waits with PORT_OFF, loses its positions, and leaves an enabled port in FAULT while it is not the third
within 10 s (R205, R231, R236, R237, R240, R260, R261). -/
def Obligations.PortTimersAndOvercurrentComplete : Prop :=
  (∀ s t p x u, u = advance t s → findPort u p = some x → x.st = .charging → x.since + twentyFiveMs ≤ u.clk.now →
    x.held = false → portEnabled u p = true →
    exec (.portCharged t p) s = .next (background (serveAll (wantSeries p .first 0 []
      (modPort p (fun y => { y with st := .on, since := u.clk.now, sweepDue := u.clk.now }) u))))) ∧
  (∀ s t p x u, u = advance t s → findPort u p = some x → x.st = .fault → x.since + hundredMs ≤ u.clk.now →
    x.held = false → portEnabled u p = true →
    exec (.portFaultTimer t p) s = .next (chargePort p u)) ∧
  (∀ s t p x u, u = advance t s → findPort u p = some x → (x.held = true ∨ portEnabled u p = false) →
    (x.st = .charging → x.since + twentyFiveMs ≤ u.clk.now → exec (.portCharged t p) s = .next (background (goDown p u))) ∧
    (x.st = .fault → x.since + hundredMs ≤ u.clk.now → exec (.portFaultTimer t p) s = .next (goDown p u))) ∧
  (∀ s t p x u, u = advance t s → findPort u p = some x → x.st = .on → x.stale = false → x.sweepDue ≤ u.clk.now →
    exec (.statusSweepDue t p) s =
      .next (background (serveAll (modPort p (fun y => { y with sweepWants := true }) u)))) ∧
  (∀ s t p i x y u, u = advance t s → findPort u p = some x → posAt u p i = some y → x.st = .on → x.stale = false →
    y.authed = true → y.authDue ≤ u.clk.now → x.authWants = [] → (∀ z ∈ u.hyc.ports, z.num = p → z = x) →
    exec (.authDue t p i) s =
      .next (background (serveAll (modPort p (fun z => { z with authWants := [i] }) u)))) ∧
  (∀ s t p x u, u = advance t s → findPort u p = some x → x.st = .on → x.stale = true → x.series = none →
    x.staleAt + second ≤ u.clk.now →
    exec (.staleSlateRetry t p) s = .next (background (serveAll (wantSeries p .stale 0 [] u)))) ∧
  (∀ s t p x since u, u = advance t s → findPort u p = some x → x.act = .pauseTake since → since + fiveMs ≤ u.clk.now →
    exec (.takeRetry t p) s = .next (background (startTake p u))) ∧
  (∀ s t p x e since u, u = advance t s → findPort u p = some x → x.act = .pauseExch e since → since + fiveMs ≤ u.clk.now →
    exec (.takeRetry t p) s = .next (background (beginExch p e u))) ∧
  (∀ s t p x earlier since u, u = advance t s → findPort u p = some x → x.act = .pauseSweep earlier since →
    since + fiveMs ≤ u.clk.now →
    exec (.sweepRepeat t p) s = .next (background (startSweep p earlier u))) ∧
  (∀ s t p x u v, u = advance t s → findPort u p = some x → x.st = .on → x.held = false → portEnabled u p = true →
    (x.shorts.filter fun t => decide (u.clk.now < t + 10 * second)).length < 2 →
    v = losePositions p 2 (clearWork p (refuseOps (seriesOps x ++ x.queue.filter fun k => !isPower u k) .portOff
      (refuseOps (actOp x.act) .tagLineError u))) →
    exec (.overcurrent t p) s = .next (background (serveAll (checkHalyard (endPowerOff p (modPort p (fun y => { y with
      st := .fault, since := u.clk.now
      shorts := u.clk.now :: x.shorts.filter fun t => decide (u.clk.now < t + 10 * second)
      firstDue := y.firstDue && !x.series.isSome }) v))))))

/-- O42. A slate: an ASSIGN answered DONE is followed by the next ASSIGN while positions are left, one that is not answered by the
confirming sweep; a confirming sweep whose positions all answer and whose presence slot is silent wins the take. A periodic sweep
that is all GOOD with a silent presence slot, alone or as the one before it read, changes nothing but that identification is
repeated where it is owed; one that is not is followed by a second, and two that differ by a third (R215, R231, R240). -/
def Obligations.SlatesAndSweepsComplete : Prop :=
  (∀ s t p up x n bs u v, u = advance t s → findPort u p = some x → x.act = .assign n → readAnswer 3 up = .ok bs →
    fieldAt bs 0 1 = 0 → n + 1 < 16 → v = markAnswer p 4 3 up u →
    exec (.assignAnswer t p up) s = .next (background (setAct p (.assign (n + 1))
      (sendTx p [⟨false, 0, frameOf 0x12 (n + 2) []⟩] v)))) ∧
  (∀ s t p up x n u v, u = advance t s → findPort u p = some x → x.act = .assign n → readAnswer 3 up = .error .silent →
    v = markAnswer p 4 3 up u →
    exec (.assignAnswer t p up) s = .next (background (setAct p (.confirm n)
      (sendTx p [⟨false, statusTrigger, []⟩] v)))) ∧
  (∀ s t p up presence x n u v, u = advance t s → findPort u p = some x → x.act = .confirm n →
    v = noteSlots p n up (sendMarks p 3 n true u) →
    confirmError n up = none → (readSweep n up presence).presence = 1 → isLeaving v p = false →
    exec (.statusAnswer t p up presence) s = .next (background (takeWon p n false v))) ∧
  (∀ s t p up presence x earlier r u v, u = advance t s → findPort u p = some x → x.act = .sweep earlier →
    r = readSweep x.n up presence → v = noteAgain p r (noteSlots p x.n up (sendMarks p 3 x.n true u)) → isLeaving v p = false →
    (r.slots.all fun c => c == 0) = true → r.presence = 1 → (earlier = [] ∨ ∃ older, earlier = r :: older) →
    exec (.statusAnswer t p up presence) s = .next (background (againFrom p 1 v))) ∧
  (∀ s t p up presence x earlier r u v, u = advance t s → findPort u p = some x → x.act = .sweep earlier →
    r = readSweep x.n up presence → v = noteAgain p r (noteSlots p x.n up (sendMarks p 3 x.n true u)) → isLeaving v p = false →
    ((r.slots.all fun c => c == 0) = true → r.presence ≠ 0) →
    (earlier = [] ∧ quietSweep r = false ∨ ∃ last, earlier = [last] ∧ r ≠ last) →
    exec (.statusAnswer t p up presence) s = .next (background (startSweep p (r :: earlier) v)))

/-- O43. An exchange: SELECT answered DONE is followed by IDENTITY; an IDENTITY of model 0x02 with a loaded family key by AUTH
under the key derived for the tag; an AUTH and a READ_LIMIT answer count where their MAC is the tag's, and CONSUME where the count
rose by exactly what was asked too. An answer that the line spoils makes the exchange pause for 5 ms before its next take, and an
AUTH whose MAC is wrong is repeated at once, the first time (R233, R239, R243, R248, R250, R257, R393). -/
def Obligations.ExchangesCompleteOrAreRepeated : Prop :=
  (∀ s t p up x e y bs u v, u = advance t s → findPort u p = some x → x.act = .exch e → e.kind = .select →
    v = markAnswer p (answerGap e.kind) (answerLength e.kind) up u →
    readAnswer 3 up = .ok bs → fieldAt bs 0 1 = 0 → posAt v p e.pos = some y →
    exec (.selectAnswer t p up) s = .next (background (nextExch p { e with kind := .identity, take := 1 } v))) ∧
  (∀ s t p up x e bs fk u v serial family, u = advance t s → findPort u p = some x → x.act = .exch e → e.kind = .identity →
    v = markAnswer p (answerGap e.kind) (answerLength e.kind) up u →
    readAnswer 14 up = .ok bs → serial = BitVec.ofNat 64 (fieldAt bs 0 8) → family = BitVec.ofNat 16 (fieldAt bs 8 2) →
    fieldAt bs 10 1 = 2 → (u.hyc.families.find? fun f => f.1 == family.toNat) = some (family.toNat, fk) →
    exec (.identityAnswer t p up) s = .next (background (nextExch p (newExch .auth e.pos e.why)
      (modPos p e.pos (fun y => { y with key := tagKey fk serial family })
        (modPos p e.pos (fun y => { y with
          known := true, serial := serial, family := family, model := 2
          history := (keptFrom v p e.pos serial).1, side := (keptFrom v p e.pos serial).2 }) v))))) ∧
  (∀ s t p up x e y bs c u v, u = advance t s → findPort u p = some x → x.act = .exch e → e.kind = .auth →
    v = markAnswer p (answerGap e.kind) (answerLength e.kind) up u →
    readAnswer 15 up = .ok bs → fieldAt bs 0 1 = 0 → posAt v p e.pos = some y → c = fieldAt bs 1 4 →
    (bs.drop 5).take 8 = authMac e.key e.challenge y.serial c →
    exec (.authAnswer t p up) s = .next (background (offerGain p e (.count c) v))) ∧
  (∀ s t p up x e y bs lim u v, u = advance t s → findPort u p = some x → x.act = .exch e → e.kind = .readLimit →
    v = markAnswer p (answerGap e.kind) (answerLength e.kind) up u →
    readAnswer 15 up = .ok bs → fieldAt bs 0 1 = 0 → posAt v p e.pos = some y → lim = fieldAt bs 1 4 →
    (bs.drop 5).take 8 = limitMac e.key e.challenge y.serial lim → e.proved = none →
    exec (.readLimitAnswer t p up) s = .next (background (offerGain p e (.limit lim) v))) ∧
  (∀ s t p up x e y bs n old u v, u = advance t s → findPort u p = some x → x.act = .exch e → e.kind = .consume →
    v = markAnswer p (answerGap e.kind) (answerLength e.kind) up u →
    readAnswer 19 up = .ok bs → fieldAt bs 0 1 = 0 → posAt v p e.pos = some y → n = consumeN v e → old = fieldAt bs 1 4 →
    fieldAt bs 5 4 = old + n → (bs.drop 9).take 8 = consumeMac e.key e.challenge y.serial n old (old + n) →
    exec (.consumeAnswer t p up) s = .next (background (offerGain p e (.count (old + n)) v))) ∧
  (∀ s t p up x e err u v, u = advance t s → findPort u p = some x → x.act = .exch e → e.kind = .auth →
    v = markAnswer p (answerGap e.kind) (answerLength e.kind) up u → e.why = .slate →
    readAnswer 15 up = .error err → e.take < 4 → isLeaving v p = false →
    exec (.authAnswer t p up) s =
      .next (background (setAct p (.pauseExch { e with take := e.take + 1 } u.clk.now) v))) ∧
  (∀ s t p up x e y bs u v, u = advance t s → findPort u p = some x → x.act = .exch e → e.kind = .auth →
    v = markAnswer p (answerGap e.kind) (answerLength e.kind) up u →
    readAnswer 15 up = .ok bs → fieldAt bs 0 1 = 0 → posAt v p e.pos = some y →
    (bs.drop 5).take 8 ≠ authMac e.key e.challenge y.serial (fieldAt bs 1 4) → e.fails = 0 →
    exec (.authAnswer t p up) s = .next (background (nextExch p { e with fails := 1 } v)))

/-! ### The machine as a whole -/

/-- O44. A step takes the command at the front of the queue and carries it out with the rest of the queue behind it. -/
def Obligations.StepRunsTheFrontCommand : Prop :=
  ∀ (c : Instr) (rest : List Instr) s, s.pending = c :: rest → step s = exec c { s with pending := rest }

/-- O45. On an empty queue a step counts one CLK where CLK runs and changes nothing else: the model's own choice (log 1). No word
spells a command, so nothing is put in front of the queue. -/
def Obligations.IdleStepCountsOneClk : Prop :=
  (∀ s, s.pending = [] → s.clk.running = true → step s = .next { s with clk := { s.clk with now := s.clk.now + 1 } }) ∧
  (∀ s, s.pending = [] → s.clk.running = false → step s = .next s) ∧
  (∀ (s : State) nbits w, s.withFetchWord nbits w = s)

/-- O46. No command ends in a fault or a refusal, in any state. -/
def Obligations.NoCommandStops : Prop := ∀ (c : Instr) s, ∃ t, exec c s = .next t

/-- O47. After a step the queue is the rest of the queue: no command puts another one there, or takes one away. -/
def Obligations.StepTakesOneCommand : Prop :=
  ∀ s t, Invariant s → step s = .next t → t.pending = s.pending.tail

/-- O48. Every step, from any state, keeps host memory in its canonical form and every unit in its place. -/
def Obligations.StepKeepsTheInvariant : Prop := ∀ s t, Invariant s → step s = .next t → Invariant t

/-- O49. A new F840 meets the invariant, with its setup registers at their reset values; a device reset puts them there again,
clears READY and keeps every slot of the flash, the fuses, the images of the code flash and host memory, with its cause in STATUS;
a HIF reset puts the HIF group there and keeps the counters, the key identifiers, the ports, the journal and READY (R297, R298,
R352, R355, R55). -/
def Obligations.ResetsReturnTheirRegisters : Prop :=
  Invariant State.reset ∧ TableWhole State.reset ∧ State.reset.pending = [] ∧
  (∀ cause s t, cause < 8 → (t = State.reset ∨ t = doReset cause s) →
    registerWord t 0x00C = 0 ∧ registerWord t 0x010 = 0 ∧ registerWord t 0x020 = 0 ∧ registerWord t 0x024 = 0 ∧
    registerWord t 0x040 = 0 ∧ registerWord t 0x04C = 0 ∧ registerWord t 0x050 = 2 ∧ registerWord t 0x054 = 0 ∧
    registerWord t 0x05C = 0xFF00FF00 ∧ registerWord t 0x060 = 0xFF00FF00 ∧ registerWord t 0x064 = 0 ∧
    registerWord t 0x068 = 0 ∧ registerWord t 0x06C = 0x0A32 ∧ registerWord t 0x078 = 1 ∧ registerWord t 0x07C = 0 ∧
    t.hif.qps = [] ∧ t.ev.ring = none ∧ t.ctr.leaves = [] ∧ t.clk.now = 0) ∧
  (∀ cause s, cause < 8 → (doReset cause s).regs.resetCause = cause ∧ (∀ f ∈ s.jrn.flash, f ∈ (doReset cause s).jrn.flash) ∧
    (doReset cause s).jrn.sectors.length = s.jrn.sectors.length ∧ (doReset cause s).mem = s.mem ∧ (doReset cause s).fuse = s.fuse ∧
    (doReset cause s).fw.slot0.bytes = s.fw.slot0.bytes ∧ (doReset cause s).fw.slot1.bytes = s.fw.slot1.bytes) ∧
  (∀ down s, (resetHif down s).regs = { s.regs with
      hoist := ⟨0, 0, none⟩, adminSq := ⟨0, 0, none⟩, adminCq := ⟨0, 0, none⟩, eventRing := ⟨0, 0, none⟩, adminSizes := 0
      eventSize := 0, pollPeriod := 2, msixCfg := 0, scratch := 0, setupError := false } ∧
    (resetHif down s).ctr = s.ctr ∧ (resetHif down s).kit = s.kit ∧ (resetHif down s).hyc = s.hyc ∧
    (resetHif down s).jrn = s.jrn ∧ (resetHif down s).ready = s.ready ∧ (resetHif down s).hif.qps = [])

/-- O50. Device time never goes back while CLK runs on: after any command but PLL_LOCK, which begins it at 0, it is at or above
what it was, or CLK has stopped with a reset (R14, R299). -/
def Obligations.DeviceTimeNeverGoesBack : Prop :=
  ∀ c s t, Invariant s → (∀ at_ fuses reads, c ≠ .pllLock at_ fuses reads) → exec c s = .next t →
    s.clk.now ≤ t.clk.now ∨ t.clk.running = false

/-- O51. The operations on counters that find no bad word, on key identifiers and on the parameter store, and fault reports, while
nobody waits for fresh entropy, leave the setup registers (but for the cause of SAFE), the DRBG instances and the power state (but
for the draw of a capacitance measurement that they may let begin), and the clock but for device time (R60, R77, R78, R79, R81,
R189, R190, R191, R192, R198, R126, R130). -/
def Obligations.ObjectOperationsLeaveTheSetup : Prop :=
  ∀ c s s' code t k hw, dispatchOf c = some (code, t, k, hw) →
    (0x10 ≤ code ∧ code ≤ 0x17 ∨ 0x20 ≤ code ∧ code ≤ 0x25 ∨ code = 0x51 ∨ code = 0x52) →
    (∀ bad, c = .ctrRead t k bad ∨ c = .ctrAdvance t k bad ∨ c = .ctrReserve t k bad ∨ c = .ctrRaise t k bad ∨
      c = .ctrGroupRead t k bad → bad = []) →
    s.nsu.waitS = [] → exec c s = .next s' →
    s'.clk = (advance t s).clk ∧ { s'.regs with safeCause := s.regs.safeCause } = s.regs ∧ s'.drb = s.drb ∧
      { s'.pmu with vTopCap := s.pmu.vTopCap, drawing := s.pmu.drawing } = s.pmu

/-- O52. In SAFE every operation that R60 does not serve there completes with SAFE_STATE, and after SHUTDOWN_PREPARE every one
that R324 does not serve completes with NOT_READY; neither does anything else, but that what waits is looked at again (R60, R324,
R389). -/
def Obligations.ClosedOperationsAreRefused : Prop :=
  ∀ c s code t k hw op u, dispatchOf c = some (code, t, k, hw) → u = advance t (hostWrites hw s) →
    Dispatched code k op u →
    (inSafe u = true → servedInSafe op = false →
      exec c s = .next (refuse op .safeState u) ∨ exec c s = .next (background (refuse op .safeState u))) ∧
    (inSafe u = false → u.pmu.shutdown = true → servedAfterShutdown code = false →
      exec c s = .next (refuse op .notReady u) ∨ exec c s = .next (background (refuse op .notReady u)))

/-- O53. A command for an operation that has not been fetched, or that an earlier one still stands before, changes nothing but the
clock and host memory (R46, R47; the model's own choice, log 2). -/
def Obligations.NothingIsDispatchedBeforeItsTurn : Prop :=
  ∀ c s code t k hw u, dispatchOf c = some (code, t, k, hw) → u = advance t (hostWrites hw s) →
    (∀ op, findOp u k = some op → op.opcode = code → dispatchable op u = false) →
    exec c s = .next u

/-- O54. A completion is the 32 bytes of R40 in the QP's next entry, with the phase of R41, and no other byte of host memory
changes; it ends the operation's place in flight. An operation whose ring a HIF reset took writes none. With a QP_DELETE waiting
for the QP two completions are written: QpDeleteEndsWithTheLastOperation says so (R39, R40, R41, R42, R55). -/
def Obligations.CompletionsGoToTheNextEntry : Prop :=
  (∀ op st resA resB skipped q u, memWf u.mem = true → op.silent = false → findQp u op.qp = some q →
    (∀ o ∈ u.hif.ops, ∀ a b, o.st ≠ .deleting a b) →
    readHost (complete op st resA resB skipped u) (completionEntry q) 32 =
      leBytes 2 op.tag.toNat ++ [statusByte st] ++
        leBytes 1 ((if q.written.toNat / q.cqSize % 2 = 0 then 1 else 0) + 2 * bit skipped + 4 * bit u.clk.holdover) ++
        leBytes 2 q.fetched.toNat ++ leBytes 2 q.num ++ leBytes 8 resA.toNat ++ leBytes 8 resB.toNat ++
        leBytes 8 u.clk.now) ∧
  (∀ op st resA resB skipped q u a, op.silent = false → findQp u op.qp = some q →
    (∀ o ∈ u.hif.ops, ∀ a b, o.st ≠ .deleting a b) → a < completionEntry q ∨ completionEntry q + 32 ≤ a →
    memByte (complete op st resA resB skipped u).mem a = memByte u.mem a) ∧
  (∀ op st resA resB skipped u, (∀ o ∈ u.hif.ops, ∀ a b, o.st ≠ .deleting a b) →
    findOp (complete op st resA resB skipped u) op.id = none) ∧
  (∀ op st resA resB skipped u, op.silent = true → (∀ o ∈ u.hif.ops, ∀ a b, o.st ≠ .deleting a b) →
    (complete op st resA resB skipped u).mem = u.mem)

/-- O55. What an operation's end changes lies in HIF and host memory: a refused operation, and every operation that only reads
(IDENTIFY, TAG_READ, TAG_SIDE, HEALTH_READ, EOL_READ, MAINT_STATUS, PLACEMENT_REPORT), whatever its status, leaves every other
unit as it is (R61, R59, R255, R321, R322, R334, R178). -/
def Obligations.ReadsChangeOnlyHostMemoryAndHif : Prop :=
  (∀ op st u, HostOnly u (refuse op st u)) ∧
  (∀ c t k m s s', c ∈ [Instr.identify t k, .tagRead t k, .tagSide t k, .healthRead t k m, .eolRead t k, .maintStatus t k,
      .placementReport t k] → exec c s = .next s' → HostOnly (advance t s) s')

/-- O56. An event goes into the ring's next entry while there is room for it, and no other byte of host memory changes; while the
ring cannot take it, it joins the buffer; past 64 of them, and with the ring full, it is counted as lost (R51, R52, R53, R54). -/
def Obligations.EventsAreWrittenBufferedOrCounted : Prop :=
  (∀ e base size u, memWf u.mem = true → u.ev.ring = some (base, size) → u.hif.linkUp = true → u.ev.buffer = [] →
    u.ev.lost = 0 → (u.ev.next - u.ev.consumed).toNat + 1 < size →
    readHost (deliverEvent e u) (base + 32 * (u.ev.next.toNat % size)) 32 =
        eventBytes e (if u.ev.next.toNat / size % 2 = 0 then 1 else 0) ∧
      (deliverEvent e u).ev.next = u.ev.next + 1 ∧
      ∀ a, a < base + 32 * (u.ev.next.toNat % size) ∨ base + 32 * (u.ev.next.toNat % size) + 32 ≤ a →
        memByte (deliverEvent e u).mem a = memByte u.mem a) ∧
  (∀ e u, u.ev.buffer.length < 64 → (u.ev.buffer ≠ [] ∨ u.ev.ring = none ∨ u.hif.linkUp = false) →
    deliverEvent e u = { u with ev := { u.ev with buffer := u.ev.buffer ++ [e] } }) ∧
  (∀ e u, 64 ≤ u.ev.buffer.length → (deliverEvent e u).ev.lost = u.ev.lost + 1 ∧
    (deliverEvent e u).ev.buffer = u.ev.buffer ∧ (deliverEvent e u).mem = u.mem) ∧
  (∀ e base size u, u.ev.ring = some (base, size) → u.hif.linkUp = true → u.ev.buffer = [] →
    size ≤ (u.ev.next - u.ev.consumed).toNat + 1 →
    (deliverEvent e u).ev.lost = u.ev.lost + 1 ∧ (deliverEvent e u).ev.next = u.ev.next ∧ (deliverEvent e u).mem = u.mem)

/-- O57. A rise gives the counter its new value and leaves every other counter of the table as it is, and so every counter's
domain, class, bound, group and incarnation (R77, R78, R79, R89). -/
def Obligations.RisesLeaveOtherCounters : Prop :=
  (∀ l v u, findLeaf u l.num = some l → ∃ x, findLeaf (raiseLeaf l v u) l.num = some x ∧ x.v = BitVec.ofNat 64 v ∧
    x.num = l.num ∧ x.inc = l.inc ∧ x.domain = l.domain ∧ x.cls = l.cls ∧ x.bound = l.bound ∧ x.group = l.group ∧
    x.closed = l.closed) ∧
  (∀ l v u n, n ≠ l.num → findLeaf (raiseLeaf l v u) n = findLeaf u n)

/-- O58. No operation lowers a counter: after an operation on counters that finds no bad word, on key identifiers or on the
parameter store, or a fault report, with all the operations that it lets go on, every counter of the table is there with its value
or a higher one, or its number has been taken by a later incarnation; the table stays in order (R63, R65, R66, R67, R77, R78,
R79). -/
def Obligations.NoOperationLowersACounter : Prop :=
  ∀ c s s' code t k hw, dispatchOf c = some (code, t, k, hw) →
    (0x10 ≤ code ∧ code ≤ 0x17 ∨ 0x20 ≤ code ∧ code ≤ 0x25 ∨ code = 0x51 ∨ code = 0x52) →
    (∀ bad, c = .ctrRead t k bad ∨ c = .ctrAdvance t k bad ∨ c = .ctrReserve t k bad ∨ c = .ctrRaise t k bad ∨
      c = .ctrGroupRead t k bad → bad = []) →
    TableWhole s → exec c s = .next s' →
    TableWhole s' ∧ ∀ l ∈ s.ctr.leaves, ∃ m ∈ s'.ctr.leaves, m.num = l.num ∧ (l.inc < m.inc ∨ m.inc = l.inc ∧ l.v ≤ m.v)

/-- O59. The CRC-8 of side messages over the nine bytes 0x31 to 0x39, bit by bit from polynomial 0x07 and initial value 0x00, is
0xF4 (R253). -/
def Obligations.Crc8IsThatOfTheSpec : Prop :=
  (∀ bs d, crc8 [] = 0 ∧ crc8 (bs ++ [d]) = crc8Steps 8 (Nat.xor (crc8 bs) d.toNat)) ∧
  (∀ n crc, crc8Steps 0 crc = crc ∧
    crc8Steps (n + 1) crc = crc8Steps n (if 0x80 ≤ crc then Nat.xor (crc * 2) 0x07 % 256 else crc * 2 % 256)) ∧
  crc8 [0x31, 0x32, 0x33, 0x34, 0x35, 0x36, 0x37, 0x38, 0x39] = 0xF4

/-- O60. QP 0 is what the admin registers define, from the write of ADMIN_SIZES on: class 0, domain 0, an in-flight limit of 8,
vector 0, every completion signalled; its tail word stands at hoist 0x0400 and its head word at 0x4400 (R33). -/
def Obligations.AdminSizesMakesQpZero : Prop :=
  (∀ s t v u, u = advance t s → barReachable u = true → isRefused u 0x040 v = false → findQp u 0 = none → ∃ w q,
    exec (.adminSizesWrite t v) s = .next w ∧ findQp w 0 = some q ∧ q.sqBase = effOf u.regs.adminSq ∧
    q.cqBase = effOf u.regs.adminCq ∧ q.sqSize = 2 ^ (6 + bitsOf v.toNat 0 4) ∧ q.cqSize = 2 ^ (6 + bitsOf v.toNat 4 4) ∧
    q.cls = 0 ∧ q.domain = 0 ∧ q.limit = 8 ∧ q.vector = 0 ∧ q.coalCount ≤ 1) ∧
  (∀ u q, findQp u 0 = some q → ∀ x, findQp (readTails 0 u) 0 = some x → x.tail = readWord u (hoistBase u + 0x0400)) ∧
  (∀ u q, findQp u 0 = some q → ∀ x, findQp (readHeads 0 u) 0 = some x → x.head = readWord u (hoistBase u + 0x4400)) ∧
  (∀ q u, q.coalCount ≤ 1 → signalQp q u = sendMsix q.vector (modQp q.num (fun q => { q with unsignalled := 0 }) u))
end

