-- ==== Sys2Proof/Laws/Memory.lean ====
section
/-!
SUPPORT. Host memory: its canonical form is kept by every write, and a read after a write (notes/assumptions/4.md).
-/
namespace Sys2Proof.Machine

/-- A canonical list that starts no lower is canonical from below. -/
theorem memWfFrom_le {lo hi : Nat} (m : List Host.Cell) (hle : lo ≤ hi) (h : memWfFrom hi m = true) : memWfFrom lo m = true := by
  cases m with
  | nil => rfl
  | cons c m =>
    simp only [memWfFrom, Bool.and_eq_true, decide_eq_true_eq] at h ⊢
    exact ⟨⟨hle.trans h.1.1, h.1.2⟩, h.2⟩

/-- Below its first address a canonical list reads as nothing listed. -/
theorem memByte_low {lo a : Nat} (m : List Host.Cell) (h : memWfFrom lo m = true) (ha : a < lo) : memByte m a = 0 := by
  induction m generalizing lo with
  | nil => rfl
  | cons c m ih =>
    obtain ⟨x, b⟩ := c
    simp only [memWfFrom, Bool.and_eq_true, decide_eq_true_eq] at h
    have hx : x ≠ a := by omega
    simp only [memByte, if_neg hx]
    exact ih h.2 (by omega)

/-- A write at or above `lo` keeps a list canonical from `lo`. -/
theorem memWfFrom_memPut {lo a : Nat} (b : Byte) (m : List Host.Cell) (ha : lo ≤ a) (h : memWfFrom lo m = true) :
    memWfFrom lo (memPut m a b) = true := by
  induction m generalizing lo with
  | nil => by_cases hb : b = 0#8 <;> simp [memPut, memWfFrom, hb, ha]
  | cons c m ih =>
    obtain ⟨x, c⟩ := c
    have hw := h
    simp only [memWfFrom, Bool.and_eq_true, decide_eq_true_eq] at h
    obtain ⟨⟨hx, hc⟩, hm⟩ := h
    by_cases h1 : a < x
    · by_cases hb : b = 0#8
      · simpa [memPut, h1, hb] using hw
      · simpa [memPut, h1, hb, memWfFrom, ha, hm] using hc
    · by_cases h2 : a = x
      · subst h2
        by_cases hb : b = 0#8
        · simpa [memPut, hb] using memWfFrom_le m (by omega) hm
        · simp [memPut, hb, memWfFrom, ha, hm]
      · simp only [memPut, if_neg h1, if_neg h2, memWfFrom, Bool.and_eq_true, decide_eq_true_eq]
        exact ⟨⟨hx, hc⟩, ih (by omega) hm⟩

/-- A write keeps the canonical form. -/
theorem memWf_memPut (m : List Host.Cell) (a : Nat) (b : Byte) (h : memWf m = true) : memWf (memPut m a b) = true :=
  memWfFrom_memPut b m (Nat.zero_le a) h

/-- A write of several bytes keeps the canonical form. -/
theorem memWf_memPutBytes (bs : List Byte) (m : List Host.Cell) (a : Nat) (h : memWf m = true) :
    memWf (memPutBytes m a bs) = true := by
  induction bs generalizing m a with
  | nil => exact h
  | cons b bs ih => exact ih _ _ (memWf_memPut m a b h)

/-- Writes of the host keep the canonical form. -/
theorem memWf_hostWrites (hw : HostWrites) (m : List Host.Cell) (h : memWf m = true) :
    memWf (hw.foldl (fun m c => memPut m c.1 c.2) m) = true := by
  induction hw generalizing m with
  | nil => exact h
  | cons c hw ih => exact ih _ (memWf_memPut m c.1 c.2 h)

/-- A read of another address after a write. -/
theorem memByte_memPut_other (m : List Host.Cell) {a x : Nat} (b : Byte) (h : x ≠ a) : memByte (memPut m a b) x = memByte m x := by
  induction m with
  | nil => by_cases hb : b = 0#8 <;> simp [memPut, memByte, hb, h.symm]
  | cons c m ih =>
    obtain ⟨y, c⟩ := c
    by_cases h1 : a < y
    · by_cases hb : b = 0#8 <;> simp [memPut, memByte, h1, hb, h.symm]
    · by_cases h2 : a = y
      · subst h2
        by_cases hb : b = 0#8 <;> simp [memPut, memByte, hb, h.symm]
      · simp [memPut, memByte, h1, h2, ih]

/-- A read of the address written, of canonical memory. -/
theorem memByte_memPut_same (m : List Host.Cell) (a : Nat) (b : Byte) (h : memWf m = true) : memByte (memPut m a b) a = b := by
  suffices ∀ lo, memWfFrom lo m = true → memByte (memPut m a b) a = b from this 0 h
  intro lo hlo
  induction m generalizing lo with
  | nil => by_cases hb : b = 0#8 <;> simp [memPut, memByte, hb]
  | cons c m ih =>
    obtain ⟨y, c⟩ := c
    have hw := hlo
    simp only [memWfFrom, Bool.and_eq_true, decide_eq_true_eq] at hlo
    by_cases h1 : a < y
    · by_cases hb : b = 0#8
      · subst hb
        simp only [memPut, if_pos h1]
        exact memByte_low (lo := y) _ (by simpa [memWfFrom, hlo.2] using hlo.1.2) h1
      · simp [memPut, memByte, h1, hb]
    · by_cases h2 : a = y
      · subst h2
        by_cases hb : b = 0#8
        · simpa [memPut, hb] using memByte_low m hlo.2 (Nat.lt_succ_self a)
        · simp [memPut, memByte, hb]
      · have h3 : y ≠ a := fun e => h2 e.symm
        simp only [memPut, if_neg h1, if_neg h2, memByte, if_neg h3]
        exact ih (memWfFrom_le m (Nat.zero_le _) hlo.2) _ hlo.2

/-- Outside the bytes written nothing changes. -/
theorem memByte_memPutBytes_other (bs : List Byte) (m : List Host.Cell) {a x : Nat} (h : x < a ∨ a + bs.length ≤ x) :
    memByte (memPutBytes m a bs) x = memByte m x := by
  induction bs generalizing m a with
  | nil => rfl
  | cons b bs ih =>
    simp only [List.length_cons] at h
    rw [memPutBytes, ih _ (by omega), memByte_memPut_other _ _ (by omega)]

/-- The bytes written are read back. -/
theorem memGetBytes_memPutBytes (bs : List Byte) (m : List Host.Cell) (a : Nat) (h : memWf m = true) :
    memGetBytes (memPutBytes m a bs) a bs.length = bs := by
  induction bs generalizing m a with
  | nil => rfl
  | cons b bs ih =>
    rw [memPutBytes, List.length_cons, memGetBytes, ih _ _ (memWf_memPut m a b h),
      memByte_memPutBytes_other bs _ (Or.inl (Nat.lt_succ_self a)), memByte_memPut_same m a b h]

end Sys2Proof.Machine
end

