-- ==== Sys2Proof/Laws/Kept.lean ====
section
/-!
SUPPORT. What every effect of every command keeps: the queue of commands that wait, the canonical form of host memory, device time
(which never goes back while CLK runs), and how many ports, noise sources, internal instances, engines, sections and copies of the
root the state holds. One lemma per function of the model, in Sys2Proof/Laws/Kept*.lean; each function's own lemma is all that its
callers' lemmas use.
-/
namespace Sys2Proof.Machine

/-- What a command finds: the queue behind it and the device time. -/
structure Before where
  queue : List Instr
  now : Nat

/-- The facts of `Kept`, of the parts of a state taken apart. -/
def KeptOn (k : Before) (queue : List Instr) (mem : List Host.Cell) (now : Nat) (running : Bool)
    (engines sections roots ports sources internals : Nat) : Prop :=
  queue = k.queue ∧ memWf mem = true ∧ (k.now ≤ now ∨ running = false) ∧ engines = 4 ∧ sections = 64 ∧ roots = 3 ∧
    ports = 48 ∧ sources = 10 ∧ internals = 8

/-- The queue is the one found, host memory is canonical, device time has not gone back or CLK stands, and the state holds the units
that the F840 has. -/
def Kept (k : Before) (s : State) : Prop :=
  KeptOn k s.pending s.mem s.clk.now s.clk.running s.ctr.engines.length s.ctr.sections.length s.ctr.roots.length
    s.hyc.ports.length s.nsu.sources.length s.nsu.internals.length

@[simp] theorem kept_mk (k p m a b c d e f g h i j l n o r t u v w x y z q) :
    Kept k ⟨p, m, a, b, c, d, e, f, g, h, i, j, l, n, o, r, t, u, v, w, x, y, z, q⟩ =
      KeptOn k p m a.now a.running f.engines.length f.sections.length f.roots.length n.ports.length o.sources.length
        o.internals.length :=
  propext Iff.rfl

@[simp] theorem keptOn_proj (k : Before) (s : State) :
    KeptOn k s.pending s.mem s.clk.now s.clk.running s.ctr.engines.length s.ctr.sections.length s.ctr.roots.length
      s.hyc.ports.length s.nsu.sources.length s.nsu.internals.length = Kept k s :=
  propext Iff.rfl

@[simp] theorem kept_ite (k : Before) (c : Prop) [Decidable c] (s t : State) :
    Kept k (if c then s else t) = if c then Kept k s else Kept k t := by split <;> rfl

/-- A fold of an effect that keeps them keeps them. -/
theorem kept_foldl {α : Type} {k : Before} {f : State → α → State} (hf : ∀ s x, Kept k s → Kept k (f s x)) (l : List α)
    {s : State} (h : Kept k s) : Kept k (l.foldl f s) := by
  induction l generalizing s with
  | nil => exact h
  | cons x l ih => exact ih (hf s x h)

@[simp] theorem modWhere_length {α : Type} (p : α → Bool) (f : α → α) (l : List α) : (modWhere p f l).length = l.length := by
  simp [modWhere]

@[simp] theorem modNth_length {α : Type} (f : α → α) (i : Nat) (l : List α) : (modNth f i l).length = l.length := by
  induction l generalizing i with
  | nil => cases i <;> rfl
  | cons x l ih => cases i <;> simp [modNth, ih]

end Sys2Proof.Machine
end

