-- ==== Sys2Proof/Laws/KeptHost.lean ====
section
/-!
SUPPORT. What every function of Sys2Proof/Machine/Ops.lean, Events.lean, Hif.lean keeps (Sys2Proof/Laws/Kept.lean).
-/
namespace Sys2Proof.Machine

/-! ### Ops.lean -/

@[simp] theorem hostWrites_kept {pq : Before} {s : State} (hw : HostWrites) (h : Kept pq s) : Kept pq (hostWrites hw s) :=
  ⟨h.1, memWf_hostWrites hw _ h.2.1, h.2.2⟩

@[simp] theorem writeHost_kept {pq : Before} {s : State} (a : Nat) (bs : List Byte) (h : Kept pq s) :
    Kept pq (writeHost a bs s) :=
  ⟨h.1, memWf_memPutBytes bs _ a h.2.1, h.2.2⟩

@[simp] theorem advance_kept {pq : Before} {s : State} (t : Nat) (h : Kept pq s) : Kept pq (advance t s) := by
  unfold advance
  split
  next hc =>
    simp only [Bool.and_eq_true, decide_eq_true_eq] at hc
    obtain ⟨h1, h2, h3, h4⟩ := h
    exact ⟨h1, h2, h3.imp_left (fun hn => hn.trans hc.2.le), h4⟩
  next => exact h

@[simp] theorem tick_kept {pq : Before} {s : State} (h : Kept pq s) : Kept pq (tick s) := by
  unfold tick
  split
  · obtain ⟨h1, h2, h3, h4⟩ := h
    exact ⟨h1, h2, h3.imp_left (fun hn => hn.trans (Nat.le_succ _)), h4⟩
  · exact h

@[simp] theorem logDecision_kept {pq : Before} {s : State} (code object from_ to_ value : Nat) (h : Kept pq s) :
    Kept pq (logDecision code object from_ to_ value s) := by
  simp (maxDischargeDepth := 20) [logDecision, h]

/-! ### Events.lean -/

@[simp] theorem sendMsix_kept {pq : Before} {s : State} (vector : Nat) (h : Kept pq s) :
    Kept pq (sendMsix vector s) := by
  simp (maxDischargeDepth := 20) [sendMsix, h]

@[simp] theorem signalEvent_kept {pq : Before} {s : State} (h : Kept pq s) :
    Kept pq (signalEvent s) := by
  simp (maxDischargeDepth := 20) [signalEvent, h]

@[simp] theorem writeEvent_kept {pq : Before} {s : State} (e : Event) (h : Kept pq s) :
    Kept pq (writeEvent e s) := by
  unfold writeEvent
  split <;> simp (maxDischargeDepth := 20) [h]

@[simp] theorem loseEvent_kept {pq : Before} {s : State} (e : Event) (h : Kept pq s) :
    Kept pq (loseEvent e s) := by
  simp (maxDischargeDepth := 20) [loseEvent, h]

@[simp] theorem deliverEvent_kept {pq : Before} {s : State} (e : Event) (h : Kept pq s) :
    Kept pq (deliverEvent e s) := by
  simp (maxDischargeDepth := 20) [deliverEvent, h]

@[simp] theorem postEvent_kept {pq : Before} {s : State} (name : EventName) (object : Nat) (details : List Byte) (h : Kept pq s) :
    Kept pq (postEvent name object details s) := by
  simp (maxDischargeDepth := 20) [postEvent, h]

@[simp] theorem drainBuffer_kept {pq : Before} {s : State} (n : Nat) (h : Kept pq s) : Kept pq (drainBuffer n s) := by
  induction n generalizing s with
  | zero => exact h
  | succ n ih => unfold drainBuffer; (repeat' split) <;> simp (maxDischargeDepth := 20) [ih, h]

@[simp] theorem writeEventsLost_kept {pq : Before} {s : State} (h : Kept pq s) :
    Kept pq (writeEventsLost s) := by
  simp (maxDischargeDepth := 20) [writeEventsLost, h]

@[simp] theorem drainEvents_kept {pq : Before} {s : State} (h : Kept pq s) :
    Kept pq (drainEvents s) := by
  simp (maxDischargeDepth := 20) [drainEvents, h]

@[simp] theorem withReady_kept {pq : Before} {s : State} {f : State → State} (hf : ∀ s, Kept pq s → Kept pq (f s))
    (h : Kept pq s) : Kept pq (withReady f s) := by
  simp [withReady, hf s h]

@[simp] theorem setReady_kept {pq : Before} {s : State} (f : Ready → Ready) (h : Kept pq s) : Kept pq (setReady f s) :=
  withReady_kept (fun s h => by simp [h]) h

/-! ### Hif.lean -/

@[simp] theorem modQp_kept {pq : Before} {s : State} (n : Nat) (f : Qp → Qp) (h : Kept pq s) :
    Kept pq (modQp n f s) := by
  simp (maxDischargeDepth := 20) [modQp, h]

@[simp] theorem modOp_kept {pq : Before} {s : State} (k : Nat) (f : Op → Op) (h : Kept pq s) :
    Kept pq (modOp k f s) := by
  simp (maxDischargeDepth := 20) [modOp, h]

@[simp] theorem setOpSt_kept {pq : Before} {s : State} (k : Nat) (st : OpSt) (h : Kept pq s) :
    Kept pq (setOpSt k st s) := by
  simp (maxDischargeDepth := 20) [setOpSt, h]

@[simp] theorem removeOp_kept {pq : Before} {s : State} (k : Nat) (h : Kept pq s) :
    Kept pq (removeOp k s) := by
  simp (maxDischargeDepth := 20) [removeOp, h]

@[simp] theorem signalQp_kept {pq : Before} {s : State} (q : Qp) (h : Kept pq s) :
    Kept pq (signalQp q s) := by
  simp (maxDischargeDepth := 20) [signalQp, h]

@[simp] theorem writeCompletion_kept {pq : Before} {s : State} (op : Op) (st : Status) (resA resB : W64) (skipped : Bool) (h : Kept pq s) :
    Kept pq (writeCompletion op st resA resB skipped s) := by
  unfold writeCompletion
  (repeat' split) <;> simp (maxDischargeDepth := 20) [h]

@[simp] theorem endDelete_kept {pq : Before} {s : State} (n : Nat) (h : Kept pq s) :
    Kept pq (endDelete n s) := by
  unfold endDelete
  (repeat' split) <;> simp (maxDischargeDepth := 20) [h]

@[simp] theorem complete_kept {pq : Before} {s : State} (op : Op) (st : Status) (resA resB : W64) (skipped : Bool) (h : Kept pq s) :
    Kept pq (complete op st resA resB skipped s) := by
  simp (maxDischargeDepth := 20) [complete, h]

@[simp] theorem refuse_kept {pq : Before} {s : State} (op : Op) (st : Status) (h : Kept pq s) :
    Kept pq (refuse op st s) := by
  simp (maxDischargeDepth := 20) [refuse, h]

@[simp] theorem queueAtEngine_kept {pq : Before} {s : State} (e units : Nat) (h : Kept pq s) :
    Kept pq (queueAtEngine e units s) := by
  simp (maxDischargeDepth := 20) [queueAtEngine, h]

@[simp] theorem readTails_kept {pq : Before} {s : State} (g : Nat) (h : Kept pq s) :
    Kept pq (readTails g s) := by
  simp (maxDischargeDepth := 20) [readTails, h]

@[simp] theorem readHeads_kept {pq : Before} {s : State} (g : Nat) (h : Kept pq s) :
    Kept pq (readHeads g s) := by
  simp (maxDischargeDepth := 20) [readHeads, h]

@[simp] theorem rereadTails_kept {pq : Before} {s : State} (g : Nat) (h : Kept pq s) :
    Kept pq (rereadTails g s) := by
  simp (maxDischargeDepth := 20) [rereadTails, h]

@[simp] theorem pollGroup_kept {pq : Before} {s : State} (g : Nat) (h : Kept pq s) :
    Kept pq (pollGroup g s) := by
  simp (maxDischargeDepth := 20) [pollGroup, h]

@[simp] theorem pollGroups_kept {pq : Before} {s : State} (n g : Nat) (h : Kept pq s) : Kept pq (pollGroups n g s) := by
  induction n generalizing g s with
  | zero => exact h
  | succ n ih => exact ih _ (by simp [h])

@[simp] theorem pollEvents_kept {pq : Before} {s : State} (h : Kept pq s) :
    Kept pq (pollEvents s) := by
  simp (maxDischargeDepth := 20) [pollEvents, h]

@[simp] theorem takeDescriptors_kept {pq : Before} {s : State} (n : Nat) (holding : Bool) (qn : Nat) (h : Kept pq s) :
    Kept pq (takeDescriptors n holding qn s) := by
  induction n generalizing holding s with
  | zero => exact h
  | succ n ih => unfold takeDescriptors; split <;> simp (maxDischargeDepth := 20) [ih, h]

@[simp] theorem fetchOnce_kept {pq : Before} {s : State} (h : Kept pq s) : Kept pq (fetchOnce s) := by
  unfold fetchOnce
  split
  · exact h
  · exact takeDescriptors_kept _ _ _ (by simp [h])

@[simp] theorem dispatchFence_kept {pq : Before} {s : State} (q : Nat) (h : Kept pq s) :
    Kept pq (dispatchFence q s) := by
  simp (maxDischargeDepth := 20) [dispatchFence, h]

@[simp] theorem coalesceQp_kept {pq : Before} {s : State} (n : Nat) (h : Kept pq s) :
    Kept pq (coalesceQp n s) := by
  unfold coalesceQp
  split <;> simp (maxDischargeDepth := 20) [h]

@[simp] theorem coalesceEvents_kept {pq : Before} {s : State} (h : Kept pq s) :
    Kept pq (coalesceEvents s) := by
  simp (maxDischargeDepth := 20) [coalesceEvents, h]

@[simp] theorem failFetch_kept {pq : Before} {s : State} (h : Kept pq s) :
    Kept pq (failFetch s) := by
  unfold failFetch
  split <;> simp (maxDischargeDepth := 20) [h]

@[simp] theorem resetHif_kept {pq : Before} {s : State} (linkDown : Bool) (h : Kept pq s) :
    Kept pq (resetHif linkDown s) := by
  simp (maxDischargeDepth := 20) [resetHif, h]

end Sys2Proof.Machine
end

