-- ==== Sys2Proof/Laws/KeptJournal.lean ====
section
/-!
SUPPORT. What every function of Sys2Proof/Machine/Owed.lean, Journal.lean keeps (Sys2Proof/Laws/Kept.lean).
-/
namespace Sys2Proof.Machine

/-! ### Owed.lean -/

@[simp] theorem setCaps_kept {pq : Before} {s : State} (b r capS capB : Nat) (h : Kept pq s) :
    Kept pq (setCaps b r capS capB s) := by
  simp (maxDischargeDepth := 20) [setCaps, h]

@[simp] theorem recomputeCaps_kept {pq : Before} {s : State} (h : Kept pq s) : Kept pq (recomputeCaps s) :=
  setCaps_kept _ _ _ _ h

@[simp] theorem enterEnergyWait_kept {pq : Before} {s : State} (op : Op) (h : Kept pq s) :
    Kept pq (enterEnergyWait op s) := by
  simp (maxDischargeDepth := 20) [enterEnergyWait, h]

@[simp] theorem owe_kept {pq : Before} {s : State} (w : What) (h : Kept pq s) :
    Kept pq (owe w s) := by
  unfold owe
  split <;> simp (maxDischargeDepth := 20) [h]

@[simp] theorem oweBounded_kept {pq : Before} {s : State} (n : Nat) (h : Kept pq s) :
    Kept pq (oweBounded n s) := by
  simp (maxDischargeDepth := 20) [oweBounded, h]

@[simp] theorem releaseBounded_kept {pq : Before} {s : State} (n : Nat) (h : Kept pq s) :
    Kept pq (releaseBounded n s) := by
  simp (maxDischargeDepth := 20) [releaseBounded, h]

@[simp] theorem queueWrite_kept {pq : Before} {s : State} (rank : Nat) (w : What) (h : Kept pq s) :
    Kept pq (queueWrite rank w s) := by
  unfold queueWrite
  split <;> simp (maxDischargeDepth := 20) [h]

@[simp] theorem awaitRecord_kept {pq : Before} {s : State} (op : Op) (w : What) (resA resB : W64) (h : Kept pq s) :
    Kept pq (awaitRecord op w resA resB s) := by
  simp (maxDischargeDepth := 20) [awaitRecord, h]

@[simp] theorem releaseUntil_kept {pq : Before} {s : State} (limit : Nat) (l : List Owed) (h : Kept pq s) :
    Kept pq (releaseUntil limit l s) := by
  induction l generalizing s with
  | nil => exact h
  | cons e l ih => unfold releaseUntil; (repeat' split) <;> simp (maxDischargeDepth := 20) [ih, h]

@[simp] theorem releaseStrict_kept {pq : Before} {s : State} (h : Kept pq s) :
    Kept pq (releaseStrict s) := by
  simp (maxDischargeDepth := 20) [releaseStrict, h]

/-! ### Journal.lean -/

@[simp] theorem modLeaf_kept {pq : Before} {s : State} (n : Nat) (f : Leaf → Leaf) (h : Kept pq s) :
    Kept pq (modLeaf n f s) := by
  simp (maxDischargeDepth := 20) [modLeaf, h]

@[simp] theorem modGroup_kept {pq : Before} {s : State} (g : Nat) (f : Group → Group) (h : Kept pq s) :
    Kept pq (modGroup g f s) := by
  simp (maxDischargeDepth := 20) [modGroup, h]

@[simp] theorem modMirror_kept {pq : Before} {s : State} (i : Nat) (f : Mirror → Mirror) (h : Kept pq s) :
    Kept pq (modMirror i f s) := by
  simp (maxDischargeDepth := 20) [modMirror, h]

@[simp] theorem modSector_kept {pq : Before} {s : State} (bank idx : Nat) (f : Sector → Sector) (h : Kept pq s) :
    Kept pq (modSector bank idx f s) := by
  simp (maxDischargeDepth := 20) [modSector, h]

@[simp] theorem putSlot_kept {pq : Before} {s : State} (bank sector slot : Nat) (bytes : Option (List Byte)) (h : Kept pq s) :
    Kept pq (putSlot bank sector slot bytes s) := by
  simp (maxDischargeDepth := 20) [putSlot, h]

@[simp] theorem takeFresh_kept {pq : Before} {s : State} (x : Sector) (firstSeq : Nat) (h : Kept pq s) :
    Kept pq (takeFresh x firstSeq s) := by
  simp (maxDischargeDepth := 20) [takeFresh, h]

@[simp] theorem shutBank_kept {pq : Before} {s : State} (bank : Nat) (h : Kept pq s) :
    Kept pq (shutBank bank s) := by
  simp (maxDischargeDepth := 20) [shutBank, h]

theorem placeFresh_kept {pq : Before} {s t : State} {bank a b : Nat} {w : Wanted} (h : Kept pq s)
    (e : placeFresh bank w s = some (a, b, t)) : Kept pq t := by
  unfold placeFresh at e
  split at e
  · simp only [Option.map_eq_some_iff, Prod.mk.injEq] at e
    obtain ⟨x, -, -, -, rfl⟩ := e
    have hs : Kept pq (if w.fresh then s else shutBank bank s) := by split <;> simp [h]
    simp [hs]
  · simp at e

theorem placeInBank_kept {pq : Before} {s t : State} {bank a b : Nat} {w : Wanted} (h : Kept pq s)
    (e : placeInBank bank w s = some (a, b, t)) : Kept pq t := by
  unfold placeInBank at e
  split at e
  · simp only [Option.some.injEq, Prod.mk.injEq] at e
    obtain ⟨-, -, rfl⟩ := e
    simp [h]
  · exact placeFresh_kept h e

theorem placeInBanks_kept {pq : Before} {s t : State} {a b c : Nat} {w : Wanted} (l : List Nat) (h : Kept pq s)
    (e : placeInBanks w s l = some (a, b, c, t)) : Kept pq t := by
  induction l with
  | nil => simp [placeInBanks] at e
  | cons x l ih =>
    unfold placeInBanks at e
    split at e
    · simp only [Option.some.injEq, Prod.mk.injEq] at e
      obtain ⟨-, -, -, rfl⟩ := e
      exact placeInBank_kept h ‹_›
    · exact ih e

@[simp] theorem nextTurn_kept {pq : Before} {s : State} (bank rank : Nat) (h : Kept pq s) :
    Kept pq (nextTurn bank rank s) := by
  simp (maxDischargeDepth := 20) [nextTurn, h]

theorem startProgram_kept {pq : Before} {s t : State} {c : CopyWait} (h : Kept pq s) (e : startProgram c s = some t) : Kept pq t := by
  unfold startProgram at e
  split at e
  · split at e
    · simp only [Option.some.injEq] at e
      subst e
      have := placeInBanks_kept _ h ‹_›
      simp [this]
    · simp at e
  · simp at e

@[simp] theorem finishWaiting_kept {pq : Before} {s : State} (id : Nat) (l : List Op) (h : Kept pq s) :
    Kept pq (finishWaiting id l s) := by
  induction l generalizing s with
  | nil => exact h
  | cons op l ih => simp only [finishWaiting]; (repeat' split) <;> simp (maxDischargeDepth := 20) [ih, h]

@[simp] theorem makeCurrent_kept {pq : Before} {s : State} (r : Rec) (h : Kept pq s) :
    Kept pq (makeCurrent r s) := by
  simp (maxDischargeDepth := 20) [makeCurrent, h]

@[simp] theorem countSlots_kept {pq : Before} {s : State} (rank typ slots : Nat) (h : Kept pq s) :
    Kept pq (countSlots rank typ slots s) := by
  simp (maxDischargeDepth := 20) [countSlots, h]

@[simp] theorem effectWritten_kept {pq : Before} {s : State} (j : JWrite) (h : Kept pq s) :
    Kept pq (effectWritten j s) := by
  unfold effectWritten
  split <;> simp (maxDischargeDepth := 20) [h]

@[simp] theorem wearWritten_kept {pq : Before} {s : State} (r : Rec) (h : Kept pq s) :
    Kept pq (wearWritten r s) := by
  unfold wearWritten
  split <;> simp (maxDischargeDepth := 20) [h]

@[simp] theorem recordWritten_kept {pq : Before} {s : State} (one : Bool) (j : JWrite) (r : Rec) (h : Kept pq s) :
    Kept pq (recordWritten one j r s) := by
  unfold recordWritten
  extract_lets _ s1 s2 _ s3
  have h2 : Kept pq s2 := by simp (maxDischargeDepth := 20) [s2, s1, h]
  have h3 : Kept pq s3 := by simp only [s3]; split <;> simp [h2]
  exact finishWaiting_kept _ _ h3

@[simp] theorem storeCopy_kept {pq : Before} {s : State} (bank sector slot : Nat) (r : Rec) (h : Kept pq s) :
    Kept pq (storeCopy bank sector slot r s) := by
  simp (maxDischargeDepth := 20) [storeCopy, h]

@[simp] theorem markTaken_kept {pq : Before} {s : State} (w : What) (id : Nat) (h : Kept pq s) :
    Kept pq (markTaken w id s) := by
  simp (maxDischargeDepth := 20) [markTaken, h]

theorem buildRecord_kept {pq : Before} {s t : State} {j : JWrite} {single : Bool} {r : Rec} (h : Kept pq s)
    (e : buildRecord j single s = some (r, t)) : Kept pq t := by
  unfold buildRecord at e
  split at e
  · simp only [Option.map_eq_some_iff, Prod.mk.injEq] at e
    obtain ⟨_, -, -, rfl⟩ := e
    exact h
  · simp only [Option.map_eq_some_iff, Prod.mk.injEq] at e
    obtain ⟨_, -, -, rfl⟩ := e
    exact h
  · split at e
    · simp only [Option.some.injEq, Prod.mk.injEq] at e
      obtain ⟨-, rfl⟩ := e
      simp [h]
    · simp at e

theorem beginWrite_kept {pq : Before} {s t : State} {j : JWrite} (h : Kept pq s) (e : beginWrite j s = some t) : Kept pq t := by
  simp only [beginWrite] at e
  split at e
  · simp at e
  · split at e
    · simp at e
    · split at e
      · simp at e
      · exact startProgram_kept (buildRecord_kept h ‹_›) e

@[simp] theorem unqueue_kept {pq : Before} {s : State} (id : Nat) (h : Kept pq s) :
    Kept pq (unqueue id s) := by
  simp (maxDischargeDepth := 20) [unqueue, h]

@[simp] theorem beginFirst_kept {pq : Before} {s : State} (l : List JWrite) (h : Kept pq s) : Kept pq (beginFirst l s) := by
  induction l generalizing s with
  | nil => exact h
  | cons j l ih =>
    unfold beginFirst
    split
    · simp (maxDischargeDepth := 20) [ih, h]
    · split
      next t e => simp [beginWrite_kept h e]
      next => exact ih h

@[simp] theorem beginFlushRecord_kept {pq : Before} {s : State} (h : Kept pq s) : Kept pq (beginFlushRecord s) := by
  unfold beginFlushRecord
  split
  · exact h
  · extract_lets j _ s1
    have h1 : Kept pq s1 := by simp [s1, h]
    split
    · simp [h1]
    · split
      next t e => simp [beginWrite_kept h1 e]
      next => exact h

@[simp] theorem buildAgain_kept {pq : Before} {s : State} (j : JWrite) (h : Kept pq s) :
    Kept pq (buildAgain j s) := by
  simp (maxDischargeDepth := 20) [buildAgain, h]

theorem beginWaiting_kept {pq : Before} {s t : State} {c : CopyWait} (h : Kept pq s) (e : beginWaiting c s = some t) : Kept pq t := by
  simp only [beginWaiting] at e
  split at e
  · split at e <;> simp only [Option.some.injEq] at e <;> subst e <;> simp [h]
  · exact startProgram_kept (by simp [h]) e

@[simp] theorem beginEach_kept {pq : Before} {s : State} (l : List CopyWait) (h : Kept pq s) : Kept pq (beginEach l s) := by
  induction l generalizing s with
  | nil => exact h
  | cons c l ih =>
    unfold beginEach
    split
    next t e => exact ih (beginWaiting_kept h e)
    next => exact ih h

@[simp] theorem pumpOnce_kept {pq : Before} {s : State} (h : Kept pq s) : Kept pq (pumpOnce s) := by
  unfold pumpOnce
  split
  · exact h
  · extract_lets s1
    have h1 : Kept pq s1 := by simp [s1, h]
    (repeat' split) <;> simp [h1]

@[simp] theorem pump_kept {pq : Before} {s : State} (h : Kept pq s) :
    Kept pq (pump s) := by
  simp (maxDischargeDepth := 20) [pump, h]

@[simp] theorem shutSector_kept {pq : Before} {s : State} (bank sector : Nat) (h : Kept pq s) :
    Kept pq (shutSector bank sector s) := by
  simp (maxDischargeDepth := 20) [shutSector, h]

@[simp] theorem dropSector_kept {pq : Before} {s : State} (bank sector : Nat) (h : Kept pq s) :
    Kept pq (dropSector bank sector s) := by
  simp (maxDischargeDepth := 20) [dropSector, h]

@[simp] theorem postRefresh_kept {pq : Before} {s : State} (x : Sector) (weak corrected reason : Nat) (first : Option (Nat × Nat)) (h : Kept pq s) :
    Kept pq (postRefresh x weak corrected reason first s) := by
  simp (maxDischargeDepth := 20) [postRefresh, h]

@[simp] theorem forgetHalf_kept {pq : Before} {s : State} (h : Kept pq s) :
    Kept pq (forgetHalf s) := by
  simp (maxDischargeDepth := 20) [forgetHalf, h]

@[simp] theorem takeOut_kept {pq : Before} {s : State} (copyB : Bool) (h : Kept pq s) :
    Kept pq (takeOut copyB s) := by
  simp (maxDischargeDepth := 20) [takeOut, h]

@[simp] theorem noteRetired_kept {pq : Before} {s : State} (copyB : Bool) (h : Kept pq s) :
    Kept pq (noteRetired copyB s) := by
  simp (maxDischargeDepth := 20) [noteRetired, h]

@[simp] theorem retireSector_kept {pq : Before} {s : State} (bank sector : Nat) (h : Kept pq s) :
    Kept pq (retireSector bank sector s) := by
  simp (maxDischargeDepth := 20) [retireSector, h]

@[simp] theorem startErase_kept {pq : Before} {s : State} (bank sector : Nat) (h : Kept pq s) :
    Kept pq (startErase bank sector s) := by
  simp (maxDischargeDepth := 20) [startErase, h]

@[simp] theorem countRefreshed_kept {pq : Before} {s : State} (h : Kept pq s) :
    Kept pq (countRefreshed s) := by
  unfold countRefreshed
  split <;> simp (maxDischargeDepth := 20) [h]

@[simp] theorem finishEmptying_kept {pq : Before} {s : State} (e : Emptying) (h : Kept pq s) : Kept pq (finishEmptying e s) := by
  unfold finishEmptying
  extract_lets _ s1 s2
  have h1 : Kept pq s1 := by simp [s1, h]
  have h2 : Kept pq s2 := by simp only [s2]; split <;> simp (maxDischargeDepth := 20) [h1]
  split <;> simp [h2]

@[simp] theorem tendOne_kept {pq : Before} {s : State} (e : Emptying) (h : Kept pq s) : Kept pq (tendOne s e) := by
  unfold tendOne
  split
  · simp [h]
  · exact kept_foldl (fun _ _ h => by split <;> simp [h]) _ h

@[simp] theorem tendEmptying_kept {pq : Before} {s : State} (h : Kept pq s) : Kept pq (tendEmptying s) :=
  kept_foldl (fun _ _ h => tendOne_kept _ h) _ h

@[simp] theorem startEmptying_kept {pq : Before} {s : State} (e : Emptying) (h : Kept pq s) :
    Kept pq (startEmptying e s) := by
  simp (maxDischargeDepth := 20) [startEmptying, h]

@[simp] theorem stopForward_kept {pq : Before} {s : State} (h : Kept pq s) :
    Kept pq (stopForward s) := by
  simp (maxDischargeDepth := 20) [stopForward, h]

@[simp] theorem abandonForward_kept {pq : Before} {s : State} (h : Kept pq s) :
    Kept pq (abandonForward s) := by
  exact kept_foldl (fun _ _ h => by simp [h]) _ h

@[simp] theorem eraseInvalid_kept {pq : Before} {s : State} (h : Kept pq s) :
    Kept pq (eraseInvalid s) := by
  exact kept_foldl (fun _ _ h => by simp [h]) _ h

@[simp] theorem noteFirst_kept {pq : Before} {s : State} (p : Prog) (h : Kept pq s) :
    Kept pq (noteFirst p s) := by
  unfold noteFirst
  split <;> simp (maxDischargeDepth := 20) [h]

@[simp] theorem copyWhole_kept {pq : Before} {s : State} (p : Prog) (h : Kept pq s) : Kept pq (copyWhole p s) := by
  unfold copyWhole
  extract_lets s1
  have h1 : Kept pq s1 := by simp [s1, h]
  (repeat' split) <;> simp [h1]

@[simp] theorem programFailed_kept {pq : Before} {s : State} (p : Prog) (h : Kept pq s) : Kept pq (programFailed p s) := by
  simp only [programFailed]
  (repeat' split) <;> simp (maxDischargeDepth := 20) [h]

@[simp] theorem endSlot_kept {pq : Before} {s : State} (bank : Nat) (passed : Bool) (h : Kept pq s) :
    Kept pq (endSlot bank passed s) := by
  unfold endSlot
  split <;> simp (maxDischargeDepth := 20) [h]

@[simp] theorem putSlots_kept {pq : Before} {s : State} (bank sector slot : Nat) (r : Rec) (h : Kept pq s) :
    Kept pq (putSlots bank sector slot r s) := by
  exact kept_foldl (fun _ _ h => by simp [h]) _ h

theorem storeNow_kept {pq : Before} {s t : State} {copyB : Bool} {j : JWrite} {r : Rec} (h : Kept pq s)
    (e : storeNow copyB j r s = some t) : Kept pq t := by
  unfold storeNow at e
  split at e
  · simp only [Option.some.injEq] at e
    exact e ▸ h
  · split at e
    · simp only [Option.some.injEq] at e
      subst e
      simp (maxDischargeDepth := 20) [placeInBanks_kept _ h ‹_›]
    · simp at e

theorem tryWrite_kept {pq : Before} {s t : State} {rank : Nat} {w : What} (h : Kept pq s) (e : tryWrite rank w s = some t) :
    Kept pq t := by
  simp only [tryWrite] at e
  split at e
  · simp at e
  next r s1 eb =>
    have h1 : Kept pq s1 := buildRecord_kept (by simp [h]) eb
    split at e
    · simp at e
    · simp only [Option.bind_eq_some_iff, Option.map_eq_some_iff] at e
      obtain ⟨s2, e2, s3, e3, rfl⟩ := e
      simp [storeNow_kept (storeNow_kept h1 e2) e3]

@[simp] theorem writeNow_kept {pq : Before} {s : State} (rank : Nat) (w : What) (h : Kept pq s) : Kept pq (writeNow rank w s) := by
  unfold writeNow
  split
  next t e => exact tryWrite_kept h e
  next => split <;> simp [h]

@[simp] theorem writeAll_kept {pq : Before} {s : State} (rank : Nat) (l : List What) (h : Kept pq s) :
    Kept pq (writeAll rank l s) := by
  induction l generalizing s with
  | nil => exact h
  | cons w l ih => exact ih (writeNow_kept rank w h)

@[simp] theorem queueCatchUp_kept {pq : Before} {s : State} (h : Kept pq s) : Kept pq (queueCatchUp s) :=
  kept_foldl (fun _ _ h => by simp [h]) _ h

@[simp] theorem countCorrected_kept {pq : Before} {s : State} (reads : List SlotRead) (h : Kept pq s) :
    Kept pq (countCorrected reads s) := by
  exact kept_foldl (fun _ _ h => by (repeat' split) <;> simp (maxDischargeDepth := 20) [h]) _ h

@[simp] theorem loseUnreadable_kept {pq : Before} {s : State} (reads : List SlotRead) (both : Bool) (h : Kept pq s) :
    Kept pq (loseUnreadable reads both s) := by
  exact kept_foldl (fun _ _ h => by (repeat' split) <;> simp (maxDischargeDepth := 20) [h]) _ h

end Sys2Proof.Machine
end

