-- ==== Sys2Proof/Laws/KeptTree.lean ====
section
/-!
SUPPORT. What every function of Sys2Proof/Machine/Tree.lean, Safe.lean, Counters.lean, Keys.lean keeps (Sys2Proof/Laws/Kept.lean).
-/
namespace Sys2Proof.Machine

/-! ### Tree.lean -/

@[simp] theorem refreshNodes_kept {pq : Before} {s : State} (g : Nat) (h : Kept pq s) : Kept pq (refreshNodes g s) := by
  obtain ⟨h1, h2, h3, h4, h5, -, h6⟩ := h
  exact ⟨h1, h2, h3, h4, by simpa [refreshNodes] using h5, rfl, h6⟩

@[simp] theorem putLive_kept {pq : Before} {s : State} (g live : Nat) (h : Kept pq s) :
    Kept pq (putLive g live s) := by
  simp (maxDischargeDepth := 20) [putLive, h]

@[simp] theorem markDirty_kept {pq : Before} {s : State} (g : Nat) (h : Kept pq s) :
    Kept pq (markDirty g s) := by
  simp (maxDischargeDepth := 20) [markDirty, h]

@[simp] theorem setLive_kept {pq : Before} {s : State} (g live : Nat) (h : Kept pq s) :
    Kept pq (setLive g live s) := by
  simp (maxDischargeDepth := 20) [setLive, h]

@[simp] theorem recountLive_kept {pq : Before} {s : State} (g : Nat) (h : Kept pq s) :
    Kept pq (recountLive g s) := by
  simp (maxDischargeDepth := 20) [recountLive, h]

@[simp] theorem queueCeiling_kept {pq : Before} {s : State} (g v : Nat) (h : Kept pq s) :
    Kept pq (queueCeiling g v s) := by
  unfold queueCeiling
  (repeat' split) <;> simp (maxDischargeDepth := 20) [h]

@[simp] theorem scheduleCeiling_kept {pq : Before} {s : State} (g : Nat) (h : Kept pq s) :
    Kept pq (scheduleCeiling g s) := by
  unfold scheduleCeiling
  (repeat' split) <;> simp (maxDischargeDepth := 20) [h]

@[simp] theorem queueNeededCeiling_kept {pq : Before} {s : State} (g needed : Nat) (h : Kept pq s) :
    Kept pq (queueNeededCeiling g needed s) := by
  unfold queueNeededCeiling
  (repeat' split) <;> simp (maxDischargeDepth := 20) [h]

@[simp] theorem raiseLeaf_kept {pq : Before} {s : State} (l : Leaf) (v : Nat) (h : Kept pq s) :
    Kept pq (raiseLeaf l v s) := by
  have fold (x : List Nat) (t : State) (h : Kept pq t) : Kept pq (x.foldl (fun s n => oweBounded n s) t) :=
    kept_foldl (fun _ _ h => by simp [h]) x h
  simp (maxDischargeDepth := 20) [raiseLeaf, fold, h]

@[simp] theorem countWork_kept {pq : Before} {s : State} (g units : Nat) (class0 : Bool) (h : Kept pq s) :
    Kept pq (countWork g units class0 s) := by
  simp (maxDischargeDepth := 20) [countWork, h]

@[simp] theorem openGroup_kept {pq : Before} {s : State} (g domain : Nat) (key : W32) (h : Kept pq s) :
    Kept pq (openGroup g domain key s) := by
  simp (maxDischargeDepth := 20) [openGroup, h]

@[simp] theorem returnIfEmpty_kept {pq : Before} {s : State} (g : Nat) (h : Kept pq s) :
    Kept pq (returnIfEmpty g s) := by
  unfold returnIfEmpty
  split <;> simp (maxDischargeDepth := 20) [h]

@[simp] theorem returnEmptied_kept {pq : Before} {s : State} (h : Kept pq s) : Kept pq (returnEmptied s) :=
  kept_foldl (fun _ _ h => by simp [h]) _ h

@[simp] theorem moveLeaf_kept {pq : Before} {s : State} (l : Leaf) (target code : Nat) (defn : Bool) (h : Kept pq s) :
    Kept pq (moveLeaf l target code defn s) := by
  simp (maxDischargeDepth := 20) [moveLeaf, h]

@[simp] theorem admitRepair_kept {pq : Before} {s : State} (n : Nat) (h : Kept pq s) :
    Kept pq (admitRepair n s) := by
  unfold admitRepair
  split <;> simp (maxDischargeDepth := 20) [h]

@[simp] theorem admitRepairs_kept {pq : Before} {s : State} (h : Kept pq s) : Kept pq (admitRepairs s) :=
  kept_foldl (fun _ _ h => by simp [h]) _ h

@[simp] theorem repairFrom_kept {pq : Before} {s : State} (n source : Nat) (h : Kept pq s) :
    Kept pq (repairFrom n source s) := by
  unfold repairFrom
  split <;> simp (maxDischargeDepth := 20) [h]

@[simp] theorem memRepair_kept {pq : Before} {s : State} (object level action leaves value : Nat) (h : Kept pq s) :
    Kept pq (memRepair object level action leaves value s) := by
  simp (maxDischargeDepth := 20) [memRepair, h]

@[simp] theorem repairLeaf_kept {pq : Before} {s : State} (bad : List BadWord) (source : Nat) (l : Leaf) (h : Kept pq s) :
    Kept pq (repairLeaf bad source l s) := by
  simp (maxDischargeDepth := 20) [repairLeaf, h]

@[simp] theorem settleGroup_kept {pq : Before} {s : State} (g : Nat) (h : Kept pq s) : Kept pq (settleGroup g s) :=
  scheduleCeiling_kept _ (kept_foldl (fun _ _ h => by simp [h]) _ (by simp [h]))

@[simp] theorem repairSection_kept {pq : Before} {s : State} (bad : List BadWord) (k : Nat) (h : Kept pq s) :
    Kept pq (repairSection bad k s) := by
  simp only [repairSection]
  exact memRepair_kept _ _ _ _ _ (kept_foldl (fun _ _ h => by simp [h]) _ (kept_foldl (fun _ _ h => by simp [h]) _ h))

@[simp] theorem repairGroup_kept {pq : Before} {s : State} (bad : List BadWord) (g : Nat) (h : Kept pq s) :
    Kept pq (repairGroup bad g s) :=
  memRepair_kept _ _ _ _ _ (settleGroup_kept _ (kept_foldl (fun _ _ h => by simp [h]) _ h))

@[simp] theorem repairOneLeaf_kept {pq : Before} {s : State} (bad : List BadWord) (l : Leaf) (h : Kept pq s) :
    Kept pq (repairOneLeaf bad l s) := by
  simp (maxDischargeDepth := 20) [repairOneLeaf, h]

@[simp] theorem repairShadow_kept {pq : Before} {s : State} (l : Leaf) (h : Kept pq s) :
    Kept pq (repairShadow l s) := by
  simp (maxDischargeDepth := 20) [repairShadow, h]

@[simp] theorem repairEntry_kept {pq : Before} {s : State} (w : BadWord) (h : Kept pq s) :
    Kept pq (repairEntry s w) := by
  unfold repairEntry
  split <;> simp (maxDischargeDepth := 20) [h]

@[simp] theorem repairCopies_kept {pq : Before} {s : State} (bad : List BadWord) (h : Kept pq s) : Kept pq (repairCopies bad s) := by
  unfold repairCopies
  exact kept_foldl (fun _ _ h => by simp [h]) _ (by split <;> simp [h])

@[simp] theorem repairTree_kept {pq : Before} {s : State} (bad : List BadWord) (h : Kept pq s) :
    Kept pq (repairTree bad s) := by
  simp only [repairTree]
  exact repairCopies_kept _ (kept_foldl (fun _ _ h => by simp [h]) _ (kept_foldl (fun _ _ h => by simp [h]) _
    (kept_foldl (fun _ _ h => by simp [h]) _ (kept_foldl (fun _ _ h => by simp [h]) _ h))))

/-! ### Safe.lean -/

@[simp] theorem postDone_kept {pq : Before} {s : State} (m : Maint) (started result value : Nat) (h : Kept pq s) :
    Kept pq (postDone m started result value s) := by
  simp (maxDischargeDepth := 20) [postDone, h]

@[simp] theorem maintDone_kept {pq : Before} {s : State} (m : Maint) (started result value : Nat) (h : Kept pq s) :
    Kept pq (maintDone m started result value s) := by
  simp (maxDischargeDepth := 20) [maintDone, h]

@[simp] theorem modSource_kept {pq : Before} {s : State} (n : Nat) (f : Source → Source) (h : Kept pq s) :
    Kept pq (modSource n f s) := by
  simp (maxDischargeDepth := 20) [modSource, h]

@[simp] theorem returnBlock_kept {pq : Before} {s : State} (block early : Nat) (h : Kept pq s) :
    Kept pq (returnBlock block early s) := by
  simp (maxDischargeDepth := 20) [returnBlock, h]

@[simp] theorem releaseActivity_kept {pq : Before} {s : State} (r : Running) (early : Nat) (h : Kept pq s) :
    Kept pq (releaseActivity r early s) := by
  simp (maxDischargeDepth := 20) [releaseActivity, h]

@[simp] theorem endActivity_kept {pq : Before} {s : State} (result early : Nat) (h : Kept pq s) :
    Kept pq (endActivity result early s) := by
  unfold endActivity
  split <;> simp (maxDischargeDepth := 20) [h]

@[simp] theorem endCatchUp_kept {pq : Before} {s : State} (h : Kept pq s) :
    Kept pq (endCatchUp s) := by
  unfold endCatchUp
  split <;> simp (maxDischargeDepth := 20) [h]

@[simp] theorem refuseWaits_kept {pq : Before} {s : State} (p : Op → Bool) (st : Status) (h : Kept pq s) :
    Kept pq (refuseWaits p st s) :=
  kept_foldl (fun _ _ h => by simp [h]) _ h

@[simp] theorem setSafe_kept {pq : Before} {s : State} (cause : Nat) (h : Kept pq s) :
    Kept pq (setSafe cause s) := by
  simp (maxDischargeDepth := 20) [setSafe, h]

@[simp] theorem enterSafe_kept {pq : Before} {s : State} (cause : Nat) (h : Kept pq s) : Kept pq (enterSafe cause s) := by
  unfold enterSafe
  split
  · exact h
  · refine kept_foldl (fun _ _ h => by simp [h]) _ (refuseWaits_kept _ _ (endActivity_kept _ _ ?_))
    have h2 := tendEmptying_kept (abandonForward_kept (setSafe_kept cause h))
    split <;> simp [h, h2]

@[simp] theorem repairOrSafe_kept {pq : Before} {s : State} (bad : List BadWord) (h : Kept pq s) :
    Kept pq (repairOrSafe bad s) := by
  simp (maxDischargeDepth := 20) [repairOrSafe, h]

/-! ### Counters.lean -/

@[simp] theorem freePlan_run (f : State → State) (s : State) : (freePlan f).run s = f s := rfl

@[simp] theorem chargeWork_kept {pq : Before} {s : State} (op : Op) (g units : Nat) (h : Kept pq s) :
    Kept pq (chargeWork op g units s) := by
  simp (maxDischargeDepth := 20) [chargeWork, h]

@[simp] theorem completeOn_kept {pq : Before} {s : State} (op : Op) (n : Nat) (resA resB : W64) (h : Kept pq s) :
    Kept pq (completeOn op n resA resB s) := by
  unfold completeOn
  split <;> simp (maxDischargeDepth := 20) [h]

@[simp] theorem retireNumber_kept {pq : Before} {s : State} (n : Nat) (h : Kept pq s) :
    Kept pq (retireNumber n s) := by
  simp (maxDischargeDepth := 20) [retireNumber, h]

@[simp] theorem retireSpent_kept {pq : Before} {s : State} (h : Kept pq s) : Kept pq (retireSpent s) := by
  unfold retireSpent
  extract_lets s1
  have h1 : Kept pq s1 := by
    simp only [s1]
    split
    · exact kept_foldl (fun _ _ h => by simp [h]) _ h
    · exact h
  exact kept_foldl (fun _ _ h => by simp [h]) _ h1

theorem takeNumber_kept {pq : Before} {s t : State} {n inc : Nat} (h : Kept pq s) (e : takeNumber s = some (n, inc, t)) :
    Kept pq t := by
  unfold takeNumber at e
  (repeat' split at e) <;> simp only [Option.some.injEq, Prod.mk.injEq, reduceCtorEq] at e <;> obtain ⟨-, -, rfl⟩ := e <;>
    simp [h]

@[simp] theorem placeCounter_kept {pq : Before} {s : State} (op : Op) (cls : Cls) (n inc g : Nat) (h : Kept pq s) :
    Kept pq (placeCounter op cls n inc g s) := by
  simp (maxDischargeDepth := 20) [placeCounter, h]

theorem createPlan_kept {pq : Before} {s t : State} {op : Op} {p : Plan} (e : createPlan op s = .ok p) (h : Kept pq t) :
    Kept pq (p.run t) := by
  simp only [createPlan] at e
  (repeat' split at e) <;> simp only [Except.ok.injEq, reduceCtorEq] at e <;> subst e <;> dsimp only <;> split
  · next n inc t e => simp [takeNumber_kept h e]
  · exact h
  · next n inc t e => simp (maxDischargeDepth := 20) [takeNumber_kept h e]
  · exact h

theorem risePlan_kept {pq : Before} {t : State} {after : State → State × W64 × W64} (op : Op) (l : Leaf) (v units : Nat)
    (s : State) (ha : ∀ s, Kept pq s → Kept pq (after s).1) (h : Kept pq t) :
    Kept pq ((risePlan op l v units after s).run t) := by
  simp (maxDischargeDepth := 20) [risePlan, ha, h]

theorem reservePlan_kept {pq : Before} {s t : State} {op : Op} {p : Plan} (e : reservePlan op s = .ok p) (h : Kept pq t) :
    Kept pq (p.run t) := by
  simp only [reservePlan, bind, Except.bind] at e
  (repeat' split at e) <;> simp only [Except.ok.injEq, reduceCtorEq] at e
  subst e
  exact risePlan_kept _ _ _ _ _ (fun _ h => h) h

theorem advancePlan_kept {pq : Before} {s t : State} {op : Op} {p : Plan} (e : advancePlan op s = .ok p) (h : Kept pq t) :
    Kept pq (p.run t) := by
  simp only [advancePlan, bind, Except.bind] at e
  (repeat' split at e) <;> simp only [Except.ok.injEq, reduceCtorEq] at e
  subst e
  exact risePlan_kept _ _ _ _ _ (fun _ h => h) h

theorem raisePlan_kept {pq : Before} {s t : State} {op : Op} {p : Plan} (e : raisePlan op s = .ok p) (h : Kept pq t) :
    Kept pq (p.run t) := by
  simp only [raisePlan, bind, Except.bind] at e
  (repeat' split at e) <;> simp only [Except.ok.injEq, reduceCtorEq] at e <;> subst e
  · simp (maxDischargeDepth := 20) [h]
  · exact risePlan_kept _ _ _ _ _ (fun _ h => h) h

@[simp] theorem countReport_kept {pq : Before} {s : State} (domain : Nat) (peer : W32) (cause n : Nat) (assoc : W32)
    (h : Kept pq s) : Kept pq (countReport domain peer cause n assoc s).1 := by
  simp only [countReport]
  (repeat' split) <;> simp [h]

@[simp] theorem closeWindow_kept {pq : Before} {s : State} (w : Window) (h : Kept pq s) :
    Kept pq (closeWindow w s) := by
  simp (maxDischargeDepth := 20) [closeWindow, h]

@[simp] theorem closeWindows_kept {pq : Before} {s : State} (ws : List Window) (h : Kept pq s) :
    Kept pq (closeWindows ws s) :=
  kept_foldl (fun _ _ h => by simp [h]) _ h

theorem faultReportPlan_kept {pq : Before} {s t : State} {op : Op} {p : Plan} (e : faultReportPlan op s = .ok p)
    (h : Kept pq t) : Kept pq (p.run t) := by
  simp only [faultReportPlan, bind, Except.bind] at e
  (repeat' split at e) <;> simp only [Except.ok.injEq, reduceCtorEq] at e <;> subst e <;>
    exact risePlan_kept _ _ _ _ _ (fun _ h => countReport_kept _ _ _ _ _ h) h

theorem readPlan_kept {pq : Before} {s t : State} {op : Op} {p : Plan} (e : readPlan op s = .ok p) (h : Kept pq t) :
    Kept pq (p.run t) := by
  simp only [readPlan] at e
  (repeat' split at e) <;> simp only [Except.ok.injEq, reduceCtorEq] at e <;> subst e <;>
    simp (maxDischargeDepth := 20) [h]

theorem groupReadPlan_kept {pq : Before} {s t : State} {op : Op} {p : Plan} (e : groupReadPlan op s = .ok p)
    (h : Kept pq t) : Kept pq (p.run t) := by
  simp only [groupReadPlan, bind, Except.bind] at e
  (repeat' split at e) <;> simp only [Except.ok.injEq, reduceCtorEq] at e
  subst e
  simp (maxDischargeDepth := 20) [h]

@[simp] theorem closeLeaf_kept {pq : Before} {s : State} (l : Leaf) (h : Kept pq s) :
    Kept pq (closeLeaf l s) := by
  simp (maxDischargeDepth := 20) [closeLeaf, h]

theorem closePlan_kept {pq : Before} {s t : State} {op : Op} {p : Plan} (e : closePlan op s = .ok p) (h : Kept pq t) :
    Kept pq (p.run t) := by
  simp only [closePlan, bind, Except.bind] at e
  (repeat' split at e) <;> simp only [Except.ok.injEq, reduceCtorEq] at e
  subst e
  simp (maxDischargeDepth := 20) [h]

@[simp] theorem setClass_kept {pq : Before} {s : State} (l : Leaf) (cls : Cls) (b : Nat) (h : Kept pq s) :
    Kept pq (setClass l cls b s) := by
  simp (maxDischargeDepth := 20) [setClass, h]

@[simp] theorem finishReclass_kept {pq : Before} {s : State} (op : Op) (l : Leaf) (cls : Cls) (h : Kept pq s) :
    Kept pq (finishReclass op l cls s) := by
  simp (maxDischargeDepth := 20) [finishReclass, h]

@[simp] theorem openForMove_kept {pq : Before} {s : State} (g : Nat) (l : Leaf) (h : Kept pq s) :
    Kept pq (openForMove g l s) := by
  simp (maxDischargeDepth := 20) [openForMove, h]

theorem reclassPlan_kept {pq : Before} {s t : State} {op : Op} {p : Plan} (e : reclassPlan op s = .ok p) (h : Kept pq t) :
    Kept pq (p.run t) := by
  simp only [reclassPlan, bind, Except.bind] at e
  (repeat' split at e) <;> simp only [Except.ok.injEq, reduceCtorEq] at e <;> subst e <;>
    simp (maxDischargeDepth := 20) [h]

@[simp] theorem openForReclass_kept {pq : Before} {s : State} (op : Op) (h : Kept pq s) :
    Kept pq (openForReclass op s) := by
  unfold openForReclass
  (repeat' split) <;> simp (maxDischargeDepth := 20) [h]

theorem ctrPlan_kept {pq : Before} {s t : State} {op : Op} {p : Plan} (e : ctrPlan op s = .ok p) (h : Kept pq t) :
    Kept pq (p.run t) := by
  unfold ctrPlan at e
  split at e
  · exact createPlan_kept e h
  · exact readPlan_kept e h
  · exact advancePlan_kept e h
  · exact reservePlan_kept e h
  · exact raisePlan_kept e h
  · exact closePlan_kept e h
  · exact reclassPlan_kept e h
  · exact groupReadPlan_kept e h
  · exact faultReportPlan_kept e h

/-! ### Keys.lean -/

@[simp] theorem setKid_kept {pq : Before} {s : State} (x : Kid) (h : Kept pq s) :
    Kept pq (setKid x s) := by
  simp (maxDischargeDepth := 20) [setKid, h]

theorem allocPlan_kept {pq : Before} {s t : State} {op : Op} {x : Kid} {p : Plan} (e : allocPlan op x s = .ok p)
    (h : Kept pq t) : Kept pq (p.run t) := by
  simp only [allocPlan] at e
  (repeat' split at e) <;> simp only [Except.ok.injEq, reduceCtorEq] at e <;> subst e <;>
    simp (maxDischargeDepth := 20) [h]

theorem beginPlan_kept {pq : Before} {s t : State} {op : Op} {x : Kid} {p : Plan} (e : beginPlan op x s = .ok p)
    (h : Kept pq t) : Kept pq (p.run t) := by
  simp only [beginPlan] at e
  (repeat' split at e) <;> simp only [Except.ok.injEq, reduceCtorEq] at e <;> subst e <;>
    simp (maxDischargeDepth := 20) [h]

theorem flushedPlan_kept {pq : Before} {s t : State} {op : Op} {x : Kid} {p : Plan} (e : flushedPlan op x s = .ok p)
    (h : Kept pq t) : Kept pq (p.run t) := by
  simp only [flushedPlan] at e
  (repeat' split at e) <;> simp only [Except.ok.injEq, reduceCtorEq] at e <;> subst e <;>
    simp (maxDischargeDepth := 20) [h]

@[simp] theorem finishCommit_kept {pq : Before} {s : State} (op : Op) (x : Kid) (h : Kept pq s) :
    Kept pq (finishCommit op x s) := by
  simp (maxDischargeDepth := 20) [finishCommit, h]

theorem commitPlan_kept {pq : Before} {s t : State} {op : Op} {x : Kid} {p : Plan} (e : commitPlan op x s = .ok p)
    (h : Kept pq t) : Kept pq (p.run t) := by
  simp only [commitPlan] at e
  (repeat' split at e) <;> simp only [Except.ok.injEq, reduceCtorEq] at e <;> subst e <;>
    simp (maxDischargeDepth := 20) [h]

theorem kidReadPlan_kept {pq : Before} {t : State} (op : Op) (x : Kid) (h : Kept pq t) :
    Kept pq ((kidReadPlan op x).run t) := by
  simp [kidReadPlan, h]

theorem kidPlan_kept {pq : Before} {s t : State} {op : Op} {p : Plan} (e : kidPlan op s = .ok p) (h : Kept pq t) :
    Kept pq (p.run t) := by
  simp only [kidPlan] at e
  split at e
  · simp at e
  · split at e
    · exact allocPlan_kept e h
    · exact beginPlan_kept e h
    · exact flushedPlan_kept e h
    · exact commitPlan_kept e h
    · simp only [Except.ok.injEq] at e
      exact e ▸ kidReadPlan_kept _ _ h

@[simp] theorem setPage_kept {pq : Before} {s : State} (x : Page) (h : Kept pq s) :
    Kept pq (setPage x s) := by
  simp (maxDischargeDepth := 20) [setPage, h]

@[simp] theorem loadPage_kept {pq : Before} {s : State} (reads : List SlotRead) (p : Nat) (h : Kept pq s) :
    Kept pq (loadPage reads p s) := by
  unfold loadPage
  split <;> simp (maxDischargeDepth := 20) [h]

@[simp] theorem noteImageErrors_kept {pq : Before} {s : State} (p : Nat) (corrected uncorrectable : List Nat) (h : Kept pq s) :
    Kept pq (noteImageErrors p corrected uncorrectable s) := by
  simp (maxDischargeDepth := 20) [noteImageErrors, h]

theorem paramReadPlan_kept {pq : Before} {s t : State} {op : Op} {p : Plan} (e : paramReadPlan op s = .ok p)
    (h : Kept pq t) : Kept pq (p.run t) := by
  simp only [paramReadPlan] at e
  split at e <;> simp only [Except.ok.injEq, reduceCtorEq] at e
  subst e
  simp [h]

theorem paramWritePlan_kept {pq : Before} {s t : State} {op : Op} {p : Plan} (e : paramWritePlan op s = .ok p)
    (h : Kept pq t) : Kept pq (p.run t) := by
  simp only [paramWritePlan, Except.ok.injEq] at e
  subst e
  simp (maxDischargeDepth := 20) [h]

@[simp] theorem syncPage_kept {pq : Before} {s : State} (p : Nat) (h : Kept pq s) : Kept pq (syncPage p s).2 := by
  simp only [syncPage]
  (repeat' split) <;> simp [h]

@[simp] theorem syncPages_kept {pq : Before} {s : State} (l : List Nat) (h : Kept pq s) : Kept pq (syncPages l s).2 := by
  induction l generalizing s with
  | nil => exact h
  | cons p l ih => simp [syncPages, ih, h]

theorem paramSyncPlan_kept {pq : Before} {t : State} (op : Op) (h : Kept pq t) : Kept pq ((paramSyncPlan op).run t) := by
  simp [paramSyncPlan, h]

theorem paramPlan_kept {pq : Before} {s t : State} {op : Op} {p : Plan} (e : paramPlan op s = .ok p) (h : Kept pq t) :
    Kept pq (p.run t) := by
  unfold paramPlan at e
  split at e
  · simp at e
  · split at e
    · exact paramReadPlan_kept e h
    · exact paramWritePlan_kept e h
    · simp only [Except.ok.injEq] at e
      exact e ▸ paramSyncPlan_kept _ h

end Sys2Proof.Machine
end

