-- ==== Sys2Proof/Laws/KeptRandom.lean ====
section
/-!
SUPPORT. What every function of Sys2Proof/Machine/Random.lean keeps (Sys2Proof/Laws/Kept.lean).
-/
namespace Sys2Proof.Machine

/-! ### Random.lean -/

@[simp] theorem updateRandom_kept {pq : Before} {s : State} (h : Kept pq s) :
    Kept pq (updateRandom s) := by
  simp (maxDischargeDepth := 20) [updateRandom, h]

@[simp] theorem postExhausted_kept {pq : Before} {s : State} (c : Nat) (h : Kept pq s) :
    Kept pq (postExhausted c s) := by
  simp (maxDischargeDepth := 20) [postExhausted, h]

@[simp] theorem postSwitch_kept {pq : Before} {s : State} (x : Source) (replacement cause : Nat) (h : Kept pq s) :
    Kept pq (postSwitch x replacement cause s) := by
  simp (maxDischargeDepth := 20) [postSwitch, h]

@[simp] theorem recallDrained_kept {pq : Before} {s : State} (c : Nat) (h : Kept pq s) :
    Kept pq (recallDrained c s) := by
  unfold recallDrained
  split <;> simp (maxDischargeDepth := 20) [h]

@[simp] theorem withoutSpare_kept {pq : Before} {s : State} (c : Nat) (h : Kept pq s) :
    Kept pq (withoutSpare c s) := by
  simp (maxDischargeDepth := 20) [withoutSpare, h]

@[simp] theorem retireActive_kept {pq : Before} {s : State} (x : Source) (h : Kept pq s) :
    Kept pq (retireActive x s) := by
  simp only [retireActive]
  (repeat' split) <;> simp (maxDischargeDepth := 20) [h]

@[simp] theorem retireSpare_kept {pq : Before} {s : State} (c : Nat) (h : Kept pq s) :
    Kept pq (retireSpare c s) := by
  simp only [retireSpare]
  (repeat' split) <;> simp (maxDischargeDepth := 20) [h]

@[simp] theorem dropUntested_kept {pq : Before} {s : State} (x : Source) (h : Kept pq s) :
    Kept pq (dropUntested x s) := by
  simp (maxDischargeDepth := 20) [dropUntested, h]

@[simp] theorem joinClass_kept {pq : Before} {s : State} (c : Nat) (h : Kept pq s) :
    Kept pq (joinClass c s) := by
  unfold joinClass
  (repeat' split) <;> simp (maxDischargeDepth := 20) [h]

@[simp] theorem releaseS_kept {pq : Before} {s : State} (h : Kept pq s) : Kept pq (releaseS s) := by
  unfold releaseS
  split
  · exact h
  · exact kept_foldl (fun _ _ h => by simp [h]) _ (by simp [h])

@[simp] theorem passStartup_kept {pq : Before} {s : State} (c : Nat) (h : Kept pq s) :
    Kept pq (passStartup c s) := by
  simp (maxDischargeDepth := 20) [passStartup, h]

@[simp] theorem failStartup_kept {pq : Before} {s : State} (x : Source) (h : Kept pq s) :
    Kept pq (failStartup x s) := by
  simp only [failStartup]
  (repeat' split) <;> simp (maxDischargeDepth := 20) [h]

@[simp] theorem endStartupTest_kept {pq : Before} {s : State} (c : Nat) (alarms : List Nat) (h : Kept pq s) :
    Kept pq (endStartupTest c alarms s) := by
  unfold endStartupTest
  split <;> simp (maxDischargeDepth := 20) [h]

@[simp] theorem raiseAlarm_kept {pq : Before} {s : State} (x : Source) (sample : Nat) (h : Kept pq s) :
    Kept pq (raiseAlarm x sample s) := by
  simp (maxDischargeDepth := 20) [raiseAlarm, h]

@[simp] theorem healthAlarm_kept {pq : Before} {s : State} (c : Nat) (test : HealthTest) (count sample : Nat) (h : Kept pq s) :
    Kept pq (healthAlarm c test count sample s) := by
  unfold healthAlarm
  split <;> simp (maxDischargeDepth := 20) [h]

@[simp] theorem loseWindow_kept {pq : Before} {s : State} (classS : Bool) (start : Nat) (xs : List Source) (h : Kept pq s) :
    Kept pq (loseWindow classS start xs s) := by
  exact kept_foldl (fun _ _ h => by simp [h]) _ h

@[simp] theorem addWindow_kept {pq : Before} {s : State} (classS : Bool) (start : Nat) (given : List (Nat × Nat)) (xs : List Source) (h : Kept pq s) :
    Kept pq (addWindow classS start given xs s) := by
  simp (maxDischargeDepth := 20) [addWindow, h]

@[simp] theorem switchIn_kept {pq : Before} {s : State} (classS : Bool) (h : Kept pq s) : Kept pq (switchIn classS s) :=
  kept_foldl (fun _ _ h => by dsimp only; split <;> simp [h]) _ h

@[simp] theorem swapIn_kept {pq : Before} {s : State} (classS : Bool) (h : Kept pq s) :
    Kept pq (swapIn classS s) := by
  exact kept_foldl (fun _ _ h => by (repeat' split) <;> simp (maxDischargeDepth := 20) [h]) _ h

@[simp] theorem windowBoundary_kept {pq : Before} {s : State} (classS : Bool) (given : List (Nat × Nat)) (h : Kept pq s) :
    Kept pq (windowBoundary classS given s) := by
  simp (maxDischargeDepth := 20) [windowBoundary, h]

@[simp] theorem joinQueues_kept {pq : Before} {s : State} (h : Kept pq s) :
    Kept pq (joinQueues s) := by
  simp (maxDischargeDepth := 20) [joinQueues, h]

@[simp] theorem closeAptWindow_kept {pq : Before} {s : State} (c : Nat) (h : Kept pq s) :
    Kept pq (closeAptWindow c s) := by
  unfold closeAptWindow
  split <;> simp (maxDischargeDepth := 20) [h]

@[simp] theorem giveInternal_kept {pq : Before} {s : State} (d : Internal8) (e : W384) (h : Kept pq s) :
    Kept pq (giveInternal d e s) := by
  simp (maxDischargeDepth := 20) [giveInternal, h]

@[simp] theorem serveInternals_kept {pq : Before} {s : State} (n : Nat) (h : Kept pq s) : Kept pq (serveInternals n s) := by
  induction n generalizing s with
  | zero => exact h
  | succ n ih => simp only [serveInternals]; (repeat' split) <;> simp [ih, h]

@[simp] theorem modDrbg_kept {pq : Before} {s : State} (n : Nat) (f : Drbg → Drbg) (h : Kept pq s) :
    Kept pq (modDrbg n f s) := by
  simp (maxDischargeDepth := 20) [modDrbg, h]

theorem takeInstance_kept {pq : Before} {s t : State} {n inc : Nat} (h : Kept pq s)
    (e : takeInstance s = some (n, inc, t)) : Kept pq t := by
  unfold takeInstance at e
  (repeat' split at e) <;> simp only [Option.some.injEq, Prod.mk.injEq, reduceCtorEq] at e <;> obtain ⟨-, -, rfl⟩ := e <;>
    simp [h]

@[simp] theorem generate_kept {pq : Before} {s : State} (op : Op) (d : Drbg) (state : W384) (input : List Byte) (requests : Nat) (fresh : Bool) (h : Kept pq s) :
    Kept pq (generate op d state input requests fresh s) := by
  simp (maxDischargeDepth := 20) [generate, h]

@[simp] theorem drbgWithEntry_kept {pq : Before} {s : State} (op : Op) (x : W384) (h : Kept pq s) :
    Kept pq (drbgWithEntry op x s) := by
  simp only [drbgWithEntry]
  split
  · split
    · simp [h]
    next e => simp [takeInstance_kept h e]
  · split
    · simp [h]
    · simp (maxDischargeDepth := 20) [h]

@[simp] theorem serveHost_kept {pq : Before} {s : State} (n : Nat) (h : Kept pq s) : Kept pq (serveHost n s) := by
  induction n generalizing s with
  | zero => exact h
  | succ n ih => simp only [serveHost]; (repeat' split) <;> simp [ih, h]

@[simp] theorem drbgRun_kept {pq : Before} {s : State} (op : Op) (h : Kept pq s) : Kept pq (drbgRun op s) := by
  simp only [drbgRun]
  (repeat' split) <;> simp [h]

@[simp] theorem autoReseed_kept {pq : Before} {s : State} (h : Kept pq s) :
    Kept pq (autoReseed s) := by
  unfold autoReseed
  split <;> simp (maxDischargeDepth := 20) [h]

@[simp] theorem exchangeSource_kept {pq : Before} {s : State} (h : Kept pq s) :
    Kept pq (exchangeSource s) := by
  simp only [exchangeSource]
  (repeat' split) <;> simp (maxDischargeDepth := 20) [h]

end Sys2Proof.Machine
end

