-- ==== Sys2Proof/Laws/KeptHalyards.lean ====
section
/-!
SUPPORT. What every function of Sys2Proof/Machine/Line.lean, Needs.lean, Chains.lean, Waits.lean keeps (Sys2Proof/Laws/Kept.lean).
-/
namespace Sys2Proof.Machine

/-! ### Line.lean -/

@[simp] theorem modPort_kept {pq : Before} {s : State} (p : Nat) (f : Port → Port) (h : Kept pq s) :
    Kept pq (modPort p f s) := by
  simp (maxDischargeDepth := 20) [modPort, h]

@[simp] theorem sendTx_kept {pq : Before} {s : State} (p : Nat) (txs : List Tx) (h : Kept pq s) :
    Kept pq (sendTx p txs s) := by
  unfold sendTx
  split <;> simp (maxDischargeDepth := 20) [h]

@[simp] theorem sendMarks_kept {pq : Before} {s : State} (p gap n : Nat) (presence : Bool) (h : Kept pq s) :
    Kept pq (sendMarks p gap n presence s) := by
  simp (maxDischargeDepth := 20) [sendMarks, h]

theorem takeChallenge_kept {pq : Before} {s t : State} {l : List Need} {c : W128} (h : Kept pq s)
    (e : takeChallenge l s = some (c, t)) : Kept pq t := by
  unfold takeChallenge at e
  (repeat' split at e) <;> simp only [Option.some.injEq, Prod.mk.injEq, reduceCtorEq] at e <;> obtain ⟨-, rfl⟩ := e <;>
    simp [h]

@[simp] theorem noteSide_kept {pq : Before} {s : State} (payload : List Byte) (h : Kept pq s) :
    Kept pq (noteSide payload s) := by
  simp (maxDischargeDepth := 20) [noteSide, h]

/-! ### Needs.lean -/

theorem objectPlan_kept {pq : Before} {s t : State} {op : Op} {p : Plan} (e : objectPlan op s = .ok p) (h : Kept pq t) :
    Kept pq (p.run t) := by
  unfold objectPlan at e
  split at e
  · exact ctrPlan_kept e h
  · split at e
    · exact kidPlan_kept e h
    · exact paramPlan_kept e h

/-! ### Chains.lean -/

@[simp] theorem modPos_kept {pq : Before} {s : State} (p i : Nat) (f : Pos → Pos) (h : Kept pq s) :
    Kept pq (modPos p i f s) := by
  simp (maxDischargeDepth := 20) [modPos, h]

@[simp] theorem setAct_kept {pq : Before} {s : State} (p : Nat) (a : Act) (h : Kept pq s) :
    Kept pq (setAct p a s) := by
  simp (maxDischargeDepth := 20) [setAct, h]

@[simp] theorem chargePort_kept {pq : Before} {s : State} (p : Nat) (h : Kept pq s) :
    Kept pq (chargePort p s) := by
  simp (maxDischargeDepth := 20) [chargePort, h]

@[simp] theorem tryCharge_kept {pq : Before} {s : State} (p : Nat) (h : Kept pq s) :
    Kept pq (tryCharge p s) := by
  unfold tryCharge
  split <;> simp (maxDischargeDepth := 20) [h]

@[simp] theorem checkHalyard_kept {pq : Before} {s : State} (h : Kept pq s) :
    Kept pq (checkHalyard s) := by
  simp (maxDischargeDepth := 20) [checkHalyard, h]

@[simp] theorem postAuthFail_kept {pq : Before} {s : State} (p i reason : Nat) (h : Kept pq s) :
    Kept pq (postAuthFail p i reason s) := by
  unfold postAuthFail
  split <;> simp (maxDischargeDepth := 20) [h]

@[simp] theorem postUnplug_kept {pq : Before} {s : State} (p : Nat) (lost : List Nat) (oldEpoch newEpoch : W32) (reason : Nat) (h : Kept pq s) :
    Kept pq (postUnplug p lost oldEpoch newEpoch reason s) := by
  unfold postUnplug
  split <;> simp (maxDischargeDepth := 20) [h]

@[simp] theorem postPortFault_kept {pq : Before} {s : State} (p cause res takes pos : Nat) (h : Kept pq s) :
    Kept pq (postPortFault p cause res takes pos s) := by
  unfold postPortFault
  split <;> simp (maxDischargeDepth := 20) [h]

@[simp] theorem postPlug_kept {pq : Before} {s : State} (p : Nat) (y : Pos) (flags : Nat) (h : Kept pq s) :
    Kept pq (postPlug p y flags s) := by
  unfold postPlug
  split <;> simp (maxDischargeDepth := 20) [h]

@[simp] theorem putMirror_kept {pq : Before} {s : State} (m : Mirror) (h : Kept pq s) :
    Kept pq (putMirror m s) := by
  simp (maxDischargeDepth := 20) [putMirror, h]

@[simp] theorem deauth_kept {pq : Before} {s : State} (p i : Nat) (h : Kept pq s) :
    Kept pq (deauth p i s) := by
  simp (maxDischargeDepth := 20) [deauth, h]

@[simp] theorem keepPresent_kept {pq : Before} {s : State} (idx : Nat) (h : Kept pq s) :
    Kept pq (keepPresent idx s) := by
  simp (maxDischargeDepth := 20) [keepPresent, h]

@[simp] theorem applyCount_kept {pq : Before} {s : State} (p i c : Nat) (h : Kept pq s) :
    Kept pq (applyCount p i c s).2 := by
  simp only [applyCount]
  (repeat' split) <;> simp (maxDischargeDepth := 20) [h]

@[simp] theorem applyIdent_kept {pq : Before} {s : State} (p i : Nat) (first inexact : Bool) (limit : Option Nat) (h : Kept pq s) :
    Kept pq (applyIdent p i first inexact limit s) := by
  unfold applyIdent
  split <;> simp (maxDischargeDepth := 20) [h]

@[simp] theorem changeMirror_kept {pq : Before} {s : State} (serial : W64) (f : Mirror → Mirror) (h : Kept pq s) :
    Kept pq (changeMirror serial f s) := by
  unfold changeMirror
  split <;> simp (maxDischargeDepth := 20) [h]

@[simp] theorem clearPresent_kept {pq : Before} {s : State} (idx : Nat) (h : Kept pq s) :
    Kept pq (clearPresent idx s) := by
  simp (maxDischargeDepth := 20) [clearPresent, h]

@[simp] theorem retryClearing_kept {pq : Before} {s : State} (h : Kept pq s) :
    Kept pq (retryClearing s) := by
  exact kept_foldl (fun _ _ h => by simp [h]) _ h

@[simp] theorem dropPresent_kept {pq : Before} {s : State} (p : Nat) (keep : List W64) (h : Kept pq s) :
    Kept pq (dropPresent p keep s) := by
  exact kept_foldl (fun _ _ h => by simp [h]) _ h

@[simp] theorem sendExch_kept {pq : Before} {s : State} (p : Nat) (x : Exch) (h : Kept pq s) :
    Kept pq (sendExch p x s) := by
  simp (maxDischargeDepth := 20) [sendExch, h]

@[simp] theorem sendWith_kept {pq : Before} {s : State} (p : Nat) (x : Exch) (challenge : W128) (h : Kept pq s) :
    Kept pq (sendWith p x challenge s) := by
  simp (maxDischargeDepth := 20) [sendWith, h]

@[simp] theorem beginExch_kept {pq : Before} {s : State} (p : Nat) (x : Exch) (h : Kept pq s) : Kept pq (beginExch p x s) := by
  unfold beginExch
  split
  · simp [h]
  · split
    next e => simp [takeChallenge_kept h e]
    next => simp (maxDischargeDepth := 20) [h]

@[simp] theorem startTake_kept {pq : Before} {s : State} (p : Nat) (h : Kept pq s) :
    Kept pq (startTake p s) := by
  simp (maxDischargeDepth := 20) [startTake, h]

@[simp] theorem beginSeries_kept {pq : Before} {s : State} (p : Nat) (h : Kept pq s) :
    Kept pq (beginSeries p s) := by
  unfold beginSeries
  (repeat' split) <;> simp (maxDischargeDepth := 20) [h]

@[simp] theorem wantSeries_kept {pq : Before} {s : State} (p : Nat) (why : SlateWhy) (k : Nat) (ops : List Nat) (h : Kept pq s) :
    Kept pq (wantSeries p why k ops s) := by
  simp (maxDischargeDepth := 20) [wantSeries, h]

@[simp] theorem startSweep_kept {pq : Before} {s : State} (p : Nat) (earlier : List SweepRes) (h : Kept pq s) :
    Kept pq (startSweep p earlier s) := by
  simp (maxDischargeDepth := 20) [startSweep, h]

@[simp] theorem refuseOps_kept {pq : Before} {s : State} (ks : List Nat) (st : Status) (h : Kept pq s) :
    Kept pq (refuseOps ks st s) := by
  exact kept_foldl (fun _ _ h => by (repeat' split) <;> simp (maxDischargeDepth := 20) [h]) _ h

@[simp] theorem clearWork_kept {pq : Before} {s : State} (p : Nat) (h : Kept pq s) :
    Kept pq (clearWork p s) := by
  simp (maxDischargeDepth := 20) [clearWork, h]

@[simp] theorem losePositions_kept {pq : Before} {s : State} (p reason : Nat) (h : Kept pq s) :
    Kept pq (losePositions p reason s) := by
  unfold losePositions
  split <;> simp (maxDischargeDepth := 20) [h]

@[simp] theorem endPowerOff_kept {pq : Before} {s : State} (p : Nat) (h : Kept pq s) : Kept pq (endPowerOff p s) := by
  unfold endPowerOff
  split
  · exact h
  · exact kept_foldl (fun _ _ h => by simp [h]) _ h

@[simp] theorem goDown_kept {pq : Before} {s : State} (p : Nat) (h : Kept pq s) :
    Kept pq (goDown p s) := by
  unfold goDown
  split <;> simp (maxDischargeDepth := 20) [h]

@[simp] theorem applyPower_kept {pq : Before} {s : State} (op : Op) (p : Nat) (h : Kept pq s) :
    Kept pq (applyPower op p s) := by
  simp only [applyPower]
  (repeat' split) <;> simp (maxDischargeDepth := 20) [h]

@[simp] theorem dropHead_kept {pq : Before} {s : State} (p : Nat) (h : Kept pq s) :
    Kept pq (dropHead p s) := by
  simp (maxDischargeDepth := 20) [dropHead, h]

@[simp] theorem startConsume_kept {pq : Before} {s : State} (op : Op) (p : Nat) (h : Kept pq s) :
    Kept pq (startConsume op p s).2 := by
  simp only [startConsume]
  (repeat' split) <;> simp (maxDischargeDepth := 20) [h]

@[simp] theorem startHost_kept {pq : Before} {s : State} (n p : Nat) (h : Kept pq s) : Kept pq (startHost n p s).2 := by
  induction n generalizing s with
  | zero => exact h
  | succ n ih => simp only [startHost]; (repeat' split) <;> simp (maxDischargeDepth := 20) [ih, h]

@[simp] theorem startAuth_kept {pq : Before} {s : State} (p : Nat) (y : Pos) (h : Kept pq s) :
    Kept pq (startAuth p y s) := by
  simp (maxDischargeDepth := 20) [startAuth, h]

@[simp] theorem startNext_kept {pq : Before} {s : State} (p : Nat) (h : Kept pq s) : Kept pq (startNext p s) := by
  unfold startNext
  split
  · exact h
  next x _ =>
    have hs := startHost_kept (x.queue.length + 1) p h
    generalize startHost (x.queue.length + 1) p s = r at hs
    obtain ⟨b, s1⟩ := r
    simp only at hs
    cases b <;> (repeat' split) <;> simp_all

@[simp] theorem serveAll_kept {pq : Before} {s : State} (h : Kept pq s) :
    Kept pq (serveAll s) := by
  exact kept_foldl (fun _ _ h => by simp [h]) _ h

@[simp] theorem finishAct_kept {pq : Before} {s : State} (p : Nat) (h : Kept pq s) :
    Kept pq (finishAct p s) := by
  simp (maxDischargeDepth := 20) [finishAct, h]

@[simp] theorem nextExch_kept {pq : Before} {s : State} (p : Nat) (x : Exch) (h : Kept pq s) :
    Kept pq (nextExch p x s) := by
  simp (maxDischargeDepth := 20) [nextExch, h]

@[simp] theorem pauseAct_kept {pq : Before} {s : State} (p : Nat) (a : Act) (h : Kept pq s) :
    Kept pq (pauseAct p a s) := by
  simp (maxDischargeDepth := 20) [pauseAct, h]

@[simp] theorem postPlugs_kept {pq : Before} {s : State} (p : Nat) (h : Kept pq s) : Kept pq (postPlugs p s) := by
  unfold postPlugs
  split
  · exact h
  · exact modPort_kept _ _ (kept_foldl (fun _ _ h => by split <;> simp [h]) _ h)

@[simp] theorem concludeSlate_kept {pq : Before} {s : State} (p : Nat) (h : Kept pq s) : Kept pq (concludeSlate p s) := by
  simp only [concludeSlate]
  split
  · exact h
  · split
    · simp [h]
    · exact finishAct_kept _ (checkHalyard_kept (kept_foldl (fun _ _ h => by split <;> simp [h]) _
        (by simp (maxDischargeDepth := 20) [h])))

@[simp] theorem identFrom_kept {pq : Before} {s : State} (p i : Nat) (h : Kept pq s) :
    Kept pq (identFrom p i s) := by
  unfold identFrom
  split <;> simp (maxDischargeDepth := 20) [h]

@[simp] theorem againFrom_kept {pq : Before} {s : State} (p i : Nat) (h : Kept pq s) :
    Kept pq (againFrom p i s) := by
  unfold againFrom
  (repeat' split) <;> simp (maxDischargeDepth := 20) [h]

@[simp] theorem afterPos_kept {pq : Before} {s : State} (p : Nat) (x : Exch) (h : Kept pq s) :
    Kept pq (afterPos p x s) := by
  unfold afterPos
  split <;> simp (maxDischargeDepth := 20) [h]

@[simp] theorem endHost_kept {pq : Before} {s : State} (p k : Nat) (st : Status) (resA resB : Nat) (h : Kept pq s) :
    Kept pq (endHost p k st resA resB s) := by
  unfold endHost
  split <;> simp (maxDischargeDepth := 20) [h]

@[simp] theorem consumeAgain_kept {pq : Before} {s : State} (p : Nat) (x : Exch) (h : Kept pq s) :
    Kept pq (consumeAgain p x s) := by
  unfold consumeAgain
  split <;> simp (maxDischargeDepth := 20) [h]

@[simp] theorem consumeAuthed_kept {pq : Before} {s : State} (p : Nat) (x : Exch) (k c : Nat) (before : Option Mirror) (ok : Bool) (h : Kept pq s) :
    Kept pq (consumeAuthed p x k c before ok s) := by
  unfold consumeAuthed
  split <;> simp (maxDischargeDepth := 20) [h]

@[simp] theorem gainCount_kept {pq : Before} {s : State} (p : Nat) (x : Exch) (c : Nat) (h : Kept pq s) :
    Kept pq (gainCount p x c s) := by
  have hc := applyCount_kept p x.pos c h
  simp only [gainCount]
  generalize applyCount p x.pos c s = r at hc
  obtain ⟨ok, s1⟩ := r
  simp only at hc
  (repeat' split) <;> simp (maxDischargeDepth := 20) [hc]

@[simp] theorem applyGain_kept {pq : Before} {s : State} (p : Nat) (x : Exch) (g : Gain) (h : Kept pq s) :
    Kept pq (applyGain p x g s) := by
  unfold applyGain
  (repeat' split) <;> simp (maxDischargeDepth := 20) [h]

@[simp] theorem offerGain_kept {pq : Before} {s : State} (p : Nat) (x : Exch) (g : Gain) (h : Kept pq s) :
    Kept pq (offerGain p x g s) := by
  simp only [offerGain]
  (repeat' split) <;> simp (maxDischargeDepth := 20) [h]

@[simp] theorem macFailed_kept {pq : Before} {s : State} (p : Nat) (x : Exch) (h : Kept pq s) :
    Kept pq (macFailed p x s) := by
  unfold macFailed
  split <;> simp (maxDischargeDepth := 20) [h]

@[simp] theorem badMac_kept {pq : Before} {s : State} (p : Nat) (x : Exch) (h : Kept pq s) :
    Kept pq (badMac p x s) := by
  simp (maxDischargeDepth := 20) [badMac, h]

@[simp] theorem failExch_kept {pq : Before} {s : State} (p : Nat) (x : Exch) (h : Kept pq s) :
    Kept pq (failExch p x s) := by
  unfold failExch
  (repeat' split) <;> simp (maxDischargeDepth := 20) [h]

@[simp] theorem identified_kept {pq : Before} {s : State} (p : Nat) (x : Exch) (serial : W64) (family : W16) (model : Byte) (h : Kept pq s) :
    Kept pq (identified p x serial family model s) := by
  unfold identified
  (repeat' split) <;> simp (maxDischargeDepth := 20) [h]

@[simp] theorem answerDone_kept {pq : Before} {s : State} (p : Nat) (x : Exch) (bs : List Byte) (h : Kept pq s) :
    Kept pq (answerDone p x bs s) := by
  unfold answerDone
  (repeat' split) <;> simp (maxDischargeDepth := 20) [h]

@[simp] theorem markAnswer_kept {pq : Before} {s : State} (p gap n : Nat) (up : Uplink) (h : Kept pq s) :
    Kept pq (markAnswer p gap n up s) := by
  simp (maxDischargeDepth := 20) [markAnswer, h]

@[simp] theorem exchAnswer_kept {pq : Before} {s : State} (p : Nat) (x : Exch) (up : Uplink) (h : Kept pq s) :
    Kept pq (exchAnswer p x up s) := by
  unfold exchAnswer
  extract_lets t
  have ht : Kept pq t := by simp [t, h]
  (repeat' split) <;> simp [ht]

@[simp] theorem answerOf_kept {pq : Before} {s : State} (kind : XKind) (p : Nat) (up : Uplink) (h : Kept pq s) :
    Kept pq (answerOf kind p up s) := by
  unfold answerOf
  (repeat' split) <;> simp (maxDischargeDepth := 20) [h]

@[simp] theorem seriesFailed_kept {pq : Before} {s : State} (p : Nat) (h : Kept pq s) :
    Kept pq (seriesFailed p s) := by
  unfold seriesFailed
  (repeat' split) <;> simp (maxDischargeDepth := 20) [h]

@[simp] theorem abandonTake_kept {pq : Before} {s : State} (p res pos : Nat) (h : Kept pq s) :
    Kept pq (abandonTake p res pos s) := by
  simp (maxDischargeDepth := 20) [abandonTake, h]

@[simp] theorem takeWon_kept {pq : Before} {s : State} (p n : Nat) (long : Bool) (h : Kept pq s) :
    Kept pq (takeWon p n long s) := by
  unfold takeWon
  (repeat' split) <;> simp (maxDischargeDepth := 20) [h]

@[simp] theorem assignEnded_kept {pq : Before} {s : State} (p n : Nat) (up : Uplink) (h : Kept pq s) :
    Kept pq (assignEnded p n up s) := by
  unfold assignEnded
  extract_lets t confirm
  have ht : Kept pq t := by simp [t, h]
  have hc (n : Nat) : Kept pq (confirm n t) := by simp [confirm, ht]
  (repeat' split) <;> simp [ht, hc]

@[simp] theorem confirmEnded_kept {pq : Before} {s : State} (p n : Nat) (up : Uplink) (presence : List Nat) (h : Kept pq s) :
    Kept pq (confirmEnded p n up presence s) := by
  unfold confirmEnded
  (repeat' split) <;> simp (maxDischargeDepth := 20) [h]

@[simp] theorem noteSlots_kept {pq : Before} {s : State} (p n : Nat) (up : Uplink) (h : Kept pq s) :
    Kept pq (noteSlots p n up s) := by
  unfold noteSlots
  split
  · exact h
  · exact kept_foldl (fun _ _ h => by simp [h]) _ (by simp [h])

@[simp] theorem noteAgain_kept {pq : Before} {s : State} (p : Nat) (r : SweepRes) (h : Kept pq s) :
    Kept pq (noteAgain p r s) := by
  simp (maxDischargeDepth := 20) [noteAgain, h]

@[simp] theorem sweepRead_kept {pq : Before} {s : State} (p : Nat) (earlier : List SweepRes) (r : SweepRes) (h : Kept pq s) :
    Kept pq (sweepRead p earlier r s) := by
  unfold sweepRead
  extract_lets t slate
  have ht : Kept pq t := by simp [t, h]
  have hs (why : SlateWhy) (k : Nat) : Kept pq (slate why k) := by simp [slate, ht]
  (repeat' split) <;> simp [ht, hs]

@[simp] theorem statusEnded_kept {pq : Before} {s : State} (p : Nat) (up : Uplink) (presence : List Nat) (h : Kept pq s) :
    Kept pq (statusEnded p up presence s) := by
  unfold statusEnded
  (repeat' split) <;> simp (maxDischargeDepth := 20) [h]

@[simp] theorem retryTake_kept {pq : Before} {s : State} (p : Nat) (h : Kept pq s) :
    Kept pq (retryTake p s) := by
  unfold retryTake
  (repeat' split) <;> simp (maxDischargeDepth := 20) [h]

@[simp] theorem repeatSweep_kept {pq : Before} {s : State} (p : Nat) (h : Kept pq s) :
    Kept pq (repeatSweep p s) := by
  unfold repeatSweep
  (repeat' split) <;> simp (maxDischargeDepth := 20) [h]

@[simp] theorem overcurrentAt_kept {pq : Before} {s : State} (p : Nat) (h : Kept pq s) :
    Kept pq (overcurrentAt p s) := by
  unfold overcurrentAt
  split <;> simp (maxDischargeDepth := 20) [h]

@[simp] theorem portCharge_kept {pq : Before} {s : State} (p : Nat) (h : Kept pq s) :
    Kept pq (portCharge p s) := by
  unfold portCharge
  split <;> simp (maxDischargeDepth := 20) [h]

@[simp] theorem faultTimer_kept {pq : Before} {s : State} (p : Nat) (h : Kept pq s) :
    Kept pq (faultTimer p s) := by
  unfold faultTimer
  split <;> simp (maxDischargeDepth := 20) [h]

@[simp] theorem portsDown_kept {pq : Before} {s : State} (h : Kept pq s) : Kept pq (portsDown s) :=
  kept_foldl (fun _ _ h => by simp (maxDischargeDepth := 20) [h]) _ h

@[simp] theorem portsUp_kept {pq : Before} {s : State} (h : Kept pq s) :
    Kept pq (portsUp s) := by
  exact kept_foldl (fun _ _ h => by simp [h]) _ h

@[simp] theorem placesAtStart_kept {pq : Before} {s : State} (h : Kept pq s) :
    Kept pq (placesAtStart s) := by
  simp (maxDischargeDepth := 20) [placesAtStart, h]

@[simp] theorem retryChallenges_kept {pq : Before} {s : State} (h : Kept pq s) : Kept pq (retryChallenges s) := by
  refine kept_foldl (fun s p h => ?_) _ h
  split
  · exact h
  · split
    · split
      next e => simp [takeChallenge_kept h e]
      next => exact h
    · exact h

@[simp] theorem retryPlaces_kept {pq : Before} {s : State} (h : Kept pq s) :
    Kept pq (retryPlaces s) := by
  exact kept_foldl (fun _ _ h => by (repeat' split) <;> simp (maxDischargeDepth := 20) [h]) _ h

@[simp] theorem dropOrphans_kept {pq : Before} {s : State} (h : Kept pq s) :
    Kept pq (dropOrphans s) := by
  exact kept_foldl (fun _ _ h => by (repeat' split) <;> simp (maxDischargeDepth := 20) [h]) _ h

@[simp] theorem sweepDueAt_kept {pq : Before} {s : State} (p : Nat) (h : Kept pq s) :
    Kept pq (sweepDueAt p s) := by
  unfold sweepDueAt
  split <;> simp (maxDischargeDepth := 20) [h]

@[simp] theorem authDueAt_kept {pq : Before} {s : State} (p i : Nat) (h : Kept pq s) :
    Kept pq (authDueAt p i s) := by
  unfold authDueAt
  split <;> simp (maxDischargeDepth := 20) [h]

@[simp] theorem staleRetry_kept {pq : Before} {s : State} (p : Nat) (h : Kept pq s) :
    Kept pq (staleRetry p s) := by
  unfold staleRetry
  split <;> simp (maxDischargeDepth := 20) [h]

@[simp] theorem tagReadRun_kept {pq : Before} {s : State} (op : Op) (h : Kept pq s) :
    Kept pq (tagReadRun op s) := by
  unfold tagReadRun
  (repeat' split) <;> simp (maxDischargeDepth := 20) [h]

@[simp] theorem portRun_kept {pq : Before} {s : State} (op : Op) (h : Kept pq s) :
    Kept pq (portRun op s) := by
  simp only [portRun]
  (repeat' split) <;> simp (maxDischargeDepth := 20) [h]

@[simp] theorem rekeyFamily_kept {pq : Before} {s : State} (family : Nat) (fk : W128) (h : Kept pq s) :
    Kept pq (rekeyFamily family fk s) := by
  simp (maxDischargeDepth := 20) [rekeyFamily, h]

/-! ### Waits.lean -/

@[simp] theorem leaveEnergy_kept {pq : Before} {s : State} (k : Nat) (h : Kept pq s) :
    Kept pq (leaveEnergy k s) := by
  simp (maxDischargeDepth := 20) [leaveEnergy, h]

@[simp] theorem waitForPlan_kept {pq : Before} {s : State} (op : Op) (p : Plan) (h : Kept pq s) :
    Kept pq (waitForPlan op p s) := by
  simp (maxDischargeDepth := 20) [waitForPlan, h]

theorem startPlan_kept {pq : Before} {s : State} {r : Except Status Plan} (op : Op)
    (hr : ∀ p t, r = .ok p → Kept pq t → Kept pq (p.run t)) (h : Kept pq s) : Kept pq (startPlan op r s) := by
  unfold startPlan
  split
  · simp [h]
  · split
    · exact hr _ _ rfl h
    · simp [h]

@[simp] theorem wakeCommits_kept {pq : Before} {s : State} (h : Kept pq s) : Kept pq (wakeCommits s) := by
  refine kept_foldl (fun s op h => ?_) _ h
  split
  · dsimp only
    split
    · exact startPlan_kept _ (fun _ _ e h => kidPlan_kept e h) h
    · exact h
  · exact h

@[simp] theorem startObject_kept {pq : Before} {s : State} (op : Op) (h : Kept pq s) : Kept pq (startObject op s) :=
  wakeCommits_kept (startPlan_kept _ (fun _ _ e h => objectPlan_kept e h) h)

@[simp] theorem retryTag_kept {pq : Before} {s : State} (op : Op) (earlier : List Need) (h : Kept pq s) :
    Kept pq (retryTag op earlier s) := by
  simp only [retryTag]
  (repeat' split) <;> simp (maxDischargeDepth := 20) [h]

@[simp] theorem retryOp_kept {pq : Before} {s : State} (op : Op) (earlier : List Need) (h : Kept pq s) :
    Kept pq (retryOp op earlier s) := by
  unfold retryOp
  split
  · simp [h]
  · split
    · simp [h]
    next e =>
      split
      · exact wakeCommits_kept (objectPlan_kept e (by simp [h]))
      · split <;> simp [h]

theorem retryOrder_kept {pq : Before} {s : State} {activate : Op → State → State}
    (ha : ∀ op s, Kept pq s → Kept pq (activate op s)) (l : List Nat) (earlier : List Need) (h : Kept pq s) :
    Kept pq (retryOrder activate l earlier s) := by
  induction l generalizing s earlier with
  | nil => exact h
  | cons k l ih =>
    simp only [retryOrder]
    (repeat' split) <;> simp (maxDischargeDepth := 20) [ih, ha, h]

@[simp] theorem dropUnused_kept {pq : Before} {s : State} (h : Kept pq s) :
    Kept pq (dropUnused s) := by
  simp (maxDischargeDepth := 20) [dropUnused, h]

@[simp] theorem serveSeeds_kept {pq : Before} {s : State} (h : Kept pq s) :
    Kept pq (serveSeeds s) := by
  simp (maxDischargeDepth := 20) [serveSeeds, h]

end Sys2Proof.Machine
end

