-- ==== Sys2Proof/Laws/KeptMaintenance.lean ====
section
/-!
SUPPORT. What every function of Sys2Proof/Machine/Seconds.lean, Admin.lean, Maint.lean, Health.lean, Placement.lean keeps (Sys2Proof/Laws/Kept.lean).
-/
namespace Sys2Proof.Machine

/-! ### Seconds.lean -/

@[simp] theorem endDay_kept {pq : Before} {s : State} (h : Kept pq s) :
    Kept pq (endDay s) := by
  simp (maxDischargeDepth := 20) [endDay, h]

@[simp] theorem countSeconds_kept {pq : Before} {s : State} (h : Kept pq s) :
    Kept pq (countSeconds s) := by
  simp (maxDischargeDepth := 20) [countSeconds, h]

@[simp] theorem rebuildSweepList_kept {pq : Before} {s : State} (h : Kept pq s) :
    Kept pq (rebuildSweepList s) := by
  simp (maxDischargeDepth := 20) [rebuildSweepList, h]

@[simp] theorem secondDue_kept {pq : Before} {s : State} (h : Kept pq s) :
    Kept pq (secondDue s) := by
  simp (maxDischargeDepth := 20) [secondDue, h]

@[simp] theorem calendarDue_kept {pq : Before} {s : State} (h : Kept pq s) :
    Kept pq (calendarDue s) := by
  simp (maxDischargeDepth := 20) [calendarDue, h]

/-! ### Admin.lean -/

theorem gated_kept {pq : Before} {s : State} (check : Option Status) (op : Op) {run : State → State}
    (hr : Kept pq s → Kept pq (run s)) (h : Kept pq s) : Kept pq (gated check op run s) := by
  unfold gated
  split
  · simp [h]
  · exact hr h

@[simp] theorem qpCreate_kept {pq : Before} {s : State} (op : Op) (h : Kept pq s) :
    Kept pq (qpCreate op s) := by
  exact gated_kept _ _ (fun h => by simp (maxDischargeDepth := 20) [h]) h

@[simp] theorem qpDelete_kept {pq : Before} {s : State} (op : Op) (h : Kept pq s) :
    Kept pq (qpDelete op s) := by
  exact gated_kept _ _ (fun h => by (repeat' split) <;> simp (maxDischargeDepth := 20) [h]) h

@[simp] theorem identify_kept {pq : Before} {s : State} (op : Op) (h : Kept pq s) :
    Kept pq (identify op s) := by
  exact gated_kept _ _ (fun h => by simp (maxDischargeDepth := 20) [h]) h

@[simp] theorem timeSet_kept {pq : Before} {s : State} (op : Op) (h : Kept pq s) :
    Kept pq (timeSet op s) := by
  exact gated_kept _ _ (fun h => by simp (maxDischargeDepth := 20) [h]) h

@[simp] theorem domainSet_kept {pq : Before} {s : State} (op : Op) (h : Kept pq s) :
    Kept pq (domainSet op s) := by
  exact gated_kept _ _ (fun h => by simp (maxDischargeDepth := 20) [h]) h

@[simp] theorem setInactive_kept {pq : Before} {s : State} (x : Slot) (h : Kept pq s) :
    Kept pq (setInactive x s) := by
  simp (maxDischargeDepth := 20) [setInactive, h]

@[simp] theorem fwStage_kept {pq : Before} {s : State} (op : Op) (h : Kept pq s) :
    Kept pq (fwStage op s) := by
  exact gated_kept _ _ (fun h => by simp (maxDischargeDepth := 20) [h]) h

@[simp] theorem activate_kept {pq : Before} {s : State} (op : Op) (h : Kept pq s) :
    Kept pq (activate op s) := by
  simp (maxDischargeDepth := 20) [activate, h]

@[simp] theorem fwActivate_kept {pq : Before} {s : State} (readable : Bool) (op : Op) (h : Kept pq s) :
    Kept pq (fwActivate readable op s) := by
  exact gated_kept _ _ (fun h => by simp (maxDischargeDepth := 20) [h]) h

@[simp] theorem familyKeyLoad_kept {pq : Before} {s : State} (op : Op) (h : Kept pq s) :
    Kept pq (familyKeyLoad op s) := by
  exact gated_kept _ _ (fun h => by (repeat' split) <;> simp (maxDischargeDepth := 20) [h]) h

@[simp] theorem retryWaits_kept {pq : Before} {s : State} (h : Kept pq s) : Kept pq (retryWaits s) := by
  have h1 := retryOrder_kept (pq := pq) (activate := activate) (fun _ _ h => by simp [h]) (admitRepairs s).hif.energyOrder []
    (admitRepairs_kept h)
  simp (maxDischargeDepth := 20) [retryWaits, h1]

/-! ### Maint.lean -/

@[simp] theorem queueInternal_kept {pq : Before} {s : State} (kind block : Nat) (forced : Bool) (h : Kept pq s) :
    Kept pq (queueInternal kind block forced s) := by
  unfold queueInternal
  (repeat' split) <;> simp (maxDischargeDepth := 20) [h]

@[simp] theorem checkCopy_kept {pq : Before} {s : State} (block : Nat) (h : Kept pq s) :
    Kept pq (checkCopy block s) := by
  simp (maxDischargeDepth := 20) [checkCopy, h]

@[simp] theorem checkCopies_kept {pq : Before} {s : State} (h : Kept pq s) :
    Kept pq (checkCopies s) := by
  simp (maxDischargeDepth := 20) [checkCopies, h]

@[simp] theorem noteDrains_kept {pq : Before} {s : State} (h : Kept pq s) :
    Kept pq (noteDrains s) := by
  simp (maxDischargeDepth := 20) [noteDrains, h]

@[simp] theorem moveGroup_kept {pq : Before} {s : State} (g e gap : Nat) (h : Kept pq s) :
    Kept pq (moveGroup g e gap s) := by
  simp (maxDischargeDepth := 20) [moveGroup, h]

@[simp] theorem moveOff_kept {pq : Before} {s : State} (l : List Nat) (h : Kept pq s) : Kept pq (moveOff l s) := by
  induction l generalizing s with
  | nil => exact h
  | cons g l ih =>
    unfold moveOff
    split
    · dsimp only
      split
      · exact ih (by simp (maxDischargeDepth := 20) [h])
      · exact ih h
    · exact h

@[simp] theorem tendDrain_kept {pq : Before} {s : State} (h : Kept pq s) : Kept pq (tendDrain s) := by
  unfold tendDrain
  (repeat' split) <;> simp [h]

@[simp] theorem startDrain_kept {pq : Before} {s : State} (block : Nat) (h : Kept pq s) : Kept pq (startDrain block s) := by
  have h1 := logDecision_kept 0x08 (drainCode block) 0 0 s.mnt.load h
  simp only [startDrain]
  generalize logDecision 0x08 (drainCode block) 0 0 s.mnt.load s = s1 at h1
  (repeat' split) <;> first | exact h1 | simp (maxDischargeDepth := 20) [h1]

@[simp] theorem firstDraw_kept {pq : Before} {s : State} (h : Kept pq s) :
    Kept pq (firstDraw s) := by
  unfold firstDraw
  split <;> simp (maxDischargeDepth := 20) [h]

@[simp] theorem endScan_kept {pq : Before} {s : State} (h : Kept pq s) :
    Kept pq (endScan s) := by
  unfold endScan
  split <;> simp (maxDischargeDepth := 20) [h]

@[simp] theorem startActivity_kept {pq : Before} {s : State} (m : Maint) (h : Kept pq s) :
    Kept pq (startActivity m s) := by
  simp (maxDischargeDepth := 20) [startActivity, h]

@[simp] theorem startHead_kept {pq : Before} {s : State} (n : Nat) (h : Kept pq s) : Kept pq (startHead n s) := by
  induction n generalizing s with
  | zero => exact h
  | succ n ih => simp only [startHead]; (repeat' split) <;> simp (maxDischargeDepth := 20) [ih, h]

@[simp] theorem startMaint_kept {pq : Before} {s : State} (h : Kept pq s) :
    Kept pq (startMaint s) := by
  simp (maxDischargeDepth := 20) [startMaint, h]

@[simp] theorem deferBlock_kept {pq : Before} {s : State} (h : Kept pq s) :
    Kept pq (deferBlock s) := by
  unfold deferBlock
  split <;> simp (maxDischargeDepth := 20) [h]

@[simp] theorem requeue_kept {pq : Before} {s : State} (m : Maint) (h : Kept pq s) :
    Kept pq (requeue m s) := by
  unfold requeue
  split <;> simp (maxDischargeDepth := 20) [h]

@[simp] theorem requeueRunning_kept {pq : Before} {s : State} (h : Kept pq s) :
    Kept pq (requeueRunning s) := by
  unfold requeueRunning
  split <;> simp (maxDischargeDepth := 20) [h]

@[simp] theorem warnMaint_kept {pq : Before} {s : State} (h : Kept pq s) :
    Kept pq (warnMaint s) := by
  unfold warnMaint
  split <;> simp (maxDischargeDepth := 20) [h]

@[simp] theorem holdupMaint_kept {pq : Before} {s : State} (h : Kept pq s) :
    Kept pq (holdupMaint s) := by
  unfold holdupMaint
  split <;> simp (maxDischargeDepth := 20) [h]

@[simp] theorem blockDrained_kept {pq : Before} {s : State} (h : Kept pq s) :
    Kept pq (blockDrained s) := by
  unfold blockDrained
  split <;> simp (maxDischargeDepth := 20) [h]

@[simp] theorem keepOut_kept {pq : Before} {s : State} (block : Nat) (h : Kept pq s) :
    Kept pq (keepOut block s) := by
  simp only [keepOut]
  (repeat' split) <;> simp (maxDischargeDepth := 20) [h]

@[simp] theorem blockDone_kept {pq : Before} {s : State} (failedStep peak unreadable : Nat) (h : Kept pq s) :
    Kept pq (blockDone failedStep peak unreadable s) := by
  unfold blockDone
  (repeat' split) <;> simp (maxDischargeDepth := 20) [h]

@[simp] theorem endCompact_kept {pq : Before} {s : State} (h : Kept pq s) :
    Kept pq (endCompact s) := by
  unfold endCompact
  split <;> simp (maxDischargeDepth := 20) [h]

@[simp] theorem compactSlice_kept {pq : Before} {s : State} (reads : List SlotRead) (h : Kept pq s) :
    Kept pq (compactSlice reads s) := by
  unfold compactSlice
  (repeat' split) <;> simp (maxDischargeDepth := 20) [h]

@[simp] theorem eraseDone_kept {pq : Before} {s : State} (bank idx : Nat) (erased : Bool) (duration : Nat) (h : Kept pq s) :
    Kept pq (eraseDone bank idx erased duration s) := by
  simp only [eraseDone]
  (repeat' split) <;> simp (maxDischargeDepth := 20) [h]

@[simp] theorem scanSector_kept {pq : Before} {s : State} (bank idx weak : Nat) (reads : List SlotRead) (h : Kept pq s) :
    Kept pq (scanSector bank idx weak reads s) := by
  simp only [scanSector]
  (repeat' split) <;> simp (maxDischargeDepth := 20) [h]

@[simp] theorem drawEnd_kept {pq : Before} {s : State} (fall step : Nat) (h : Kept pq s) :
    Kept pq (drawEnd fall step s) := by
  unfold drawEnd
  split <;> simp (maxDischargeDepth := 20) [h]

@[simp] theorem finishMeasure_kept {pq : Before} {s : State} (h : Kept pq s) :
    Kept pq (finishMeasure s) := by
  unfold finishMeasure
  split <;> simp (maxDischargeDepth := 20) [h]

@[simp] theorem gapEnd_kept {pq : Before} {s : State} (h : Kept pq s) :
    Kept pq (gapEnd s) := by
  unfold gapEnd
  split <;> simp (maxDischargeDepth := 20) [h]

@[simp] theorem firstCapMeasure_kept {pq : Before} {s : State} (h : Kept pq s) :
    Kept pq (firstCapMeasure s) := by
  unfold firstCapMeasure
  split <;> simp (maxDischargeDepth := 20) [h]

@[simp] theorem maintStart_kept {pq : Before} {s : State} (op : Op) (h : Kept pq s) :
    Kept pq (maintStart op s) := by
  exact gated_kept _ _ (fun h => by simp (maxDischargeDepth := 20) [h]) h

@[simp] theorem maintStatus_kept {pq : Before} {s : State} (op : Op) (h : Kept pq s) :
    Kept pq (maintStatus op s) := by
  exact gated_kept _ _ (fun h => by dsimp only; (repeat' split) <;> simp (maxDischargeDepth := 20) [h]) h

@[simp] theorem checkJournal_kept {pq : Before} {s : State} (h : Kept pq s) :
    Kept pq (checkJournal s) := by
  simp (maxDischargeDepth := 20) [checkJournal, h]

@[simp] theorem tendMaint_kept {pq : Before} {s : State} (h : Kept pq s) :
    Kept pq (tendMaint s) := by
  simp (maxDischargeDepth := 20) [tendMaint, h]

@[simp] theorem background_kept {pq : Before} {s : State} (h : Kept pq s) :
    Kept pq (background s) := by
  simp (maxDischargeDepth := 20) [background, h]

/-! ### Health.lean -/

@[simp] theorem clearToday_kept {pq : Before} {s : State} (h : Kept pq s) :
    Kept pq (clearToday s) := by
  simp (maxDischargeDepth := 20) [clearToday, h]

@[simp] theorem setStage_kept {pq : Before} {s : State} (code stage : Nat) (h : Kept pq s) :
    Kept pq (setStage code stage s) := by
  simp (maxDischargeDepth := 20) [setStage, h]

@[simp] theorem postAlert_kept {pq : Before} {s : State} (i : Indicator) (f : Fit) (h : Kept pq s) :
    Kept pq (postAlert i f s) := by
  simp (maxDischargeDepth := 20) [postAlert, h]

@[simp] theorem alertFor_kept {pq : Before} {s : State} (i : Indicator) (h : Kept pq s) : Kept pq (alertFor i s) := by
  unfold alertFor
  split
  · exact h
  · exact kept_foldl (fun _ _ h => by simp [h]) _ (by simp [h])

@[simp] theorem sampleTags_kept {pq : Before} {s : State} (day : Nat) (h : Kept pq s) :
    Kept pq (sampleTags day s) := by
  simp (maxDischargeDepth := 20) [sampleTags, h]

@[simp] theorem collectDaily_kept {pq : Before} {s : State} (m : Measures) (h : Kept pq s) : Kept pq (collectDaily m s) := by
  simp (maxDischargeDepth := 20) [collectDaily, h]

@[simp] theorem dropStages_kept {pq : Before} {s : State} (h : Kept pq s) :
    Kept pq (dropStages s) := by
  simp (maxDischargeDepth := 20) [dropStages, h]

@[simp] theorem fitWritten_kept {pq : Before} {s : State} (h : Kept pq s) : Kept pq (fitWritten s) := by
  unfold fitWritten
  split
  · exact kept_foldl (fun _ _ h => alertFor_kept _ h) _ (by simp [h])
  · exact h

@[simp] theorem dailyDue_kept {pq : Before} {s : State} (m : Measures) (h : Kept pq s) :
    Kept pq (dailyDue m s) := by
  simp (maxDischargeDepth := 20) [dailyDue, h]

@[simp] theorem healthRead_kept {pq : Before} {s : State} (m : Measures) (op : Op) (h : Kept pq s) :
    Kept pq (healthRead m op s) := by
  exact gated_kept _ _ (fun h => by (repeat' split) <;> simp (maxDischargeDepth := 20) [h]) h

@[simp] theorem eolRead_kept {pq : Before} {s : State} (op : Op) (h : Kept pq s) :
    Kept pq (eolRead op s) := by
  exact gated_kept _ _ (fun h => by (repeat' split) <;> simp (maxDischargeDepth := 20) [h]) h

/-! ### Placement.lean -/

@[simp] theorem closeWindowRates_kept {pq : Before} {s : State} (h : Kept pq s) :
    Kept pq (closeWindowRates s) := by
  simp (maxDischargeDepth := 20) [closeWindowRates, h]

@[simp] theorem balanceBy_kept {pq : Before} {s : State} (p : Option (Nat × Nat × Nat)) (f : Group → Nat) (h : Kept pq s) :
    Kept pq (balanceBy s p f) := by
  unfold balanceBy
  (repeat' split) <;> simp (maxDischargeDepth := 20) [h]

@[simp] theorem balance_kept {pq : Before} {s : State} (h : Kept pq s) :
    Kept pq (balance s) := by
  simp (maxDischargeDepth := 20) [balance, h]

@[simp] theorem watchDrain_kept {pq : Before} {s : State} (h : Kept pq s) :
    Kept pq (watchDrain s) := by
  unfold watchDrain
  split <;> simp (maxDischargeDepth := 20) [h]

@[simp] theorem placementWindow_kept {pq : Before} {s : State} (h : Kept pq s) :
    Kept pq (placementWindow s) := by
  simp (maxDischargeDepth := 20) [placementWindow, h]

@[simp] theorem looseMove_kept {pq : Before} {s : State} (n : Nat) (h : Kept pq s) :
    Kept pq (looseMove n s) := by
  unfold looseMove
  (repeat' split) <;> simp (maxDischargeDepth := 20) [h]

@[simp] theorem moveFirst_kept {pq : Before} {s : State} (l : List Leaf) (h : Kept pq s) : Kept pq (moveFirst l s) := by
  induction l with
  | nil => exact h
  | cons x l ih =>
    unfold moveFirst
    (repeat' split) <;> simp [h, ih]

@[simp] theorem boundedMove_kept {pq : Before} {s : State} (h : Kept pq s) : Kept pq (boundedMove s) := by
  unfold boundedMove
  split <;> simp [h]

@[simp] theorem setStep_kept {pq : Before} {s : State} (active : Nat) (g : Group) (h : Kept pq s) :
    Kept pq (setStep active s g) := by
  simp (maxDischargeDepth := 20) [setStep, h]

@[simp] theorem stepUpdate_kept {pq : Before} {s : State} (h : Kept pq s) : Kept pq (stepUpdate s) := by
  simp only [stepUpdate]
  split
  · exact h
  · exact kept_foldl (fun _ _ h => by simp [h]) _ (by simp [h])

@[simp] theorem scrub_kept {pq : Before} {s : State} (corrected : Nat) (bad : List BadWord) (h : Kept pq s) :
    Kept pq (scrub corrected bad s) := by
  simp (maxDischargeDepth := 20) [scrub, h]

@[simp] theorem placementReport_kept {pq : Before} {s : State} (op : Op) (h : Kept pq s) :
    Kept pq (placementReport op s) := by
  exact gated_kept _ _ (fun h => by (repeat' split) <;> simp (maxDischargeDepth := 20) [h]) h

end Sys2Proof.Machine
end

