-- ==== Sys2Proof/Laws/Background.lean ====
section
/-!
SUPPORT. What follows at once from a change (background), while no host operation waits for entropy, leaves the clock, BAR0's stored
registers but SAFE_CAUSE, the DRBG instances, and PMU but for the draw of a CAP_MEASURE: one lemma per function that it uses.
-/
namespace Sys2Proof.Machine

/-- The clock, the stored registers, the DRBG instances and PMU. -/
abbrev Setup := Clk × Regs × Drb × Pmu

/-- Of these parts, what stays: of the registers all but SAFE_CAUSE, of PMU all but the draw; and no host operation waits for entropy. -/
def FixedOn (k : Setup) (clk : Clk) (regs : Regs) (drb : Drb) (waitS : List Nat) (pmu : Pmu) : Prop :=
  clk = k.1 ∧ { regs with safeCause := 0 } = k.2.1 ∧ drb = k.2.2.1 ∧ waitS = [] ∧
    { pmu with vTopCap := none, drawing := false } = k.2.2.2

/-- `FixedOn` of a state. -/
def Fixed (k : Setup) (s : State) : Prop := FixedOn k s.clk s.regs s.drb s.nsu.waitS s.pmu

@[simp] theorem fixed_mk (k p m a b c d e f g h i j l n o r t u v w x y z q) :
    Fixed k ⟨p, m, a, b, c, d, e, f, g, h, i, j, l, n, o, r, t, u, v, w, x, y, z, q⟩ = FixedOn k a b r o.waitS t :=
  propext Iff.rfl

@[simp] theorem fixedOn_proj (k : Setup) (s : State) : FixedOn k s.clk s.regs s.drb s.nsu.waitS s.pmu = Fixed k s :=
  propext Iff.rfl

@[simp] theorem fixed_ite (k : Setup) (c : Prop) [Decidable c] (s t : State) :
    Fixed k (if c then s else t) = if c then Fixed k s else Fixed k t := by split <;> rfl

/-- A fold of an effect that leaves them leaves them. -/
theorem fixed_foldl {α : Type} {k : Setup} {f : State → α → State} (hf : ∀ s x, Fixed k s → Fixed k (f s x))
    (l : List α) {s : State} (h : Fixed k s) : Fixed k (l.foldl f s) := by
  induction l generalizing s with
  | nil => exact h
  | cons x l ih => exact ih (hf s x h)

@[simp] theorem writeHost_fixed {pq : Setup} {s : State} (a : Nat) (bs : List Byte) (h : Fixed pq s) :
    Fixed pq (writeHost a bs s) := h

@[simp] theorem logDecision_fixed {pq : Setup} {s : State} (code object from_ to_ value : Nat) (h : Fixed pq s) :
    Fixed pq (logDecision code object from_ to_ value s) := by
  simp (maxDischargeDepth := 20) [logDecision, h]

@[simp] theorem sendMsix_fixed {pq : Setup} {s : State} (vector : Nat) (h : Fixed pq s) :
    Fixed pq (sendMsix vector s) := by
  simp (maxDischargeDepth := 20) [sendMsix, h]

@[simp] theorem signalEvent_fixed {pq : Setup} {s : State} (h : Fixed pq s) :
    Fixed pq (signalEvent s) := by
  simp (maxDischargeDepth := 20) [signalEvent, h]

@[simp] theorem writeEvent_fixed {pq : Setup} {s : State} (e : Event) (h : Fixed pq s) :
    Fixed pq (writeEvent e s) := by
  unfold writeEvent
  split <;> simp (maxDischargeDepth := 20) [h]

@[simp] theorem loseEvent_fixed {pq : Setup} {s : State} (e : Event) (h : Fixed pq s) :
    Fixed pq (loseEvent e s) := by
  simp (maxDischargeDepth := 20) [loseEvent, h]

@[simp] theorem deliverEvent_fixed {pq : Setup} {s : State} (e : Event) (h : Fixed pq s) :
    Fixed pq (deliverEvent e s) := by
  simp (maxDischargeDepth := 20) [deliverEvent, h]

@[simp] theorem postEvent_fixed {pq : Setup} {s : State} (name : EventName) (object : Nat) (details : List Byte) (h : Fixed pq s) :
    Fixed pq (postEvent name object details s) := by
  simp (maxDischargeDepth := 20) [postEvent, h]

@[simp] theorem drainBuffer_fixed {pq : Setup} {s : State} (n : Nat) (h : Fixed pq s) : Fixed pq (drainBuffer n s) := by
  induction n generalizing s with
  | zero => exact h
  | succ n ih => unfold drainBuffer; (repeat' split) <;> simp (maxDischargeDepth := 20) [ih, h]

@[simp] theorem writeEventsLost_fixed {pq : Setup} {s : State} (h : Fixed pq s) :
    Fixed pq (writeEventsLost s) := by
  simp (maxDischargeDepth := 20) [writeEventsLost, h]

@[simp] theorem drainEvents_fixed {pq : Setup} {s : State} (h : Fixed pq s) :
    Fixed pq (drainEvents s) := by
  simp (maxDischargeDepth := 20) [drainEvents, h]

@[simp] theorem withReady_fixed {pq : Setup} {s : State} {f : State → State} (hf : ∀ s, Fixed pq s → Fixed pq (f s))
    (h : Fixed pq s) : Fixed pq (withReady f s) := by
  simp [withReady, hf s h]

@[simp] theorem setReady_fixed {pq : Setup} {s : State} (f : Ready → Ready) (h : Fixed pq s) : Fixed pq (setReady f s) :=
  withReady_fixed (fun s h => by simp [h]) h

@[simp] theorem modQp_fixed {pq : Setup} {s : State} (n : Nat) (f : Qp → Qp) (h : Fixed pq s) :
    Fixed pq (modQp n f s) := by
  simp (maxDischargeDepth := 20) [modQp, h]

@[simp] theorem modOp_fixed {pq : Setup} {s : State} (k : Nat) (f : Op → Op) (h : Fixed pq s) :
    Fixed pq (modOp k f s) := by
  simp (maxDischargeDepth := 20) [modOp, h]

@[simp] theorem setOpSt_fixed {pq : Setup} {s : State} (k : Nat) (st : OpSt) (h : Fixed pq s) :
    Fixed pq (setOpSt k st s) := by
  simp (maxDischargeDepth := 20) [setOpSt, h]

@[simp] theorem removeOp_fixed {pq : Setup} {s : State} (k : Nat) (h : Fixed pq s) : Fixed pq (removeOp k s) := by
  obtain ⟨h1, h2, h3, h4, h5⟩ := h
  exact ⟨h1, h2, h3, by simp [removeOp, h4], h5⟩

@[simp] theorem signalQp_fixed {pq : Setup} {s : State} (q : Qp) (h : Fixed pq s) :
    Fixed pq (signalQp q s) := by
  simp (maxDischargeDepth := 20) [signalQp, h]

@[simp] theorem writeCompletion_fixed {pq : Setup} {s : State} (op : Op) (st : Status) (resA resB : W64) (skipped : Bool) (h : Fixed pq s) :
    Fixed pq (writeCompletion op st resA resB skipped s) := by
  unfold writeCompletion
  (repeat' split) <;> simp (maxDischargeDepth := 20) [h]

@[simp] theorem endDelete_fixed {pq : Setup} {s : State} (n : Nat) (h : Fixed pq s) :
    Fixed pq (endDelete n s) := by
  unfold endDelete
  (repeat' split) <;> simp (maxDischargeDepth := 20) [h]

@[simp] theorem complete_fixed {pq : Setup} {s : State} (op : Op) (st : Status) (resA resB : W64) (skipped : Bool) (h : Fixed pq s) :
    Fixed pq (complete op st resA resB skipped s) := by
  simp (maxDischargeDepth := 20) [complete, h]

@[simp] theorem refuse_fixed {pq : Setup} {s : State} (op : Op) (st : Status) (h : Fixed pq s) :
    Fixed pq (refuse op st s) := by
  simp (maxDischargeDepth := 20) [refuse, h]

@[simp] theorem queueAtEngine_fixed {pq : Setup} {s : State} (e units : Nat) (h : Fixed pq s) :
    Fixed pq (queueAtEngine e units s) := by
  simp (maxDischargeDepth := 20) [queueAtEngine, h]

@[simp] theorem setCaps_fixed {pq : Setup} {s : State} (b r capS capB : Nat) (h : Fixed pq s) :
    Fixed pq (setCaps b r capS capB s) := by
  simp (maxDischargeDepth := 20) [setCaps, h]

@[simp] theorem recomputeCaps_fixed {pq : Setup} {s : State} (h : Fixed pq s) : Fixed pq (recomputeCaps s) :=
  setCaps_fixed _ _ _ _ h

@[simp] theorem enterEnergyWait_fixed {pq : Setup} {s : State} (op : Op) (h : Fixed pq s) :
    Fixed pq (enterEnergyWait op s) := by
  simp (maxDischargeDepth := 20) [enterEnergyWait, h]

@[simp] theorem owe_fixed {pq : Setup} {s : State} (w : What) (h : Fixed pq s) :
    Fixed pq (owe w s) := by
  unfold owe
  split <;> simp (maxDischargeDepth := 20) [h]

@[simp] theorem oweBounded_fixed {pq : Setup} {s : State} (n : Nat) (h : Fixed pq s) :
    Fixed pq (oweBounded n s) := by
  simp (maxDischargeDepth := 20) [oweBounded, h]

@[simp] theorem releaseBounded_fixed {pq : Setup} {s : State} (n : Nat) (h : Fixed pq s) :
    Fixed pq (releaseBounded n s) := by
  simp (maxDischargeDepth := 20) [releaseBounded, h]

@[simp] theorem queueWrite_fixed {pq : Setup} {s : State} (rank : Nat) (w : What) (h : Fixed pq s) :
    Fixed pq (queueWrite rank w s) := by
  unfold queueWrite
  split <;> simp (maxDischargeDepth := 20) [h]

@[simp] theorem awaitRecord_fixed {pq : Setup} {s : State} (op : Op) (w : What) (resA resB : W64) (h : Fixed pq s) :
    Fixed pq (awaitRecord op w resA resB s) := by
  simp (maxDischargeDepth := 20) [awaitRecord, h]

@[simp] theorem releaseUntil_fixed {pq : Setup} {s : State} (limit : Nat) (l : List Owed) (h : Fixed pq s) :
    Fixed pq (releaseUntil limit l s) := by
  induction l generalizing s with
  | nil => exact h
  | cons e l ih => unfold releaseUntil; (repeat' split) <;> simp (maxDischargeDepth := 20) [ih, h]

@[simp] theorem releaseStrict_fixed {pq : Setup} {s : State} (h : Fixed pq s) :
    Fixed pq (releaseStrict s) := by
  simp (maxDischargeDepth := 20) [releaseStrict, h]

@[simp] theorem modLeaf_fixed {pq : Setup} {s : State} (n : Nat) (f : Leaf → Leaf) (h : Fixed pq s) :
    Fixed pq (modLeaf n f s) := by
  simp (maxDischargeDepth := 20) [modLeaf, h]

@[simp] theorem modGroup_fixed {pq : Setup} {s : State} (g : Nat) (f : Group → Group) (h : Fixed pq s) :
    Fixed pq (modGroup g f s) := by
  simp (maxDischargeDepth := 20) [modGroup, h]

@[simp] theorem modMirror_fixed {pq : Setup} {s : State} (i : Nat) (f : Mirror → Mirror) (h : Fixed pq s) :
    Fixed pq (modMirror i f s) := by
  simp (maxDischargeDepth := 20) [modMirror, h]

@[simp] theorem modSector_fixed {pq : Setup} {s : State} (bank idx : Nat) (f : Sector → Sector) (h : Fixed pq s) :
    Fixed pq (modSector bank idx f s) := by
  simp (maxDischargeDepth := 20) [modSector, h]

@[simp] theorem putSlot_fixed {pq : Setup} {s : State} (bank sector slot : Nat) (bytes : Option (List Byte)) (h : Fixed pq s) :
    Fixed pq (putSlot bank sector slot bytes s) := by
  simp (maxDischargeDepth := 20) [putSlot, h]

@[simp] theorem takeFresh_fixed {pq : Setup} {s : State} (x : Sector) (firstSeq : Nat) (h : Fixed pq s) :
    Fixed pq (takeFresh x firstSeq s) := by
  simp (maxDischargeDepth := 20) [takeFresh, h]

@[simp] theorem shutBank_fixed {pq : Setup} {s : State} (bank : Nat) (h : Fixed pq s) :
    Fixed pq (shutBank bank s) := by
  simp (maxDischargeDepth := 20) [shutBank, h]

theorem placeFresh_fixed {pq : Setup} {s t : State} {bank a b : Nat} {w : Wanted} (h : Fixed pq s)
    (e : placeFresh bank w s = some (a, b, t)) : Fixed pq t := by
  unfold placeFresh at e
  split at e
  · simp only [Option.map_eq_some_iff, Prod.mk.injEq] at e
    obtain ⟨x, -, -, -, rfl⟩ := e
    have hs : Fixed pq (if w.fresh then s else shutBank bank s) := by split <;> simp [h]
    simp [hs]
  · simp at e

theorem placeInBank_fixed {pq : Setup} {s t : State} {bank a b : Nat} {w : Wanted} (h : Fixed pq s)
    (e : placeInBank bank w s = some (a, b, t)) : Fixed pq t := by
  unfold placeInBank at e
  split at e
  · simp only [Option.some.injEq, Prod.mk.injEq] at e
    obtain ⟨-, -, rfl⟩ := e
    simp [h]
  · exact placeFresh_fixed h e

theorem placeInBanks_fixed {pq : Setup} {s t : State} {a b c : Nat} {w : Wanted} (l : List Nat) (h : Fixed pq s)
    (e : placeInBanks w s l = some (a, b, c, t)) : Fixed pq t := by
  induction l with
  | nil => simp [placeInBanks] at e
  | cons x l ih =>
    unfold placeInBanks at e
    split at e
    · simp only [Option.some.injEq, Prod.mk.injEq] at e
      obtain ⟨-, -, -, rfl⟩ := e
      exact placeInBank_fixed h ‹_›
    · exact ih e

@[simp] theorem nextTurn_fixed {pq : Setup} {s : State} (bank rank : Nat) (h : Fixed pq s) :
    Fixed pq (nextTurn bank rank s) := by
  simp (maxDischargeDepth := 20) [nextTurn, h]

theorem startProgram_fixed {pq : Setup} {s t : State} {c : CopyWait} (h : Fixed pq s) (e : startProgram c s = some t) : Fixed pq t := by
  unfold startProgram at e
  split at e
  · split at e
    · simp only [Option.some.injEq] at e
      subst e
      have := placeInBanks_fixed _ h ‹_›
      simp [this]
    · simp at e
  · simp at e

@[simp] theorem finishWaiting_fixed {pq : Setup} {s : State} (id : Nat) (l : List Op) (h : Fixed pq s) :
    Fixed pq (finishWaiting id l s) := by
  induction l generalizing s with
  | nil => exact h
  | cons op l ih => simp only [finishWaiting]; (repeat' split) <;> simp (maxDischargeDepth := 20) [ih, h]

@[simp] theorem makeCurrent_fixed {pq : Setup} {s : State} (r : Rec) (h : Fixed pq s) :
    Fixed pq (makeCurrent r s) := by
  simp (maxDischargeDepth := 20) [makeCurrent, h]

@[simp] theorem effectWritten_fixed {pq : Setup} {s : State} (j : JWrite) (h : Fixed pq s) :
    Fixed pq (effectWritten j s) := by
  unfold effectWritten
  split <;> simp (maxDischargeDepth := 20) [h]

@[simp] theorem wearWritten_fixed {pq : Setup} {s : State} (r : Rec) (h : Fixed pq s) :
    Fixed pq (wearWritten r s) := by
  unfold wearWritten
  split <;> simp (maxDischargeDepth := 20) [h]

@[simp] theorem recordWritten_fixed {pq : Setup} {s : State} (one : Bool) (j : JWrite) (r : Rec) (h : Fixed pq s) :
    Fixed pq (recordWritten one j r s) := by
  unfold recordWritten
  extract_lets _ s1 s2 _ s3
  have h2 : Fixed pq s2 := by simp (maxDischargeDepth := 20) [s2, s1, h]
  have h3 : Fixed pq s3 := by simp only [s3]; split <;> simp [h2]
  exact finishWaiting_fixed _ _ h3

@[simp] theorem markTaken_fixed {pq : Setup} {s : State} (w : What) (id : Nat) (h : Fixed pq s) :
    Fixed pq (markTaken w id s) := by
  simp (maxDischargeDepth := 20) [markTaken, h]

theorem buildRecord_fixed {pq : Setup} {s t : State} {j : JWrite} {single : Bool} {r : Rec} (h : Fixed pq s)
    (e : buildRecord j single s = some (r, t)) : Fixed pq t := by
  unfold buildRecord at e
  split at e
  · simp only [Option.map_eq_some_iff, Prod.mk.injEq] at e
    obtain ⟨_, -, -, rfl⟩ := e
    exact h
  · simp only [Option.map_eq_some_iff, Prod.mk.injEq] at e
    obtain ⟨_, -, -, rfl⟩ := e
    exact h
  · split at e
    · simp only [Option.some.injEq, Prod.mk.injEq] at e
      obtain ⟨-, rfl⟩ := e
      simp [h]
    · simp at e

theorem beginWrite_fixed {pq : Setup} {s t : State} {j : JWrite} (h : Fixed pq s) (e : beginWrite j s = some t) : Fixed pq t := by
  simp only [beginWrite] at e
  split at e
  · simp at e
  · split at e
    · simp at e
    · split at e
      · simp at e
      · exact startProgram_fixed (buildRecord_fixed h ‹_›) e

@[simp] theorem unqueue_fixed {pq : Setup} {s : State} (id : Nat) (h : Fixed pq s) :
    Fixed pq (unqueue id s) := by
  simp (maxDischargeDepth := 20) [unqueue, h]

@[simp] theorem beginFirst_fixed {pq : Setup} {s : State} (l : List JWrite) (h : Fixed pq s) : Fixed pq (beginFirst l s) := by
  induction l generalizing s with
  | nil => exact h
  | cons j l ih =>
    unfold beginFirst
    split
    · simp (maxDischargeDepth := 20) [ih, h]
    · split
      next t e => simp [beginWrite_fixed h e]
      next => exact ih h

@[simp] theorem beginFlushRecord_fixed {pq : Setup} {s : State} (h : Fixed pq s) : Fixed pq (beginFlushRecord s) := by
  unfold beginFlushRecord
  split
  · exact h
  · extract_lets j _ s1
    have h1 : Fixed pq s1 := by simp [s1, h]
    split
    · simp [h1]
    · split
      next t e => simp [beginWrite_fixed h1 e]
      next => exact h

@[simp] theorem buildAgain_fixed {pq : Setup} {s : State} (j : JWrite) (h : Fixed pq s) :
    Fixed pq (buildAgain j s) := by
  simp (maxDischargeDepth := 20) [buildAgain, h]

theorem beginWaiting_fixed {pq : Setup} {s t : State} {c : CopyWait} (h : Fixed pq s) (e : beginWaiting c s = some t) : Fixed pq t := by
  simp only [beginWaiting] at e
  split at e
  · split at e <;> simp only [Option.some.injEq] at e <;> subst e <;> simp [h]
  · exact startProgram_fixed (by simp [h]) e

@[simp] theorem beginEach_fixed {pq : Setup} {s : State} (l : List CopyWait) (h : Fixed pq s) : Fixed pq (beginEach l s) := by
  induction l generalizing s with
  | nil => exact h
  | cons c l ih =>
    unfold beginEach
    split
    next t e => exact ih (beginWaiting_fixed h e)
    next => exact ih h

@[simp] theorem pumpOnce_fixed {pq : Setup} {s : State} (h : Fixed pq s) : Fixed pq (pumpOnce s) := by
  unfold pumpOnce
  split
  · exact h
  · extract_lets s1
    have h1 : Fixed pq s1 := by simp [s1, h]
    (repeat' split) <;> simp [h1]

@[simp] theorem pump_fixed {pq : Setup} {s : State} (h : Fixed pq s) :
    Fixed pq (pump s) := by
  simp (maxDischargeDepth := 20) [pump, h]

@[simp] theorem dropSector_fixed {pq : Setup} {s : State} (bank sector : Nat) (h : Fixed pq s) :
    Fixed pq (dropSector bank sector s) := by
  simp (maxDischargeDepth := 20) [dropSector, h]

@[simp] theorem postRefresh_fixed {pq : Setup} {s : State} (x : Sector) (weak corrected reason : Nat) (first : Option (Nat × Nat)) (h : Fixed pq s) :
    Fixed pq (postRefresh x weak corrected reason first s) := by
  simp (maxDischargeDepth := 20) [postRefresh, h]

@[simp] theorem forgetHalf_fixed {pq : Setup} {s : State} (h : Fixed pq s) :
    Fixed pq (forgetHalf s) := by
  simp (maxDischargeDepth := 20) [forgetHalf, h]

@[simp] theorem takeOut_fixed {pq : Setup} {s : State} (copyB : Bool) (h : Fixed pq s) :
    Fixed pq (takeOut copyB s) := by
  simp (maxDischargeDepth := 20) [takeOut, h]

@[simp] theorem noteRetired_fixed {pq : Setup} {s : State} (copyB : Bool) (h : Fixed pq s) :
    Fixed pq (noteRetired copyB s) := by
  simp (maxDischargeDepth := 20) [noteRetired, h]

@[simp] theorem retireSector_fixed {pq : Setup} {s : State} (bank sector : Nat) (h : Fixed pq s) :
    Fixed pq (retireSector bank sector s) := by
  simp (maxDischargeDepth := 20) [retireSector, h]

@[simp] theorem startErase_fixed {pq : Setup} {s : State} (bank sector : Nat) (h : Fixed pq s) :
    Fixed pq (startErase bank sector s) := by
  simp (maxDischargeDepth := 20) [startErase, h]

@[simp] theorem countRefreshed_fixed {pq : Setup} {s : State} (h : Fixed pq s) :
    Fixed pq (countRefreshed s) := by
  unfold countRefreshed
  split <;> simp (maxDischargeDepth := 20) [h]

@[simp] theorem finishEmptying_fixed {pq : Setup} {s : State} (e : Emptying) (h : Fixed pq s) : Fixed pq (finishEmptying e s) := by
  unfold finishEmptying
  extract_lets _ s1 s2
  have h1 : Fixed pq s1 := by simp [s1, h]
  have h2 : Fixed pq s2 := by simp only [s2]; split <;> simp (maxDischargeDepth := 20) [h1]
  split <;> simp [h2]

@[simp] theorem tendOne_fixed {pq : Setup} {s : State} (e : Emptying) (h : Fixed pq s) : Fixed pq (tendOne s e) := by
  unfold tendOne
  split
  · simp [h]
  · exact fixed_foldl (fun _ _ h => by split <;> simp [h]) _ h

@[simp] theorem tendEmptying_fixed {pq : Setup} {s : State} (h : Fixed pq s) : Fixed pq (tendEmptying s) :=
  fixed_foldl (fun _ _ h => tendOne_fixed _ h) _ h

@[simp] theorem abandonForward_fixed {pq : Setup} {s : State} (h : Fixed pq s) :
    Fixed pq (abandonForward s) := by
  exact fixed_foldl (fun _ _ h => by simp [h]) _ h

@[simp] theorem queueCatchUp_fixed {pq : Setup} {s : State} (h : Fixed pq s) : Fixed pq (queueCatchUp s) :=
  fixed_foldl (fun _ _ h => by simp [h]) _ h

@[simp] theorem refreshNodes_fixed {pq : Setup} {s : State} (g : Nat) (h : Fixed pq s) : Fixed pq (refreshNodes g s) := h

@[simp] theorem putLive_fixed {pq : Setup} {s : State} (g live : Nat) (h : Fixed pq s) :
    Fixed pq (putLive g live s) := by
  simp (maxDischargeDepth := 20) [putLive, h]

@[simp] theorem markDirty_fixed {pq : Setup} {s : State} (g : Nat) (h : Fixed pq s) :
    Fixed pq (markDirty g s) := by
  simp (maxDischargeDepth := 20) [markDirty, h]

@[simp] theorem setLive_fixed {pq : Setup} {s : State} (g live : Nat) (h : Fixed pq s) :
    Fixed pq (setLive g live s) := by
  simp (maxDischargeDepth := 20) [setLive, h]

@[simp] theorem recountLive_fixed {pq : Setup} {s : State} (g : Nat) (h : Fixed pq s) :
    Fixed pq (recountLive g s) := by
  simp (maxDischargeDepth := 20) [recountLive, h]

@[simp] theorem queueCeiling_fixed {pq : Setup} {s : State} (g v : Nat) (h : Fixed pq s) :
    Fixed pq (queueCeiling g v s) := by
  unfold queueCeiling
  (repeat' split) <;> simp (maxDischargeDepth := 20) [h]

@[simp] theorem scheduleCeiling_fixed {pq : Setup} {s : State} (g : Nat) (h : Fixed pq s) :
    Fixed pq (scheduleCeiling g s) := by
  unfold scheduleCeiling
  (repeat' split) <;> simp (maxDischargeDepth := 20) [h]

@[simp] theorem queueNeededCeiling_fixed {pq : Setup} {s : State} (g needed : Nat) (h : Fixed pq s) :
    Fixed pq (queueNeededCeiling g needed s) := by
  unfold queueNeededCeiling
  (repeat' split) <;> simp (maxDischargeDepth := 20) [h]

@[simp] theorem raiseLeaf_fixed {pq : Setup} {s : State} (l : Leaf) (v : Nat) (h : Fixed pq s) :
    Fixed pq (raiseLeaf l v s) := by
  have fold (x : List Nat) (t : State) (h : Fixed pq t) : Fixed pq (x.foldl (fun s n => oweBounded n s) t) :=
    fixed_foldl (fun _ _ h => by simp [h]) x h
  simp (maxDischargeDepth := 20) [raiseLeaf, fold, h]

@[simp] theorem countWork_fixed {pq : Setup} {s : State} (g units : Nat) (class0 : Bool) (h : Fixed pq s) :
    Fixed pq (countWork g units class0 s) := by
  simp (maxDischargeDepth := 20) [countWork, h]

@[simp] theorem openGroup_fixed {pq : Setup} {s : State} (g domain : Nat) (key : W32) (h : Fixed pq s) :
    Fixed pq (openGroup g domain key s) := by
  simp (maxDischargeDepth := 20) [openGroup, h]

@[simp] theorem returnIfEmpty_fixed {pq : Setup} {s : State} (g : Nat) (h : Fixed pq s) :
    Fixed pq (returnIfEmpty g s) := by
  unfold returnIfEmpty
  split <;> simp (maxDischargeDepth := 20) [h]

@[simp] theorem moveLeaf_fixed {pq : Setup} {s : State} (l : Leaf) (target code : Nat) (defn : Bool) (h : Fixed pq s) :
    Fixed pq (moveLeaf l target code defn s) := by
  simp (maxDischargeDepth := 20) [moveLeaf, h]

@[simp] theorem admitRepair_fixed {pq : Setup} {s : State} (n : Nat) (h : Fixed pq s) :
    Fixed pq (admitRepair n s) := by
  unfold admitRepair
  split <;> simp (maxDischargeDepth := 20) [h]

@[simp] theorem admitRepairs_fixed {pq : Setup} {s : State} (h : Fixed pq s) : Fixed pq (admitRepairs s) :=
  fixed_foldl (fun _ _ h => by simp [h]) _ h

@[simp] theorem memRepair_fixed {pq : Setup} {s : State} (object level action leaves value : Nat) (h : Fixed pq s) :
    Fixed pq (memRepair object level action leaves value s) := by
  simp (maxDischargeDepth := 20) [memRepair, h]

@[simp] theorem postDone_fixed {pq : Setup} {s : State} (m : Maint) (started result value : Nat) (h : Fixed pq s) :
    Fixed pq (postDone m started result value s) := by
  simp (maxDischargeDepth := 20) [postDone, h]

@[simp] theorem maintDone_fixed {pq : Setup} {s : State} (m : Maint) (started result value : Nat) (h : Fixed pq s) :
    Fixed pq (maintDone m started result value s) := by
  simp (maxDischargeDepth := 20) [maintDone, h]

@[simp] theorem modSource_fixed {pq : Setup} {s : State} (n : Nat) (f : Source → Source) (h : Fixed pq s) :
    Fixed pq (modSource n f s) := by
  simp (maxDischargeDepth := 20) [modSource, h]

@[simp] theorem returnBlock_fixed {pq : Setup} {s : State} (block early : Nat) (h : Fixed pq s) :
    Fixed pq (returnBlock block early s) := by
  simp (maxDischargeDepth := 20) [returnBlock, h]

@[simp] theorem releaseActivity_fixed {pq : Setup} {s : State} (r : Running) (early : Nat) (h : Fixed pq s) :
    Fixed pq (releaseActivity r early s) := by
  have h1 : Fixed pq { s with pmu := { s.pmu with vTopCap := none, drawing := false } } := h
  unfold releaseActivity
  (repeat' split) <;> simp (maxDischargeDepth := 20) [h, h1]

@[simp] theorem endActivity_fixed {pq : Setup} {s : State} (result early : Nat) (h : Fixed pq s) :
    Fixed pq (endActivity result early s) := by
  unfold endActivity
  split <;> simp (maxDischargeDepth := 20) [h]

@[simp] theorem endCatchUp_fixed {pq : Setup} {s : State} (h : Fixed pq s) :
    Fixed pq (endCatchUp s) := by
  unfold endCatchUp
  split <;> simp (maxDischargeDepth := 20) [h]

@[simp] theorem refuseWaits_fixed {pq : Setup} {s : State} (p : Op → Bool) (st : Status) (h : Fixed pq s) :
    Fixed pq (refuseWaits p st s) :=
  fixed_foldl (fun _ _ h => by simp [h]) _ h

@[simp] theorem setSafe_fixed {pq : Setup} {s : State} (cause : Nat) (h : Fixed pq s) : Fixed pq (setSafe cause s) := by
  unfold setSafe
  exact postEvent_fixed _ _ _ h

@[simp] theorem enterSafe_fixed {pq : Setup} {s : State} (cause : Nat) (h : Fixed pq s) : Fixed pq (enterSafe cause s) := by
  unfold enterSafe
  split
  · exact h
  · refine fixed_foldl (fun _ _ h => by simp [h]) _ (refuseWaits_fixed _ _ (endActivity_fixed _ _ ?_))
    have h2 := tendEmptying_fixed (abandonForward_fixed (setSafe_fixed cause h))
    split <;> simp [h, h2]

@[simp] theorem chargeWork_fixed {pq : Setup} {s : State} (op : Op) (g units : Nat) (h : Fixed pq s) :
    Fixed pq (chargeWork op g units s) := by
  simp (maxDischargeDepth := 20) [chargeWork, h]

@[simp] theorem completeOn_fixed {pq : Setup} {s : State} (op : Op) (n : Nat) (resA resB : W64) (h : Fixed pq s) :
    Fixed pq (completeOn op n resA resB s) := by
  unfold completeOn
  split <;> simp (maxDischargeDepth := 20) [h]

@[simp] theorem retireNumber_fixed {pq : Setup} {s : State} (n : Nat) (h : Fixed pq s) :
    Fixed pq (retireNumber n s) := by
  simp (maxDischargeDepth := 20) [retireNumber, h]

theorem takeNumber_fixed {pq : Setup} {s t : State} {n inc : Nat} (h : Fixed pq s) (e : takeNumber s = some (n, inc, t)) :
    Fixed pq t := by
  unfold takeNumber at e
  (repeat' split at e) <;> simp only [Option.some.injEq, Prod.mk.injEq, reduceCtorEq] at e <;> obtain ⟨-, -, rfl⟩ := e <;>
    simp [h]

@[simp] theorem placeCounter_fixed {pq : Setup} {s : State} (op : Op) (cls : Cls) (n inc g : Nat) (h : Fixed pq s) :
    Fixed pq (placeCounter op cls n inc g s) := by
  simp (maxDischargeDepth := 20) [placeCounter, h]

theorem createPlan_fixed {pq : Setup} {s t : State} {op : Op} {p : Plan} (e : createPlan op s = .ok p) (h : Fixed pq t) :
    Fixed pq (p.run t) := by
  simp only [createPlan] at e
  (repeat' split at e) <;> simp only [Except.ok.injEq, reduceCtorEq] at e <;> subst e <;> dsimp only <;> split
  · next n inc t e => simp [takeNumber_fixed h e]
  · exact h
  · next n inc t e => simp (maxDischargeDepth := 20) [takeNumber_fixed h e]
  · exact h

theorem risePlan_fixed {pq : Setup} {t : State} {after : State → State × W64 × W64} (op : Op) (l : Leaf) (v units : Nat)
    (s : State) (ha : ∀ s, Fixed pq s → Fixed pq (after s).1) (h : Fixed pq t) :
    Fixed pq ((risePlan op l v units after s).run t) := by
  simp (maxDischargeDepth := 20) [risePlan, ha, h]

theorem reservePlan_fixed {pq : Setup} {s t : State} {op : Op} {p : Plan} (e : reservePlan op s = .ok p) (h : Fixed pq t) :
    Fixed pq (p.run t) := by
  simp only [reservePlan, bind, Except.bind] at e
  (repeat' split at e) <;> simp only [Except.ok.injEq, reduceCtorEq] at e
  subst e
  exact risePlan_fixed _ _ _ _ _ (fun _ h => h) h

theorem advancePlan_fixed {pq : Setup} {s t : State} {op : Op} {p : Plan} (e : advancePlan op s = .ok p) (h : Fixed pq t) :
    Fixed pq (p.run t) := by
  simp only [advancePlan, bind, Except.bind] at e
  (repeat' split at e) <;> simp only [Except.ok.injEq, reduceCtorEq] at e
  subst e
  exact risePlan_fixed _ _ _ _ _ (fun _ h => h) h

theorem raisePlan_fixed {pq : Setup} {s t : State} {op : Op} {p : Plan} (e : raisePlan op s = .ok p) (h : Fixed pq t) :
    Fixed pq (p.run t) := by
  simp only [raisePlan, bind, Except.bind] at e
  (repeat' split at e) <;> simp only [Except.ok.injEq, reduceCtorEq] at e <;> subst e
  · simp (maxDischargeDepth := 20) [h]
  · exact risePlan_fixed _ _ _ _ _ (fun _ h => h) h

@[simp] theorem countReport_fixed {pq : Setup} {s : State} (domain : Nat) (peer : W32) (cause n : Nat) (assoc : W32)
    (h : Fixed pq s) : Fixed pq (countReport domain peer cause n assoc s).1 := by
  simp only [countReport]
  (repeat' split) <;> simp [h]

theorem faultReportPlan_fixed {pq : Setup} {s t : State} {op : Op} {p : Plan} (e : faultReportPlan op s = .ok p)
    (h : Fixed pq t) : Fixed pq (p.run t) := by
  simp only [faultReportPlan, bind, Except.bind] at e
  (repeat' split at e) <;> simp only [Except.ok.injEq, reduceCtorEq] at e <;> subst e <;>
    exact risePlan_fixed _ _ _ _ _ (fun _ h => countReport_fixed _ _ _ _ _ h) h

theorem readPlan_fixed {pq : Setup} {s t : State} {op : Op} {p : Plan} (e : readPlan op s = .ok p) (h : Fixed pq t) :
    Fixed pq (p.run t) := by
  simp only [readPlan] at e
  (repeat' split at e) <;> simp only [Except.ok.injEq, reduceCtorEq] at e <;> subst e <;>
    simp (maxDischargeDepth := 20) [h]

theorem groupReadPlan_fixed {pq : Setup} {s t : State} {op : Op} {p : Plan} (e : groupReadPlan op s = .ok p)
    (h : Fixed pq t) : Fixed pq (p.run t) := by
  simp only [groupReadPlan, bind, Except.bind] at e
  (repeat' split at e) <;> simp only [Except.ok.injEq, reduceCtorEq] at e
  subst e
  simp (maxDischargeDepth := 20) [h]

@[simp] theorem closeLeaf_fixed {pq : Setup} {s : State} (l : Leaf) (h : Fixed pq s) :
    Fixed pq (closeLeaf l s) := by
  simp (maxDischargeDepth := 20) [closeLeaf, h]

theorem closePlan_fixed {pq : Setup} {s t : State} {op : Op} {p : Plan} (e : closePlan op s = .ok p) (h : Fixed pq t) :
    Fixed pq (p.run t) := by
  simp only [closePlan, bind, Except.bind] at e
  (repeat' split at e) <;> simp only [Except.ok.injEq, reduceCtorEq] at e
  subst e
  simp (maxDischargeDepth := 20) [h]

@[simp] theorem setClass_fixed {pq : Setup} {s : State} (l : Leaf) (cls : Cls) (b : Nat) (h : Fixed pq s) :
    Fixed pq (setClass l cls b s) := by
  simp (maxDischargeDepth := 20) [setClass, h]

@[simp] theorem finishReclass_fixed {pq : Setup} {s : State} (op : Op) (l : Leaf) (cls : Cls) (h : Fixed pq s) :
    Fixed pq (finishReclass op l cls s) := by
  simp (maxDischargeDepth := 20) [finishReclass, h]

@[simp] theorem openForMove_fixed {pq : Setup} {s : State} (g : Nat) (l : Leaf) (h : Fixed pq s) :
    Fixed pq (openForMove g l s) := by
  simp (maxDischargeDepth := 20) [openForMove, h]

theorem reclassPlan_fixed {pq : Setup} {s t : State} {op : Op} {p : Plan} (e : reclassPlan op s = .ok p) (h : Fixed pq t) :
    Fixed pq (p.run t) := by
  simp only [reclassPlan, bind, Except.bind] at e
  (repeat' split at e) <;> simp only [Except.ok.injEq, reduceCtorEq] at e <;> subst e <;>
    simp (maxDischargeDepth := 20) [h]

@[simp] theorem openForReclass_fixed {pq : Setup} {s : State} (op : Op) (h : Fixed pq s) :
    Fixed pq (openForReclass op s) := by
  unfold openForReclass
  (repeat' split) <;> simp (maxDischargeDepth := 20) [h]

theorem ctrPlan_fixed {pq : Setup} {s t : State} {op : Op} {p : Plan} (e : ctrPlan op s = .ok p) (h : Fixed pq t) :
    Fixed pq (p.run t) := by
  unfold ctrPlan at e
  split at e
  · exact createPlan_fixed e h
  · exact readPlan_fixed e h
  · exact advancePlan_fixed e h
  · exact reservePlan_fixed e h
  · exact raisePlan_fixed e h
  · exact closePlan_fixed e h
  · exact reclassPlan_fixed e h
  · exact groupReadPlan_fixed e h
  · exact faultReportPlan_fixed e h

@[simp] theorem setKid_fixed {pq : Setup} {s : State} (x : Kid) (h : Fixed pq s) :
    Fixed pq (setKid x s) := by
  simp (maxDischargeDepth := 20) [setKid, h]

theorem allocPlan_fixed {pq : Setup} {s t : State} {op : Op} {x : Kid} {p : Plan} (e : allocPlan op x s = .ok p)
    (h : Fixed pq t) : Fixed pq (p.run t) := by
  simp only [allocPlan] at e
  (repeat' split at e) <;> simp only [Except.ok.injEq, reduceCtorEq] at e <;> subst e <;>
    simp (maxDischargeDepth := 20) [h]

theorem beginPlan_fixed {pq : Setup} {s t : State} {op : Op} {x : Kid} {p : Plan} (e : beginPlan op x s = .ok p)
    (h : Fixed pq t) : Fixed pq (p.run t) := by
  simp only [beginPlan] at e
  (repeat' split at e) <;> simp only [Except.ok.injEq, reduceCtorEq] at e <;> subst e <;>
    simp (maxDischargeDepth := 20) [h]

theorem flushedPlan_fixed {pq : Setup} {s t : State} {op : Op} {x : Kid} {p : Plan} (e : flushedPlan op x s = .ok p)
    (h : Fixed pq t) : Fixed pq (p.run t) := by
  simp only [flushedPlan] at e
  (repeat' split at e) <;> simp only [Except.ok.injEq, reduceCtorEq] at e <;> subst e <;>
    simp (maxDischargeDepth := 20) [h]

@[simp] theorem finishCommit_fixed {pq : Setup} {s : State} (op : Op) (x : Kid) (h : Fixed pq s) :
    Fixed pq (finishCommit op x s) := by
  simp (maxDischargeDepth := 20) [finishCommit, h]

theorem commitPlan_fixed {pq : Setup} {s t : State} {op : Op} {x : Kid} {p : Plan} (e : commitPlan op x s = .ok p)
    (h : Fixed pq t) : Fixed pq (p.run t) := by
  simp only [commitPlan] at e
  (repeat' split at e) <;> simp only [Except.ok.injEq, reduceCtorEq] at e <;> subst e <;>
    simp (maxDischargeDepth := 20) [h]

theorem kidReadPlan_fixed {pq : Setup} {t : State} (op : Op) (x : Kid) (h : Fixed pq t) :
    Fixed pq ((kidReadPlan op x).run t) := by
  simp [kidReadPlan, h]

theorem kidPlan_fixed {pq : Setup} {s t : State} {op : Op} {p : Plan} (e : kidPlan op s = .ok p) (h : Fixed pq t) :
    Fixed pq (p.run t) := by
  simp only [kidPlan] at e
  split at e
  · simp at e
  · split at e
    · exact allocPlan_fixed e h
    · exact beginPlan_fixed e h
    · exact flushedPlan_fixed e h
    · exact commitPlan_fixed e h
    · simp only [Except.ok.injEq] at e
      exact e ▸ kidReadPlan_fixed _ _ h

@[simp] theorem setPage_fixed {pq : Setup} {s : State} (x : Page) (h : Fixed pq s) :
    Fixed pq (setPage x s) := by
  simp (maxDischargeDepth := 20) [setPage, h]

theorem paramReadPlan_fixed {pq : Setup} {s t : State} {op : Op} {p : Plan} (e : paramReadPlan op s = .ok p)
    (h : Fixed pq t) : Fixed pq (p.run t) := by
  simp only [paramReadPlan] at e
  split at e <;> simp only [Except.ok.injEq, reduceCtorEq] at e
  subst e
  simp [h]

theorem paramWritePlan_fixed {pq : Setup} {s t : State} {op : Op} {p : Plan} (e : paramWritePlan op s = .ok p)
    (h : Fixed pq t) : Fixed pq (p.run t) := by
  simp only [paramWritePlan, Except.ok.injEq] at e
  subst e
  simp (maxDischargeDepth := 20) [h]

@[simp] theorem syncPage_fixed {pq : Setup} {s : State} (p : Nat) (h : Fixed pq s) : Fixed pq (syncPage p s).2 := by
  simp only [syncPage]
  (repeat' split) <;> simp [h]

@[simp] theorem syncPages_fixed {pq : Setup} {s : State} (l : List Nat) (h : Fixed pq s) : Fixed pq (syncPages l s).2 := by
  induction l generalizing s with
  | nil => exact h
  | cons p l ih => simp [syncPages, ih, h]

theorem paramSyncPlan_fixed {pq : Setup} {t : State} (op : Op) (h : Fixed pq t) : Fixed pq ((paramSyncPlan op).run t) := by
  simp [paramSyncPlan, h]

theorem paramPlan_fixed {pq : Setup} {s t : State} {op : Op} {p : Plan} (e : paramPlan op s = .ok p) (h : Fixed pq t) :
    Fixed pq (p.run t) := by
  unfold paramPlan at e
  split at e
  · simp at e
  · split at e
    · exact paramReadPlan_fixed e h
    · exact paramWritePlan_fixed e h
    · simp only [Except.ok.injEq] at e
      exact e ▸ paramSyncPlan_fixed _ h

@[simp] theorem updateRandom_fixed {pq : Setup} {s : State} (h : Fixed pq s) :
    Fixed pq (updateRandom s) := by
  simp (maxDischargeDepth := 20) [updateRandom, h]

@[simp] theorem giveInternal_fixed {pq : Setup} {s : State} (d : Internal8) (e : W384) (h : Fixed pq s) :
    Fixed pq (giveInternal d e s) := by
  simp (maxDischargeDepth := 20) [giveInternal, h]

@[simp] theorem serveInternals_fixed {pq : Setup} {s : State} (n : Nat) (h : Fixed pq s) : Fixed pq (serveInternals n s) := by
  induction n generalizing s with
  | zero => exact h
  | succ n ih => simp only [serveInternals]; (repeat' split) <;> simp [ih, h]

@[simp] theorem serveHost_fixed {pq : Setup} {s : State} (n : Nat) (h : Fixed pq s) : Fixed pq (serveHost n s) := by
  cases n with
  | zero => exact h
  | succ n => simp only [serveHost, h.2.2.2.1]; exact h

@[simp] theorem modPort_fixed {pq : Setup} {s : State} (p : Nat) (f : Port → Port) (h : Fixed pq s) :
    Fixed pq (modPort p f s) := by
  simp (maxDischargeDepth := 20) [modPort, h]

@[simp] theorem sendTx_fixed {pq : Setup} {s : State} (p : Nat) (txs : List Tx) (h : Fixed pq s) :
    Fixed pq (sendTx p txs s) := by
  unfold sendTx
  split <;> simp (maxDischargeDepth := 20) [h]

theorem takeChallenge_fixed {pq : Setup} {s t : State} {l : List Need} {c : W128} (h : Fixed pq s)
    (e : takeChallenge l s = some (c, t)) : Fixed pq t := by
  unfold takeChallenge at e
  (repeat' split at e) <;> simp only [Option.some.injEq, Prod.mk.injEq, reduceCtorEq] at e <;> obtain ⟨-, rfl⟩ := e <;>
    simp [h]

theorem objectPlan_fixed {pq : Setup} {s t : State} {op : Op} {p : Plan} (e : objectPlan op s = .ok p) (h : Fixed pq t) :
    Fixed pq (p.run t) := by
  unfold objectPlan at e
  split at e
  · exact ctrPlan_fixed e h
  · split at e
    · exact kidPlan_fixed e h
    · exact paramPlan_fixed e h

@[simp] theorem modPos_fixed {pq : Setup} {s : State} (p i : Nat) (f : Pos → Pos) (h : Fixed pq s) :
    Fixed pq (modPos p i f s) := by
  simp (maxDischargeDepth := 20) [modPos, h]

@[simp] theorem setAct_fixed {pq : Setup} {s : State} (p : Nat) (a : Act) (h : Fixed pq s) :
    Fixed pq (setAct p a s) := by
  simp (maxDischargeDepth := 20) [setAct, h]

@[simp] theorem chargePort_fixed {pq : Setup} {s : State} (p : Nat) (h : Fixed pq s) :
    Fixed pq (chargePort p s) := by
  simp (maxDischargeDepth := 20) [chargePort, h]

@[simp] theorem tryCharge_fixed {pq : Setup} {s : State} (p : Nat) (h : Fixed pq s) :
    Fixed pq (tryCharge p s) := by
  unfold tryCharge
  split <;> simp (maxDischargeDepth := 20) [h]

@[simp] theorem checkHalyard_fixed {pq : Setup} {s : State} (h : Fixed pq s) :
    Fixed pq (checkHalyard s) := by
  simp (maxDischargeDepth := 20) [checkHalyard, h]

@[simp] theorem postUnplug_fixed {pq : Setup} {s : State} (p : Nat) (lost : List Nat) (oldEpoch newEpoch : W32) (reason : Nat) (h : Fixed pq s) :
    Fixed pq (postUnplug p lost oldEpoch newEpoch reason s) := by
  unfold postUnplug
  split <;> simp (maxDischargeDepth := 20) [h]

@[simp] theorem postPlug_fixed {pq : Setup} {s : State} (p : Nat) (y : Pos) (flags : Nat) (h : Fixed pq s) :
    Fixed pq (postPlug p y flags s) := by
  unfold postPlug
  split <;> simp (maxDischargeDepth := 20) [h]

@[simp] theorem putMirror_fixed {pq : Setup} {s : State} (m : Mirror) (h : Fixed pq s) :
    Fixed pq (putMirror m s) := by
  simp (maxDischargeDepth := 20) [putMirror, h]

@[simp] theorem deauth_fixed {pq : Setup} {s : State} (p i : Nat) (h : Fixed pq s) :
    Fixed pq (deauth p i s) := by
  simp (maxDischargeDepth := 20) [deauth, h]

@[simp] theorem keepPresent_fixed {pq : Setup} {s : State} (idx : Nat) (h : Fixed pq s) :
    Fixed pq (keepPresent idx s) := by
  simp (maxDischargeDepth := 20) [keepPresent, h]

@[simp] theorem applyCount_fixed {pq : Setup} {s : State} (p i c : Nat) (h : Fixed pq s) :
    Fixed pq (applyCount p i c s).2 := by
  simp only [applyCount]
  (repeat' split) <;> simp (maxDischargeDepth := 20) [h]

@[simp] theorem applyIdent_fixed {pq : Setup} {s : State} (p i : Nat) (first inexact : Bool) (limit : Option Nat) (h : Fixed pq s) :
    Fixed pq (applyIdent p i first inexact limit s) := by
  unfold applyIdent
  split <;> simp (maxDischargeDepth := 20) [h]

@[simp] theorem changeMirror_fixed {pq : Setup} {s : State} (serial : W64) (f : Mirror → Mirror) (h : Fixed pq s) :
    Fixed pq (changeMirror serial f s) := by
  unfold changeMirror
  split <;> simp (maxDischargeDepth := 20) [h]

@[simp] theorem clearPresent_fixed {pq : Setup} {s : State} (idx : Nat) (h : Fixed pq s) :
    Fixed pq (clearPresent idx s) := by
  simp (maxDischargeDepth := 20) [clearPresent, h]

@[simp] theorem retryClearing_fixed {pq : Setup} {s : State} (h : Fixed pq s) :
    Fixed pq (retryClearing s) := by
  exact fixed_foldl (fun _ _ h => by simp [h]) _ h

@[simp] theorem dropPresent_fixed {pq : Setup} {s : State} (p : Nat) (keep : List W64) (h : Fixed pq s) :
    Fixed pq (dropPresent p keep s) := by
  exact fixed_foldl (fun _ _ h => by simp [h]) _ h

@[simp] theorem sendExch_fixed {pq : Setup} {s : State} (p : Nat) (x : Exch) (h : Fixed pq s) :
    Fixed pq (sendExch p x s) := by
  simp (maxDischargeDepth := 20) [sendExch, h]

@[simp] theorem sendWith_fixed {pq : Setup} {s : State} (p : Nat) (x : Exch) (challenge : W128) (h : Fixed pq s) :
    Fixed pq (sendWith p x challenge s) := by
  simp (maxDischargeDepth := 20) [sendWith, h]

@[simp] theorem beginExch_fixed {pq : Setup} {s : State} (p : Nat) (x : Exch) (h : Fixed pq s) : Fixed pq (beginExch p x s) := by
  unfold beginExch
  split
  · simp [h]
  · split
    next e => simp [takeChallenge_fixed h e]
    next => simp (maxDischargeDepth := 20) [h]

@[simp] theorem startTake_fixed {pq : Setup} {s : State} (p : Nat) (h : Fixed pq s) :
    Fixed pq (startTake p s) := by
  simp (maxDischargeDepth := 20) [startTake, h]

@[simp] theorem beginSeries_fixed {pq : Setup} {s : State} (p : Nat) (h : Fixed pq s) :
    Fixed pq (beginSeries p s) := by
  unfold beginSeries
  (repeat' split) <;> simp (maxDischargeDepth := 20) [h]

@[simp] theorem wantSeries_fixed {pq : Setup} {s : State} (p : Nat) (why : SlateWhy) (k : Nat) (ops : List Nat) (h : Fixed pq s) :
    Fixed pq (wantSeries p why k ops s) := by
  simp (maxDischargeDepth := 20) [wantSeries, h]

@[simp] theorem startSweep_fixed {pq : Setup} {s : State} (p : Nat) (earlier : List SweepRes) (h : Fixed pq s) :
    Fixed pq (startSweep p earlier s) := by
  simp (maxDischargeDepth := 20) [startSweep, h]

@[simp] theorem refuseOps_fixed {pq : Setup} {s : State} (ks : List Nat) (st : Status) (h : Fixed pq s) :
    Fixed pq (refuseOps ks st s) := by
  exact fixed_foldl (fun _ _ h => by (repeat' split) <;> simp (maxDischargeDepth := 20) [h]) _ h

@[simp] theorem clearWork_fixed {pq : Setup} {s : State} (p : Nat) (h : Fixed pq s) :
    Fixed pq (clearWork p s) := by
  simp (maxDischargeDepth := 20) [clearWork, h]

@[simp] theorem losePositions_fixed {pq : Setup} {s : State} (p reason : Nat) (h : Fixed pq s) :
    Fixed pq (losePositions p reason s) := by
  unfold losePositions
  split <;> simp (maxDischargeDepth := 20) [h]

@[simp] theorem endPowerOff_fixed {pq : Setup} {s : State} (p : Nat) (h : Fixed pq s) : Fixed pq (endPowerOff p s) := by
  unfold endPowerOff
  split
  · exact h
  · exact fixed_foldl (fun _ _ h => by simp [h]) _ h

@[simp] theorem goDown_fixed {pq : Setup} {s : State} (p : Nat) (h : Fixed pq s) :
    Fixed pq (goDown p s) := by
  unfold goDown
  split <;> simp (maxDischargeDepth := 20) [h]

@[simp] theorem applyPower_fixed {pq : Setup} {s : State} (op : Op) (p : Nat) (h : Fixed pq s) :
    Fixed pq (applyPower op p s) := by
  simp only [applyPower]
  (repeat' split) <;> simp (maxDischargeDepth := 20) [h]

@[simp] theorem dropHead_fixed {pq : Setup} {s : State} (p : Nat) (h : Fixed pq s) :
    Fixed pq (dropHead p s) := by
  simp (maxDischargeDepth := 20) [dropHead, h]

@[simp] theorem startConsume_fixed {pq : Setup} {s : State} (op : Op) (p : Nat) (h : Fixed pq s) :
    Fixed pq (startConsume op p s).2 := by
  simp only [startConsume]
  (repeat' split) <;> simp (maxDischargeDepth := 20) [h]

@[simp] theorem startHost_fixed {pq : Setup} {s : State} (n p : Nat) (h : Fixed pq s) : Fixed pq (startHost n p s).2 := by
  induction n generalizing s with
  | zero => exact h
  | succ n ih => simp only [startHost]; (repeat' split) <;> simp (maxDischargeDepth := 20) [ih, h]

@[simp] theorem startAuth_fixed {pq : Setup} {s : State} (p : Nat) (y : Pos) (h : Fixed pq s) :
    Fixed pq (startAuth p y s) := by
  simp (maxDischargeDepth := 20) [startAuth, h]

@[simp] theorem startNext_fixed {pq : Setup} {s : State} (p : Nat) (h : Fixed pq s) : Fixed pq (startNext p s) := by
  unfold startNext
  split
  · exact h
  next x _ =>
    have hs := startHost_fixed (x.queue.length + 1) p h
    generalize startHost (x.queue.length + 1) p s = r at hs
    obtain ⟨b, s1⟩ := r
    simp only at hs
    cases b <;> (repeat' split) <;> simp_all

@[simp] theorem serveAll_fixed {pq : Setup} {s : State} (h : Fixed pq s) :
    Fixed pq (serveAll s) := by
  exact fixed_foldl (fun _ _ h => by simp [h]) _ h

@[simp] theorem finishAct_fixed {pq : Setup} {s : State} (p : Nat) (h : Fixed pq s) :
    Fixed pq (finishAct p s) := by
  simp (maxDischargeDepth := 20) [finishAct, h]

@[simp] theorem nextExch_fixed {pq : Setup} {s : State} (p : Nat) (x : Exch) (h : Fixed pq s) :
    Fixed pq (nextExch p x s) := by
  simp (maxDischargeDepth := 20) [nextExch, h]

@[simp] theorem pauseAct_fixed {pq : Setup} {s : State} (p : Nat) (a : Act) (h : Fixed pq s) :
    Fixed pq (pauseAct p a s) := by
  simp (maxDischargeDepth := 20) [pauseAct, h]

@[simp] theorem postPlugs_fixed {pq : Setup} {s : State} (p : Nat) (h : Fixed pq s) : Fixed pq (postPlugs p s) := by
  unfold postPlugs
  split
  · exact h
  · exact modPort_fixed _ _ (fixed_foldl (fun _ _ h => by split <;> simp [h]) _ h)

@[simp] theorem concludeSlate_fixed {pq : Setup} {s : State} (p : Nat) (h : Fixed pq s) : Fixed pq (concludeSlate p s) := by
  simp only [concludeSlate]
  split
  · exact h
  · split
    · simp [h]
    · exact finishAct_fixed _ (checkHalyard_fixed (fixed_foldl (fun _ _ h => by split <;> simp [h]) _
        (by simp (maxDischargeDepth := 20) [h])))

@[simp] theorem identFrom_fixed {pq : Setup} {s : State} (p i : Nat) (h : Fixed pq s) :
    Fixed pq (identFrom p i s) := by
  unfold identFrom
  split <;> simp (maxDischargeDepth := 20) [h]

@[simp] theorem againFrom_fixed {pq : Setup} {s : State} (p i : Nat) (h : Fixed pq s) :
    Fixed pq (againFrom p i s) := by
  unfold againFrom
  (repeat' split) <;> simp (maxDischargeDepth := 20) [h]

@[simp] theorem afterPos_fixed {pq : Setup} {s : State} (p : Nat) (x : Exch) (h : Fixed pq s) :
    Fixed pq (afterPos p x s) := by
  unfold afterPos
  split <;> simp (maxDischargeDepth := 20) [h]

@[simp] theorem endHost_fixed {pq : Setup} {s : State} (p k : Nat) (st : Status) (resA resB : Nat) (h : Fixed pq s) :
    Fixed pq (endHost p k st resA resB s) := by
  unfold endHost
  split <;> simp (maxDischargeDepth := 20) [h]

@[simp] theorem consumeAgain_fixed {pq : Setup} {s : State} (p : Nat) (x : Exch) (h : Fixed pq s) :
    Fixed pq (consumeAgain p x s) := by
  unfold consumeAgain
  split <;> simp (maxDischargeDepth := 20) [h]

@[simp] theorem consumeAuthed_fixed {pq : Setup} {s : State} (p : Nat) (x : Exch) (k c : Nat) (before : Option Mirror) (ok : Bool) (h : Fixed pq s) :
    Fixed pq (consumeAuthed p x k c before ok s) := by
  unfold consumeAuthed
  split <;> simp (maxDischargeDepth := 20) [h]

@[simp] theorem gainCount_fixed {pq : Setup} {s : State} (p : Nat) (x : Exch) (c : Nat) (h : Fixed pq s) :
    Fixed pq (gainCount p x c s) := by
  have hc := applyCount_fixed p x.pos c h
  simp only [gainCount]
  generalize applyCount p x.pos c s = r at hc
  obtain ⟨ok, s1⟩ := r
  simp only at hc
  (repeat' split) <;> simp (maxDischargeDepth := 20) [hc]

@[simp] theorem applyGain_fixed {pq : Setup} {s : State} (p : Nat) (x : Exch) (g : Gain) (h : Fixed pq s) :
    Fixed pq (applyGain p x g s) := by
  unfold applyGain
  (repeat' split) <;> simp (maxDischargeDepth := 20) [h]

@[simp] theorem retryChallenges_fixed {pq : Setup} {s : State} (h : Fixed pq s) : Fixed pq (retryChallenges s) := by
  refine fixed_foldl (fun s p h => ?_) _ h
  split
  · exact h
  · split
    · split
      next e => simp [takeChallenge_fixed h e]
      next => exact h
    · exact h

@[simp] theorem retryPlaces_fixed {pq : Setup} {s : State} (h : Fixed pq s) :
    Fixed pq (retryPlaces s) := by
  exact fixed_foldl (fun _ _ h => by (repeat' split) <;> simp (maxDischargeDepth := 20) [h]) _ h

@[simp] theorem dropOrphans_fixed {pq : Setup} {s : State} (h : Fixed pq s) :
    Fixed pq (dropOrphans s) := by
  exact fixed_foldl (fun _ _ h => by (repeat' split) <;> simp (maxDischargeDepth := 20) [h]) _ h

@[simp] theorem leaveEnergy_fixed {pq : Setup} {s : State} (k : Nat) (h : Fixed pq s) :
    Fixed pq (leaveEnergy k s) := by
  simp (maxDischargeDepth := 20) [leaveEnergy, h]

@[simp] theorem waitForPlan_fixed {pq : Setup} {s : State} (op : Op) (p : Plan) (h : Fixed pq s) :
    Fixed pq (waitForPlan op p s) := by
  simp (maxDischargeDepth := 20) [waitForPlan, h]

theorem startPlan_fixed {pq : Setup} {s : State} {r : Except Status Plan} (op : Op)
    (hr : ∀ p t, r = .ok p → Fixed pq t → Fixed pq (p.run t)) (h : Fixed pq s) : Fixed pq (startPlan op r s) := by
  unfold startPlan
  split
  · simp [h]
  · split
    · exact hr _ _ rfl h
    · simp [h]

@[simp] theorem wakeCommits_fixed {pq : Setup} {s : State} (h : Fixed pq s) : Fixed pq (wakeCommits s) := by
  refine fixed_foldl (fun s op h => ?_) _ h
  split
  · dsimp only
    split
    · exact startPlan_fixed _ (fun _ _ e h => kidPlan_fixed e h) h
    · exact h
  · exact h

@[simp] theorem startObject_fixed {pq : Setup} {s : State} (op : Op) (h : Fixed pq s) : Fixed pq (startObject op s) :=
  wakeCommits_fixed (startPlan_fixed _ (fun _ _ e h => objectPlan_fixed e h) h)

@[simp] theorem retryTag_fixed {pq : Setup} {s : State} (op : Op) (earlier : List Need) (h : Fixed pq s) :
    Fixed pq (retryTag op earlier s) := by
  simp only [retryTag]
  (repeat' split) <;> simp (maxDischargeDepth := 20) [h]

@[simp] theorem retryOp_fixed {pq : Setup} {s : State} (op : Op) (earlier : List Need) (h : Fixed pq s) :
    Fixed pq (retryOp op earlier s) := by
  unfold retryOp
  split
  · simp [h]
  · split
    · simp [h]
    next e =>
      split
      · exact wakeCommits_fixed (objectPlan_fixed e (by simp [h]))
      · split <;> simp [h]

theorem retryOrder_fixed {pq : Setup} {s : State} {activate : Op → State → State}
    (ha : ∀ op s, Fixed pq s → Fixed pq (activate op s)) (l : List Nat) (earlier : List Need) (h : Fixed pq s) :
    Fixed pq (retryOrder activate l earlier s) := by
  induction l generalizing s earlier with
  | nil => exact h
  | cons k l ih =>
    simp only [retryOrder]
    (repeat' split) <;> simp (maxDischargeDepth := 20) [ih, ha, h]

@[simp] theorem dropUnused_fixed {pq : Setup} {s : State} (h : Fixed pq s) :
    Fixed pq (dropUnused s) := by
  simp (maxDischargeDepth := 20) [dropUnused, h]

@[simp] theorem serveSeeds_fixed {pq : Setup} {s : State} (h : Fixed pq s) :
    Fixed pq (serveSeeds s) := by
  simp (maxDischargeDepth := 20) [serveSeeds, h]

@[simp] theorem countSeconds_fixed {pq : Setup} {s : State} (h : Fixed pq s) :
    Fixed pq (countSeconds s) := by
  simp (maxDischargeDepth := 20) [countSeconds, h]

@[simp] theorem setInactive_fixed {pq : Setup} {s : State} (x : Slot) (h : Fixed pq s) :
    Fixed pq (setInactive x s) := by
  simp (maxDischargeDepth := 20) [setInactive, h]

@[simp] theorem activate_fixed {pq : Setup} {s : State} (op : Op) (h : Fixed pq s) :
    Fixed pq (activate op s) := by
  simp (maxDischargeDepth := 20) [activate, h]

@[simp] theorem retryWaits_fixed {pq : Setup} {s : State} (h : Fixed pq s) : Fixed pq (retryWaits s) := by
  have h1 := retryOrder_fixed (pq := pq) (activate := activate) (fun _ _ h => by simp [h]) (admitRepairs s).hif.energyOrder []
    (admitRepairs_fixed h)
  simp (maxDischargeDepth := 20) [retryWaits, h1]

@[simp] theorem queueInternal_fixed {pq : Setup} {s : State} (kind block : Nat) (forced : Bool) (h : Fixed pq s) :
    Fixed pq (queueInternal kind block forced s) := by
  unfold queueInternal
  (repeat' split) <;> simp (maxDischargeDepth := 20) [h]

@[simp] theorem checkCopy_fixed {pq : Setup} {s : State} (block : Nat) (h : Fixed pq s) :
    Fixed pq (checkCopy block s) := by
  simp (maxDischargeDepth := 20) [checkCopy, h]

@[simp] theorem checkCopies_fixed {pq : Setup} {s : State} (h : Fixed pq s) :
    Fixed pq (checkCopies s) := by
  simp (maxDischargeDepth := 20) [checkCopies, h]

@[simp] theorem moveGroup_fixed {pq : Setup} {s : State} (g e gap : Nat) (h : Fixed pq s) :
    Fixed pq (moveGroup g e gap s) := by
  simp (maxDischargeDepth := 20) [moveGroup, h]

@[simp] theorem moveOff_fixed {pq : Setup} {s : State} (l : List Nat) (h : Fixed pq s) : Fixed pq (moveOff l s) := by
  induction l generalizing s with
  | nil => exact h
  | cons g l ih =>
    unfold moveOff
    split
    · dsimp only
      split
      · exact ih (by simp (maxDischargeDepth := 20) [h])
      · exact ih h
    · exact h

@[simp] theorem tendDrain_fixed {pq : Setup} {s : State} (h : Fixed pq s) : Fixed pq (tendDrain s) := by
  unfold tendDrain
  (repeat' split) <;> simp [h]

@[simp] theorem endScan_fixed {pq : Setup} {s : State} (h : Fixed pq s) :
    Fixed pq (endScan s) := by
  unfold endScan
  split <;> simp (maxDischargeDepth := 20) [h]

@[simp] theorem endCompact_fixed {pq : Setup} {s : State} (h : Fixed pq s) :
    Fixed pq (endCompact s) := by
  unfold endCompact
  split <;> simp (maxDischargeDepth := 20) [h]

@[simp] theorem checkJournal_fixed {pq : Setup} {s : State} (h : Fixed pq s) :
    Fixed pq (checkJournal s) := by
  simp (maxDischargeDepth := 20) [checkJournal, h]

@[simp] theorem tendMaint_fixed {pq : Setup} {s : State} (h : Fixed pq s) :
    Fixed pq (tendMaint s) := by
  simp (maxDischargeDepth := 20) [tendMaint, h]

@[simp] theorem background_fixed {pq : Setup} {s : State} (h : Fixed pq s) :
    Fixed pq (background s) := by
  simp (maxDischargeDepth := 20) [background, h]

/-! ### Operations on objects -/

/-- An operation on an object leaves them, from its checks on. -/
theorem gatedObject_fixed {pq : Setup} {s : State} (check : Option Status) (op : Op) (h : Fixed pq s) :
    Fixed pq (gated check op (startObject op) s) := by
  unfold gated
  split
  · exact refuse_fixed _ _ h
  · exact startObject_fixed _ h

/-- With no bad word nothing is repaired. -/
theorem repairOrSafe_nil (s : State) : repairOrSafe [] s = s := by simp [repairOrSafe, repairTree, isBad, treeLost, repairCopies]

theorem takePlace_fixed {pq : Setup} {s : State} (op : Op) (h : Fixed pq s) : Fixed pq (takePlace op s) := by
  simp (maxDischargeDepth := 20) [takePlace, h]

theorem runCounter_fixed {pq : Setup} {s : State} (op : Op) (h : Fixed pq s) : Fixed pq (runCounter [] op s) := by
  unfold runCounter gated
  split
  · exact refuse_fixed _ _ h
  · simp only [repairOrSafe_nil]
    exact gatedObject_fixed _ _ (takePlace_fixed _ h)

theorem runKid_fixed {pq : Setup} {s : State} (op : Op) (h : Fixed pq s) : Fixed pq (runKid op s) :=
  gatedObject_fixed _ _ h

theorem runParam_fixed {pq : Setup} {s : State} (op : Op) (h : Fixed pq s) : Fixed pq (runParam op s) :=
  gatedObject_fixed _ _ h

/-- A dispatch leaves them where its effect does. -/
theorem dispatchAt_fixed {pq : Setup} {p : Op → Bool} {t k : Nat} {run : Op → State → State} {s : State}
    (hr : ∀ op, Fixed pq (run op (advance t s))) (h : Fixed pq (advance t s)) : Fixed pq (dispatchAt p t k run s) := by
  unfold dispatchAt
  (repeat' split) <;> simp [h, hr]

end Sys2Proof.Machine
end

