-- ==== Sys2Proof/Laws/State.lean ====
section
/-!
SUPPORT. What each named update of the state leaves as it is, one lemma per field, and what a unit found by its number is after it.
-/
namespace Sys2Proof.Machine

/-! ### `hostWrites` -/

@[simp] theorem hostWrites_pending (hw : HostWrites) (s : State) : (hostWrites hw s).pending = s.pending := rfl
@[simp] theorem hostWrites_clk (hw : HostWrites) (s : State) : (hostWrites hw s).clk = s.clk := rfl
@[simp] theorem hostWrites_regs (hw : HostWrites) (s : State) : (hostWrites hw s).regs = s.regs := rfl
@[simp] theorem hostWrites_ready (hw : HostWrites) (s : State) : (hostWrites hw s).ready = s.ready := rfl
@[simp] theorem hostWrites_hif (hw : HostWrites) (s : State) : (hostWrites hw s).hif = s.hif := rfl
@[simp] theorem hostWrites_ev (hw : HostWrites) (s : State) : (hostWrites hw s).ev = s.ev := rfl
@[simp] theorem hostWrites_ctr (hw : HostWrites) (s : State) : (hostWrites hw s).ctr = s.ctr := rfl
@[simp] theorem hostWrites_int (hw : HostWrites) (s : State) : (hostWrites hw s).int = s.int := rfl
@[simp] theorem hostWrites_owed (hw : HostWrites) (s : State) : (hostWrites hw s).owed = s.owed := rfl
@[simp] theorem hostWrites_jrn (hw : HostWrites) (s : State) : (hostWrites hw s).jrn = s.jrn := rfl
@[simp] theorem hostWrites_flush (hw : HostWrites) (s : State) : (hostWrites hw s).flush = s.flush := rfl
@[simp] theorem hostWrites_kit (hw : HostWrites) (s : State) : (hostWrites hw s).kit = s.kit := rfl
@[simp] theorem hostWrites_hyc (hw : HostWrites) (s : State) : (hostWrites hw s).hyc = s.hyc := rfl
@[simp] theorem hostWrites_nsu (hw : HostWrites) (s : State) : (hostWrites hw s).nsu = s.nsu := rfl
@[simp] theorem hostWrites_drb (hw : HostWrites) (s : State) : (hostWrites hw s).drb = s.drb := rfl
@[simp] theorem hostWrites_pmu (hw : HostWrites) (s : State) : (hostWrites hw s).pmu = s.pmu := rfl
@[simp] theorem hostWrites_mnt (hw : HostWrites) (s : State) : (hostWrites hw s).mnt = s.mnt := rfl
@[simp] theorem hostWrites_plc (hw : HostWrites) (s : State) : (hostWrites hw s).plc = s.plc := rfl
@[simp] theorem hostWrites_hmu (hw : HostWrites) (s : State) : (hostWrites hw s).hmu = s.hmu := rfl
@[simp] theorem hostWrites_fw (hw : HostWrites) (s : State) : (hostWrites hw s).fw = s.fw := rfl
@[simp] theorem hostWrites_fuse (hw : HostWrites) (s : State) : (hostWrites hw s).fuse = s.fuse := rfl
@[simp] theorem hostWrites_keys (hw : HostWrites) (s : State) : (hostWrites hw s).keys = s.keys := rfl
@[simp] theorem hostWrites_out (hw : HostWrites) (s : State) : (hostWrites hw s).out = s.out := rfl

/-! ### `writeHost` -/

@[simp] theorem writeHost_pending (a : Nat) (bs : List Byte) (s : State) : (writeHost a bs s).pending = s.pending := rfl
@[simp] theorem writeHost_clk (a : Nat) (bs : List Byte) (s : State) : (writeHost a bs s).clk = s.clk := rfl
@[simp] theorem writeHost_regs (a : Nat) (bs : List Byte) (s : State) : (writeHost a bs s).regs = s.regs := rfl
@[simp] theorem writeHost_ready (a : Nat) (bs : List Byte) (s : State) : (writeHost a bs s).ready = s.ready := rfl
@[simp] theorem writeHost_hif (a : Nat) (bs : List Byte) (s : State) : (writeHost a bs s).hif = s.hif := rfl
@[simp] theorem writeHost_ev (a : Nat) (bs : List Byte) (s : State) : (writeHost a bs s).ev = s.ev := rfl
@[simp] theorem writeHost_ctr (a : Nat) (bs : List Byte) (s : State) : (writeHost a bs s).ctr = s.ctr := rfl
@[simp] theorem writeHost_int (a : Nat) (bs : List Byte) (s : State) : (writeHost a bs s).int = s.int := rfl
@[simp] theorem writeHost_owed (a : Nat) (bs : List Byte) (s : State) : (writeHost a bs s).owed = s.owed := rfl
@[simp] theorem writeHost_jrn (a : Nat) (bs : List Byte) (s : State) : (writeHost a bs s).jrn = s.jrn := rfl
@[simp] theorem writeHost_flush (a : Nat) (bs : List Byte) (s : State) : (writeHost a bs s).flush = s.flush := rfl
@[simp] theorem writeHost_kit (a : Nat) (bs : List Byte) (s : State) : (writeHost a bs s).kit = s.kit := rfl
@[simp] theorem writeHost_hyc (a : Nat) (bs : List Byte) (s : State) : (writeHost a bs s).hyc = s.hyc := rfl
@[simp] theorem writeHost_nsu (a : Nat) (bs : List Byte) (s : State) : (writeHost a bs s).nsu = s.nsu := rfl
@[simp] theorem writeHost_drb (a : Nat) (bs : List Byte) (s : State) : (writeHost a bs s).drb = s.drb := rfl
@[simp] theorem writeHost_pmu (a : Nat) (bs : List Byte) (s : State) : (writeHost a bs s).pmu = s.pmu := rfl
@[simp] theorem writeHost_mnt (a : Nat) (bs : List Byte) (s : State) : (writeHost a bs s).mnt = s.mnt := rfl
@[simp] theorem writeHost_plc (a : Nat) (bs : List Byte) (s : State) : (writeHost a bs s).plc = s.plc := rfl
@[simp] theorem writeHost_hmu (a : Nat) (bs : List Byte) (s : State) : (writeHost a bs s).hmu = s.hmu := rfl
@[simp] theorem writeHost_fw (a : Nat) (bs : List Byte) (s : State) : (writeHost a bs s).fw = s.fw := rfl
@[simp] theorem writeHost_fuse (a : Nat) (bs : List Byte) (s : State) : (writeHost a bs s).fuse = s.fuse := rfl
@[simp] theorem writeHost_keys (a : Nat) (bs : List Byte) (s : State) : (writeHost a bs s).keys = s.keys := rfl
@[simp] theorem writeHost_out (a : Nat) (bs : List Byte) (s : State) : (writeHost a bs s).out = s.out := rfl

/-! ### `advance` -/

@[simp] theorem advance_pending (t : Nat) (s : State) : (advance t s).pending = s.pending := by
  unfold advance; split <;> rfl
@[simp] theorem advance_mem (t : Nat) (s : State) : (advance t s).mem = s.mem := by
  unfold advance; split <;> rfl
@[simp] theorem advance_regs (t : Nat) (s : State) : (advance t s).regs = s.regs := by
  unfold advance; split <;> rfl
@[simp] theorem advance_ready (t : Nat) (s : State) : (advance t s).ready = s.ready := by
  unfold advance; split <;> rfl
@[simp] theorem advance_hif (t : Nat) (s : State) : (advance t s).hif = s.hif := by
  unfold advance; split <;> rfl
@[simp] theorem advance_ev (t : Nat) (s : State) : (advance t s).ev = s.ev := by
  unfold advance; split <;> rfl
@[simp] theorem advance_ctr (t : Nat) (s : State) : (advance t s).ctr = s.ctr := by
  unfold advance; split <;> rfl
@[simp] theorem advance_int (t : Nat) (s : State) : (advance t s).int = s.int := by
  unfold advance; split <;> rfl
@[simp] theorem advance_owed (t : Nat) (s : State) : (advance t s).owed = s.owed := by
  unfold advance; split <;> rfl
@[simp] theorem advance_jrn (t : Nat) (s : State) : (advance t s).jrn = s.jrn := by
  unfold advance; split <;> rfl
@[simp] theorem advance_flush (t : Nat) (s : State) : (advance t s).flush = s.flush := by
  unfold advance; split <;> rfl
@[simp] theorem advance_kit (t : Nat) (s : State) : (advance t s).kit = s.kit := by
  unfold advance; split <;> rfl
@[simp] theorem advance_hyc (t : Nat) (s : State) : (advance t s).hyc = s.hyc := by
  unfold advance; split <;> rfl
@[simp] theorem advance_nsu (t : Nat) (s : State) : (advance t s).nsu = s.nsu := by
  unfold advance; split <;> rfl
@[simp] theorem advance_drb (t : Nat) (s : State) : (advance t s).drb = s.drb := by
  unfold advance; split <;> rfl
@[simp] theorem advance_pmu (t : Nat) (s : State) : (advance t s).pmu = s.pmu := by
  unfold advance; split <;> rfl
@[simp] theorem advance_mnt (t : Nat) (s : State) : (advance t s).mnt = s.mnt := by
  unfold advance; split <;> rfl
@[simp] theorem advance_plc (t : Nat) (s : State) : (advance t s).plc = s.plc := by
  unfold advance; split <;> rfl
@[simp] theorem advance_hmu (t : Nat) (s : State) : (advance t s).hmu = s.hmu := by
  unfold advance; split <;> rfl
@[simp] theorem advance_fw (t : Nat) (s : State) : (advance t s).fw = s.fw := by
  unfold advance; split <;> rfl
@[simp] theorem advance_fuse (t : Nat) (s : State) : (advance t s).fuse = s.fuse := by
  unfold advance; split <;> rfl
@[simp] theorem advance_keys (t : Nat) (s : State) : (advance t s).keys = s.keys := by
  unfold advance; split <;> rfl
@[simp] theorem advance_out (t : Nat) (s : State) : (advance t s).out = s.out := by
  unfold advance; split <;> rfl

/-! ### `tick` -/

@[simp] theorem tick_pending (s : State) : (tick s).pending = s.pending := by
  unfold tick; split <;> rfl
@[simp] theorem tick_mem (s : State) : (tick s).mem = s.mem := by
  unfold tick; split <;> rfl
@[simp] theorem tick_regs (s : State) : (tick s).regs = s.regs := by
  unfold tick; split <;> rfl
@[simp] theorem tick_ready (s : State) : (tick s).ready = s.ready := by
  unfold tick; split <;> rfl
@[simp] theorem tick_hif (s : State) : (tick s).hif = s.hif := by
  unfold tick; split <;> rfl
@[simp] theorem tick_ev (s : State) : (tick s).ev = s.ev := by
  unfold tick; split <;> rfl
@[simp] theorem tick_ctr (s : State) : (tick s).ctr = s.ctr := by
  unfold tick; split <;> rfl
@[simp] theorem tick_int (s : State) : (tick s).int = s.int := by
  unfold tick; split <;> rfl
@[simp] theorem tick_owed (s : State) : (tick s).owed = s.owed := by
  unfold tick; split <;> rfl
@[simp] theorem tick_jrn (s : State) : (tick s).jrn = s.jrn := by
  unfold tick; split <;> rfl
@[simp] theorem tick_flush (s : State) : (tick s).flush = s.flush := by
  unfold tick; split <;> rfl
@[simp] theorem tick_kit (s : State) : (tick s).kit = s.kit := by
  unfold tick; split <;> rfl
@[simp] theorem tick_hyc (s : State) : (tick s).hyc = s.hyc := by
  unfold tick; split <;> rfl
@[simp] theorem tick_nsu (s : State) : (tick s).nsu = s.nsu := by
  unfold tick; split <;> rfl
@[simp] theorem tick_drb (s : State) : (tick s).drb = s.drb := by
  unfold tick; split <;> rfl
@[simp] theorem tick_pmu (s : State) : (tick s).pmu = s.pmu := by
  unfold tick; split <;> rfl
@[simp] theorem tick_mnt (s : State) : (tick s).mnt = s.mnt := by
  unfold tick; split <;> rfl
@[simp] theorem tick_plc (s : State) : (tick s).plc = s.plc := by
  unfold tick; split <;> rfl
@[simp] theorem tick_hmu (s : State) : (tick s).hmu = s.hmu := by
  unfold tick; split <;> rfl
@[simp] theorem tick_fw (s : State) : (tick s).fw = s.fw := by
  unfold tick; split <;> rfl
@[simp] theorem tick_fuse (s : State) : (tick s).fuse = s.fuse := by
  unfold tick; split <;> rfl
@[simp] theorem tick_keys (s : State) : (tick s).keys = s.keys := by
  unfold tick; split <;> rfl
@[simp] theorem tick_out (s : State) : (tick s).out = s.out := by
  unfold tick; split <;> rfl

/-! ### `modQp` -/

@[simp] theorem modQp_pending (n : Nat) (f : Qp → Qp) (s : State) : (modQp n f s).pending = s.pending := rfl
@[simp] theorem modQp_mem (n : Nat) (f : Qp → Qp) (s : State) : (modQp n f s).mem = s.mem := rfl
@[simp] theorem modQp_clk (n : Nat) (f : Qp → Qp) (s : State) : (modQp n f s).clk = s.clk := rfl
@[simp] theorem modQp_regs (n : Nat) (f : Qp → Qp) (s : State) : (modQp n f s).regs = s.regs := rfl
@[simp] theorem modQp_ready (n : Nat) (f : Qp → Qp) (s : State) : (modQp n f s).ready = s.ready := rfl
@[simp] theorem modQp_ev (n : Nat) (f : Qp → Qp) (s : State) : (modQp n f s).ev = s.ev := rfl
@[simp] theorem modQp_ctr (n : Nat) (f : Qp → Qp) (s : State) : (modQp n f s).ctr = s.ctr := rfl
@[simp] theorem modQp_int (n : Nat) (f : Qp → Qp) (s : State) : (modQp n f s).int = s.int := rfl
@[simp] theorem modQp_owed (n : Nat) (f : Qp → Qp) (s : State) : (modQp n f s).owed = s.owed := rfl
@[simp] theorem modQp_jrn (n : Nat) (f : Qp → Qp) (s : State) : (modQp n f s).jrn = s.jrn := rfl
@[simp] theorem modQp_flush (n : Nat) (f : Qp → Qp) (s : State) : (modQp n f s).flush = s.flush := rfl
@[simp] theorem modQp_kit (n : Nat) (f : Qp → Qp) (s : State) : (modQp n f s).kit = s.kit := rfl
@[simp] theorem modQp_hyc (n : Nat) (f : Qp → Qp) (s : State) : (modQp n f s).hyc = s.hyc := rfl
@[simp] theorem modQp_nsu (n : Nat) (f : Qp → Qp) (s : State) : (modQp n f s).nsu = s.nsu := rfl
@[simp] theorem modQp_drb (n : Nat) (f : Qp → Qp) (s : State) : (modQp n f s).drb = s.drb := rfl
@[simp] theorem modQp_pmu (n : Nat) (f : Qp → Qp) (s : State) : (modQp n f s).pmu = s.pmu := rfl
@[simp] theorem modQp_mnt (n : Nat) (f : Qp → Qp) (s : State) : (modQp n f s).mnt = s.mnt := rfl
@[simp] theorem modQp_plc (n : Nat) (f : Qp → Qp) (s : State) : (modQp n f s).plc = s.plc := rfl
@[simp] theorem modQp_hmu (n : Nat) (f : Qp → Qp) (s : State) : (modQp n f s).hmu = s.hmu := rfl
@[simp] theorem modQp_fw (n : Nat) (f : Qp → Qp) (s : State) : (modQp n f s).fw = s.fw := rfl
@[simp] theorem modQp_fuse (n : Nat) (f : Qp → Qp) (s : State) : (modQp n f s).fuse = s.fuse := rfl
@[simp] theorem modQp_keys (n : Nat) (f : Qp → Qp) (s : State) : (modQp n f s).keys = s.keys := rfl
@[simp] theorem modQp_out (n : Nat) (f : Qp → Qp) (s : State) : (modQp n f s).out = s.out := rfl

/-! ### `modOp` -/

@[simp] theorem modOp_pending (k : Nat) (f : Op → Op) (s : State) : (modOp k f s).pending = s.pending := rfl
@[simp] theorem modOp_mem (k : Nat) (f : Op → Op) (s : State) : (modOp k f s).mem = s.mem := rfl
@[simp] theorem modOp_clk (k : Nat) (f : Op → Op) (s : State) : (modOp k f s).clk = s.clk := rfl
@[simp] theorem modOp_regs (k : Nat) (f : Op → Op) (s : State) : (modOp k f s).regs = s.regs := rfl
@[simp] theorem modOp_ready (k : Nat) (f : Op → Op) (s : State) : (modOp k f s).ready = s.ready := rfl
@[simp] theorem modOp_ev (k : Nat) (f : Op → Op) (s : State) : (modOp k f s).ev = s.ev := rfl
@[simp] theorem modOp_ctr (k : Nat) (f : Op → Op) (s : State) : (modOp k f s).ctr = s.ctr := rfl
@[simp] theorem modOp_int (k : Nat) (f : Op → Op) (s : State) : (modOp k f s).int = s.int := rfl
@[simp] theorem modOp_owed (k : Nat) (f : Op → Op) (s : State) : (modOp k f s).owed = s.owed := rfl
@[simp] theorem modOp_jrn (k : Nat) (f : Op → Op) (s : State) : (modOp k f s).jrn = s.jrn := rfl
@[simp] theorem modOp_flush (k : Nat) (f : Op → Op) (s : State) : (modOp k f s).flush = s.flush := rfl
@[simp] theorem modOp_kit (k : Nat) (f : Op → Op) (s : State) : (modOp k f s).kit = s.kit := rfl
@[simp] theorem modOp_hyc (k : Nat) (f : Op → Op) (s : State) : (modOp k f s).hyc = s.hyc := rfl
@[simp] theorem modOp_nsu (k : Nat) (f : Op → Op) (s : State) : (modOp k f s).nsu = s.nsu := rfl
@[simp] theorem modOp_drb (k : Nat) (f : Op → Op) (s : State) : (modOp k f s).drb = s.drb := rfl
@[simp] theorem modOp_pmu (k : Nat) (f : Op → Op) (s : State) : (modOp k f s).pmu = s.pmu := rfl
@[simp] theorem modOp_mnt (k : Nat) (f : Op → Op) (s : State) : (modOp k f s).mnt = s.mnt := rfl
@[simp] theorem modOp_plc (k : Nat) (f : Op → Op) (s : State) : (modOp k f s).plc = s.plc := rfl
@[simp] theorem modOp_hmu (k : Nat) (f : Op → Op) (s : State) : (modOp k f s).hmu = s.hmu := rfl
@[simp] theorem modOp_fw (k : Nat) (f : Op → Op) (s : State) : (modOp k f s).fw = s.fw := rfl
@[simp] theorem modOp_fuse (k : Nat) (f : Op → Op) (s : State) : (modOp k f s).fuse = s.fuse := rfl
@[simp] theorem modOp_keys (k : Nat) (f : Op → Op) (s : State) : (modOp k f s).keys = s.keys := rfl
@[simp] theorem modOp_out (k : Nat) (f : Op → Op) (s : State) : (modOp k f s).out = s.out := rfl

/-! ### `setOpSt` -/

@[simp] theorem setOpSt_pending (k : Nat) (st : OpSt) (s : State) : (setOpSt k st s).pending = s.pending := rfl
@[simp] theorem setOpSt_mem (k : Nat) (st : OpSt) (s : State) : (setOpSt k st s).mem = s.mem := rfl
@[simp] theorem setOpSt_clk (k : Nat) (st : OpSt) (s : State) : (setOpSt k st s).clk = s.clk := rfl
@[simp] theorem setOpSt_regs (k : Nat) (st : OpSt) (s : State) : (setOpSt k st s).regs = s.regs := rfl
@[simp] theorem setOpSt_ready (k : Nat) (st : OpSt) (s : State) : (setOpSt k st s).ready = s.ready := rfl
@[simp] theorem setOpSt_ev (k : Nat) (st : OpSt) (s : State) : (setOpSt k st s).ev = s.ev := rfl
@[simp] theorem setOpSt_ctr (k : Nat) (st : OpSt) (s : State) : (setOpSt k st s).ctr = s.ctr := rfl
@[simp] theorem setOpSt_int (k : Nat) (st : OpSt) (s : State) : (setOpSt k st s).int = s.int := rfl
@[simp] theorem setOpSt_owed (k : Nat) (st : OpSt) (s : State) : (setOpSt k st s).owed = s.owed := rfl
@[simp] theorem setOpSt_jrn (k : Nat) (st : OpSt) (s : State) : (setOpSt k st s).jrn = s.jrn := rfl
@[simp] theorem setOpSt_flush (k : Nat) (st : OpSt) (s : State) : (setOpSt k st s).flush = s.flush := rfl
@[simp] theorem setOpSt_kit (k : Nat) (st : OpSt) (s : State) : (setOpSt k st s).kit = s.kit := rfl
@[simp] theorem setOpSt_hyc (k : Nat) (st : OpSt) (s : State) : (setOpSt k st s).hyc = s.hyc := rfl
@[simp] theorem setOpSt_nsu (k : Nat) (st : OpSt) (s : State) : (setOpSt k st s).nsu = s.nsu := rfl
@[simp] theorem setOpSt_drb (k : Nat) (st : OpSt) (s : State) : (setOpSt k st s).drb = s.drb := rfl
@[simp] theorem setOpSt_pmu (k : Nat) (st : OpSt) (s : State) : (setOpSt k st s).pmu = s.pmu := rfl
@[simp] theorem setOpSt_mnt (k : Nat) (st : OpSt) (s : State) : (setOpSt k st s).mnt = s.mnt := rfl
@[simp] theorem setOpSt_plc (k : Nat) (st : OpSt) (s : State) : (setOpSt k st s).plc = s.plc := rfl
@[simp] theorem setOpSt_hmu (k : Nat) (st : OpSt) (s : State) : (setOpSt k st s).hmu = s.hmu := rfl
@[simp] theorem setOpSt_fw (k : Nat) (st : OpSt) (s : State) : (setOpSt k st s).fw = s.fw := rfl
@[simp] theorem setOpSt_fuse (k : Nat) (st : OpSt) (s : State) : (setOpSt k st s).fuse = s.fuse := rfl
@[simp] theorem setOpSt_keys (k : Nat) (st : OpSt) (s : State) : (setOpSt k st s).keys = s.keys := rfl
@[simp] theorem setOpSt_out (k : Nat) (st : OpSt) (s : State) : (setOpSt k st s).out = s.out := rfl

/-! ### `removeOp` -/

@[simp] theorem removeOp_pending (k : Nat) (s : State) : (removeOp k s).pending = s.pending := rfl
@[simp] theorem removeOp_mem (k : Nat) (s : State) : (removeOp k s).mem = s.mem := rfl
@[simp] theorem removeOp_clk (k : Nat) (s : State) : (removeOp k s).clk = s.clk := rfl
@[simp] theorem removeOp_regs (k : Nat) (s : State) : (removeOp k s).regs = s.regs := rfl
@[simp] theorem removeOp_ready (k : Nat) (s : State) : (removeOp k s).ready = s.ready := rfl
@[simp] theorem removeOp_ev (k : Nat) (s : State) : (removeOp k s).ev = s.ev := rfl
@[simp] theorem removeOp_ctr (k : Nat) (s : State) : (removeOp k s).ctr = s.ctr := rfl
@[simp] theorem removeOp_int (k : Nat) (s : State) : (removeOp k s).int = s.int := rfl
@[simp] theorem removeOp_owed (k : Nat) (s : State) : (removeOp k s).owed = s.owed := rfl
@[simp] theorem removeOp_jrn (k : Nat) (s : State) : (removeOp k s).jrn = s.jrn := rfl
@[simp] theorem removeOp_flush (k : Nat) (s : State) : (removeOp k s).flush = s.flush := rfl
@[simp] theorem removeOp_kit (k : Nat) (s : State) : (removeOp k s).kit = s.kit := rfl
@[simp] theorem removeOp_hyc (k : Nat) (s : State) : (removeOp k s).hyc = s.hyc := rfl
@[simp] theorem removeOp_drb (k : Nat) (s : State) : (removeOp k s).drb = s.drb := rfl
@[simp] theorem removeOp_pmu (k : Nat) (s : State) : (removeOp k s).pmu = s.pmu := rfl
@[simp] theorem removeOp_mnt (k : Nat) (s : State) : (removeOp k s).mnt = s.mnt := rfl
@[simp] theorem removeOp_plc (k : Nat) (s : State) : (removeOp k s).plc = s.plc := rfl
@[simp] theorem removeOp_hmu (k : Nat) (s : State) : (removeOp k s).hmu = s.hmu := rfl
@[simp] theorem removeOp_fw (k : Nat) (s : State) : (removeOp k s).fw = s.fw := rfl
@[simp] theorem removeOp_fuse (k : Nat) (s : State) : (removeOp k s).fuse = s.fuse := rfl
@[simp] theorem removeOp_keys (k : Nat) (s : State) : (removeOp k s).keys = s.keys := rfl
@[simp] theorem removeOp_out (k : Nat) (s : State) : (removeOp k s).out = s.out := rfl

/-! ### `leaveEnergy` -/

@[simp] theorem leaveEnergy_pending (k : Nat) (s : State) : (leaveEnergy k s).pending = s.pending := rfl
@[simp] theorem leaveEnergy_mem (k : Nat) (s : State) : (leaveEnergy k s).mem = s.mem := rfl
@[simp] theorem leaveEnergy_clk (k : Nat) (s : State) : (leaveEnergy k s).clk = s.clk := rfl
@[simp] theorem leaveEnergy_regs (k : Nat) (s : State) : (leaveEnergy k s).regs = s.regs := rfl
@[simp] theorem leaveEnergy_ready (k : Nat) (s : State) : (leaveEnergy k s).ready = s.ready := rfl
@[simp] theorem leaveEnergy_ev (k : Nat) (s : State) : (leaveEnergy k s).ev = s.ev := rfl
@[simp] theorem leaveEnergy_ctr (k : Nat) (s : State) : (leaveEnergy k s).ctr = s.ctr := rfl
@[simp] theorem leaveEnergy_int (k : Nat) (s : State) : (leaveEnergy k s).int = s.int := rfl
@[simp] theorem leaveEnergy_owed (k : Nat) (s : State) : (leaveEnergy k s).owed = s.owed := rfl
@[simp] theorem leaveEnergy_jrn (k : Nat) (s : State) : (leaveEnergy k s).jrn = s.jrn := rfl
@[simp] theorem leaveEnergy_flush (k : Nat) (s : State) : (leaveEnergy k s).flush = s.flush := rfl
@[simp] theorem leaveEnergy_kit (k : Nat) (s : State) : (leaveEnergy k s).kit = s.kit := rfl
@[simp] theorem leaveEnergy_hyc (k : Nat) (s : State) : (leaveEnergy k s).hyc = s.hyc := rfl
@[simp] theorem leaveEnergy_nsu (k : Nat) (s : State) : (leaveEnergy k s).nsu = s.nsu := rfl
@[simp] theorem leaveEnergy_drb (k : Nat) (s : State) : (leaveEnergy k s).drb = s.drb := rfl
@[simp] theorem leaveEnergy_pmu (k : Nat) (s : State) : (leaveEnergy k s).pmu = s.pmu := rfl
@[simp] theorem leaveEnergy_mnt (k : Nat) (s : State) : (leaveEnergy k s).mnt = s.mnt := rfl
@[simp] theorem leaveEnergy_plc (k : Nat) (s : State) : (leaveEnergy k s).plc = s.plc := rfl
@[simp] theorem leaveEnergy_hmu (k : Nat) (s : State) : (leaveEnergy k s).hmu = s.hmu := rfl
@[simp] theorem leaveEnergy_fw (k : Nat) (s : State) : (leaveEnergy k s).fw = s.fw := rfl
@[simp] theorem leaveEnergy_fuse (k : Nat) (s : State) : (leaveEnergy k s).fuse = s.fuse := rfl
@[simp] theorem leaveEnergy_keys (k : Nat) (s : State) : (leaveEnergy k s).keys = s.keys := rfl
@[simp] theorem leaveEnergy_out (k : Nat) (s : State) : (leaveEnergy k s).out = s.out := rfl

/-! ### `loseEvent` -/

@[simp] theorem loseEvent_pending (e : Event) (s : State) : (loseEvent e s).pending = s.pending := rfl
@[simp] theorem loseEvent_mem (e : Event) (s : State) : (loseEvent e s).mem = s.mem := rfl
@[simp] theorem loseEvent_clk (e : Event) (s : State) : (loseEvent e s).clk = s.clk := rfl
@[simp] theorem loseEvent_regs (e : Event) (s : State) : (loseEvent e s).regs = s.regs := rfl
@[simp] theorem loseEvent_ready (e : Event) (s : State) : (loseEvent e s).ready = s.ready := rfl
@[simp] theorem loseEvent_hif (e : Event) (s : State) : (loseEvent e s).hif = s.hif := rfl
@[simp] theorem loseEvent_ctr (e : Event) (s : State) : (loseEvent e s).ctr = s.ctr := rfl
@[simp] theorem loseEvent_int (e : Event) (s : State) : (loseEvent e s).int = s.int := rfl
@[simp] theorem loseEvent_owed (e : Event) (s : State) : (loseEvent e s).owed = s.owed := rfl
@[simp] theorem loseEvent_jrn (e : Event) (s : State) : (loseEvent e s).jrn = s.jrn := rfl
@[simp] theorem loseEvent_flush (e : Event) (s : State) : (loseEvent e s).flush = s.flush := rfl
@[simp] theorem loseEvent_kit (e : Event) (s : State) : (loseEvent e s).kit = s.kit := rfl
@[simp] theorem loseEvent_hyc (e : Event) (s : State) : (loseEvent e s).hyc = s.hyc := rfl
@[simp] theorem loseEvent_nsu (e : Event) (s : State) : (loseEvent e s).nsu = s.nsu := rfl
@[simp] theorem loseEvent_drb (e : Event) (s : State) : (loseEvent e s).drb = s.drb := rfl
@[simp] theorem loseEvent_pmu (e : Event) (s : State) : (loseEvent e s).pmu = s.pmu := rfl
@[simp] theorem loseEvent_mnt (e : Event) (s : State) : (loseEvent e s).mnt = s.mnt := rfl
@[simp] theorem loseEvent_plc (e : Event) (s : State) : (loseEvent e s).plc = s.plc := rfl
@[simp] theorem loseEvent_hmu (e : Event) (s : State) : (loseEvent e s).hmu = s.hmu := rfl
@[simp] theorem loseEvent_fw (e : Event) (s : State) : (loseEvent e s).fw = s.fw := rfl
@[simp] theorem loseEvent_fuse (e : Event) (s : State) : (loseEvent e s).fuse = s.fuse := rfl
@[simp] theorem loseEvent_keys (e : Event) (s : State) : (loseEvent e s).keys = s.keys := rfl
@[simp] theorem loseEvent_out (e : Event) (s : State) : (loseEvent e s).out = s.out := rfl

/-! ### `modLeaf` -/

@[simp] theorem modLeaf_pending (n : Nat) (f : Leaf → Leaf) (s : State) : (modLeaf n f s).pending = s.pending := rfl
@[simp] theorem modLeaf_mem (n : Nat) (f : Leaf → Leaf) (s : State) : (modLeaf n f s).mem = s.mem := rfl
@[simp] theorem modLeaf_clk (n : Nat) (f : Leaf → Leaf) (s : State) : (modLeaf n f s).clk = s.clk := rfl
@[simp] theorem modLeaf_regs (n : Nat) (f : Leaf → Leaf) (s : State) : (modLeaf n f s).regs = s.regs := rfl
@[simp] theorem modLeaf_ready (n : Nat) (f : Leaf → Leaf) (s : State) : (modLeaf n f s).ready = s.ready := rfl
@[simp] theorem modLeaf_hif (n : Nat) (f : Leaf → Leaf) (s : State) : (modLeaf n f s).hif = s.hif := rfl
@[simp] theorem modLeaf_ev (n : Nat) (f : Leaf → Leaf) (s : State) : (modLeaf n f s).ev = s.ev := rfl
@[simp] theorem modLeaf_int (n : Nat) (f : Leaf → Leaf) (s : State) : (modLeaf n f s).int = s.int := rfl
@[simp] theorem modLeaf_owed (n : Nat) (f : Leaf → Leaf) (s : State) : (modLeaf n f s).owed = s.owed := rfl
@[simp] theorem modLeaf_jrn (n : Nat) (f : Leaf → Leaf) (s : State) : (modLeaf n f s).jrn = s.jrn := rfl
@[simp] theorem modLeaf_flush (n : Nat) (f : Leaf → Leaf) (s : State) : (modLeaf n f s).flush = s.flush := rfl
@[simp] theorem modLeaf_kit (n : Nat) (f : Leaf → Leaf) (s : State) : (modLeaf n f s).kit = s.kit := rfl
@[simp] theorem modLeaf_hyc (n : Nat) (f : Leaf → Leaf) (s : State) : (modLeaf n f s).hyc = s.hyc := rfl
@[simp] theorem modLeaf_nsu (n : Nat) (f : Leaf → Leaf) (s : State) : (modLeaf n f s).nsu = s.nsu := rfl
@[simp] theorem modLeaf_drb (n : Nat) (f : Leaf → Leaf) (s : State) : (modLeaf n f s).drb = s.drb := rfl
@[simp] theorem modLeaf_pmu (n : Nat) (f : Leaf → Leaf) (s : State) : (modLeaf n f s).pmu = s.pmu := rfl
@[simp] theorem modLeaf_mnt (n : Nat) (f : Leaf → Leaf) (s : State) : (modLeaf n f s).mnt = s.mnt := rfl
@[simp] theorem modLeaf_plc (n : Nat) (f : Leaf → Leaf) (s : State) : (modLeaf n f s).plc = s.plc := rfl
@[simp] theorem modLeaf_hmu (n : Nat) (f : Leaf → Leaf) (s : State) : (modLeaf n f s).hmu = s.hmu := rfl
@[simp] theorem modLeaf_fw (n : Nat) (f : Leaf → Leaf) (s : State) : (modLeaf n f s).fw = s.fw := rfl
@[simp] theorem modLeaf_fuse (n : Nat) (f : Leaf → Leaf) (s : State) : (modLeaf n f s).fuse = s.fuse := rfl
@[simp] theorem modLeaf_keys (n : Nat) (f : Leaf → Leaf) (s : State) : (modLeaf n f s).keys = s.keys := rfl
@[simp] theorem modLeaf_out (n : Nat) (f : Leaf → Leaf) (s : State) : (modLeaf n f s).out = s.out := rfl

/-! ### `modGroup` -/

@[simp] theorem modGroup_pending (g : Nat) (f : Group → Group) (s : State) : (modGroup g f s).pending = s.pending := rfl
@[simp] theorem modGroup_mem (g : Nat) (f : Group → Group) (s : State) : (modGroup g f s).mem = s.mem := rfl
@[simp] theorem modGroup_clk (g : Nat) (f : Group → Group) (s : State) : (modGroup g f s).clk = s.clk := rfl
@[simp] theorem modGroup_regs (g : Nat) (f : Group → Group) (s : State) : (modGroup g f s).regs = s.regs := rfl
@[simp] theorem modGroup_ready (g : Nat) (f : Group → Group) (s : State) : (modGroup g f s).ready = s.ready := rfl
@[simp] theorem modGroup_hif (g : Nat) (f : Group → Group) (s : State) : (modGroup g f s).hif = s.hif := rfl
@[simp] theorem modGroup_ev (g : Nat) (f : Group → Group) (s : State) : (modGroup g f s).ev = s.ev := rfl
@[simp] theorem modGroup_int (g : Nat) (f : Group → Group) (s : State) : (modGroup g f s).int = s.int := rfl
@[simp] theorem modGroup_owed (g : Nat) (f : Group → Group) (s : State) : (modGroup g f s).owed = s.owed := rfl
@[simp] theorem modGroup_jrn (g : Nat) (f : Group → Group) (s : State) : (modGroup g f s).jrn = s.jrn := rfl
@[simp] theorem modGroup_flush (g : Nat) (f : Group → Group) (s : State) : (modGroup g f s).flush = s.flush := rfl
@[simp] theorem modGroup_kit (g : Nat) (f : Group → Group) (s : State) : (modGroup g f s).kit = s.kit := rfl
@[simp] theorem modGroup_hyc (g : Nat) (f : Group → Group) (s : State) : (modGroup g f s).hyc = s.hyc := rfl
@[simp] theorem modGroup_nsu (g : Nat) (f : Group → Group) (s : State) : (modGroup g f s).nsu = s.nsu := rfl
@[simp] theorem modGroup_drb (g : Nat) (f : Group → Group) (s : State) : (modGroup g f s).drb = s.drb := rfl
@[simp] theorem modGroup_pmu (g : Nat) (f : Group → Group) (s : State) : (modGroup g f s).pmu = s.pmu := rfl
@[simp] theorem modGroup_mnt (g : Nat) (f : Group → Group) (s : State) : (modGroup g f s).mnt = s.mnt := rfl
@[simp] theorem modGroup_plc (g : Nat) (f : Group → Group) (s : State) : (modGroup g f s).plc = s.plc := rfl
@[simp] theorem modGroup_hmu (g : Nat) (f : Group → Group) (s : State) : (modGroup g f s).hmu = s.hmu := rfl
@[simp] theorem modGroup_fw (g : Nat) (f : Group → Group) (s : State) : (modGroup g f s).fw = s.fw := rfl
@[simp] theorem modGroup_fuse (g : Nat) (f : Group → Group) (s : State) : (modGroup g f s).fuse = s.fuse := rfl
@[simp] theorem modGroup_keys (g : Nat) (f : Group → Group) (s : State) : (modGroup g f s).keys = s.keys := rfl
@[simp] theorem modGroup_out (g : Nat) (f : Group → Group) (s : State) : (modGroup g f s).out = s.out := rfl

/-! ### `setKid` -/

@[simp] theorem setKid_pending (x : Kid) (s : State) : (setKid x s).pending = s.pending := rfl
@[simp] theorem setKid_mem (x : Kid) (s : State) : (setKid x s).mem = s.mem := rfl
@[simp] theorem setKid_clk (x : Kid) (s : State) : (setKid x s).clk = s.clk := rfl
@[simp] theorem setKid_regs (x : Kid) (s : State) : (setKid x s).regs = s.regs := rfl
@[simp] theorem setKid_ready (x : Kid) (s : State) : (setKid x s).ready = s.ready := rfl
@[simp] theorem setKid_hif (x : Kid) (s : State) : (setKid x s).hif = s.hif := rfl
@[simp] theorem setKid_ev (x : Kid) (s : State) : (setKid x s).ev = s.ev := rfl
@[simp] theorem setKid_ctr (x : Kid) (s : State) : (setKid x s).ctr = s.ctr := rfl
@[simp] theorem setKid_int (x : Kid) (s : State) : (setKid x s).int = s.int := rfl
@[simp] theorem setKid_owed (x : Kid) (s : State) : (setKid x s).owed = s.owed := rfl
@[simp] theorem setKid_jrn (x : Kid) (s : State) : (setKid x s).jrn = s.jrn := rfl
@[simp] theorem setKid_flush (x : Kid) (s : State) : (setKid x s).flush = s.flush := rfl
@[simp] theorem setKid_hyc (x : Kid) (s : State) : (setKid x s).hyc = s.hyc := rfl
@[simp] theorem setKid_nsu (x : Kid) (s : State) : (setKid x s).nsu = s.nsu := rfl
@[simp] theorem setKid_drb (x : Kid) (s : State) : (setKid x s).drb = s.drb := rfl
@[simp] theorem setKid_pmu (x : Kid) (s : State) : (setKid x s).pmu = s.pmu := rfl
@[simp] theorem setKid_mnt (x : Kid) (s : State) : (setKid x s).mnt = s.mnt := rfl
@[simp] theorem setKid_plc (x : Kid) (s : State) : (setKid x s).plc = s.plc := rfl
@[simp] theorem setKid_hmu (x : Kid) (s : State) : (setKid x s).hmu = s.hmu := rfl
@[simp] theorem setKid_fw (x : Kid) (s : State) : (setKid x s).fw = s.fw := rfl
@[simp] theorem setKid_fuse (x : Kid) (s : State) : (setKid x s).fuse = s.fuse := rfl
@[simp] theorem setKid_keys (x : Kid) (s : State) : (setKid x s).keys = s.keys := rfl
@[simp] theorem setKid_out (x : Kid) (s : State) : (setKid x s).out = s.out := rfl

/-! ### `setPage` -/

@[simp] theorem setPage_pending (x : Page) (s : State) : (setPage x s).pending = s.pending := rfl
@[simp] theorem setPage_mem (x : Page) (s : State) : (setPage x s).mem = s.mem := rfl
@[simp] theorem setPage_clk (x : Page) (s : State) : (setPage x s).clk = s.clk := rfl
@[simp] theorem setPage_regs (x : Page) (s : State) : (setPage x s).regs = s.regs := rfl
@[simp] theorem setPage_ready (x : Page) (s : State) : (setPage x s).ready = s.ready := rfl
@[simp] theorem setPage_hif (x : Page) (s : State) : (setPage x s).hif = s.hif := rfl
@[simp] theorem setPage_ev (x : Page) (s : State) : (setPage x s).ev = s.ev := rfl
@[simp] theorem setPage_ctr (x : Page) (s : State) : (setPage x s).ctr = s.ctr := rfl
@[simp] theorem setPage_int (x : Page) (s : State) : (setPage x s).int = s.int := rfl
@[simp] theorem setPage_owed (x : Page) (s : State) : (setPage x s).owed = s.owed := rfl
@[simp] theorem setPage_jrn (x : Page) (s : State) : (setPage x s).jrn = s.jrn := rfl
@[simp] theorem setPage_flush (x : Page) (s : State) : (setPage x s).flush = s.flush := rfl
@[simp] theorem setPage_hyc (x : Page) (s : State) : (setPage x s).hyc = s.hyc := rfl
@[simp] theorem setPage_nsu (x : Page) (s : State) : (setPage x s).nsu = s.nsu := rfl
@[simp] theorem setPage_drb (x : Page) (s : State) : (setPage x s).drb = s.drb := rfl
@[simp] theorem setPage_pmu (x : Page) (s : State) : (setPage x s).pmu = s.pmu := rfl
@[simp] theorem setPage_mnt (x : Page) (s : State) : (setPage x s).mnt = s.mnt := rfl
@[simp] theorem setPage_plc (x : Page) (s : State) : (setPage x s).plc = s.plc := rfl
@[simp] theorem setPage_hmu (x : Page) (s : State) : (setPage x s).hmu = s.hmu := rfl
@[simp] theorem setPage_fw (x : Page) (s : State) : (setPage x s).fw = s.fw := rfl
@[simp] theorem setPage_fuse (x : Page) (s : State) : (setPage x s).fuse = s.fuse := rfl
@[simp] theorem setPage_keys (x : Page) (s : State) : (setPage x s).keys = s.keys := rfl
@[simp] theorem setPage_out (x : Page) (s : State) : (setPage x s).out = s.out := rfl

/-! ### `modSector` -/

@[simp] theorem modSector_pending (bank idx : Nat) (f : Sector → Sector) (s : State) : (modSector bank idx f s).pending = s.pending := rfl
@[simp] theorem modSector_mem (bank idx : Nat) (f : Sector → Sector) (s : State) : (modSector bank idx f s).mem = s.mem := rfl
@[simp] theorem modSector_clk (bank idx : Nat) (f : Sector → Sector) (s : State) : (modSector bank idx f s).clk = s.clk := rfl
@[simp] theorem modSector_regs (bank idx : Nat) (f : Sector → Sector) (s : State) : (modSector bank idx f s).regs = s.regs := rfl
@[simp] theorem modSector_ready (bank idx : Nat) (f : Sector → Sector) (s : State) : (modSector bank idx f s).ready = s.ready := rfl
@[simp] theorem modSector_hif (bank idx : Nat) (f : Sector → Sector) (s : State) : (modSector bank idx f s).hif = s.hif := rfl
@[simp] theorem modSector_ev (bank idx : Nat) (f : Sector → Sector) (s : State) : (modSector bank idx f s).ev = s.ev := rfl
@[simp] theorem modSector_ctr (bank idx : Nat) (f : Sector → Sector) (s : State) : (modSector bank idx f s).ctr = s.ctr := rfl
@[simp] theorem modSector_int (bank idx : Nat) (f : Sector → Sector) (s : State) : (modSector bank idx f s).int = s.int := rfl
@[simp] theorem modSector_owed (bank idx : Nat) (f : Sector → Sector) (s : State) : (modSector bank idx f s).owed = s.owed := rfl
@[simp] theorem modSector_flush (bank idx : Nat) (f : Sector → Sector) (s : State) : (modSector bank idx f s).flush = s.flush := rfl
@[simp] theorem modSector_kit (bank idx : Nat) (f : Sector → Sector) (s : State) : (modSector bank idx f s).kit = s.kit := rfl
@[simp] theorem modSector_hyc (bank idx : Nat) (f : Sector → Sector) (s : State) : (modSector bank idx f s).hyc = s.hyc := rfl
@[simp] theorem modSector_nsu (bank idx : Nat) (f : Sector → Sector) (s : State) : (modSector bank idx f s).nsu = s.nsu := rfl
@[simp] theorem modSector_drb (bank idx : Nat) (f : Sector → Sector) (s : State) : (modSector bank idx f s).drb = s.drb := rfl
@[simp] theorem modSector_pmu (bank idx : Nat) (f : Sector → Sector) (s : State) : (modSector bank idx f s).pmu = s.pmu := rfl
@[simp] theorem modSector_mnt (bank idx : Nat) (f : Sector → Sector) (s : State) : (modSector bank idx f s).mnt = s.mnt := rfl
@[simp] theorem modSector_plc (bank idx : Nat) (f : Sector → Sector) (s : State) : (modSector bank idx f s).plc = s.plc := rfl
@[simp] theorem modSector_hmu (bank idx : Nat) (f : Sector → Sector) (s : State) : (modSector bank idx f s).hmu = s.hmu := rfl
@[simp] theorem modSector_fw (bank idx : Nat) (f : Sector → Sector) (s : State) : (modSector bank idx f s).fw = s.fw := rfl
@[simp] theorem modSector_fuse (bank idx : Nat) (f : Sector → Sector) (s : State) : (modSector bank idx f s).fuse = s.fuse := rfl
@[simp] theorem modSector_keys (bank idx : Nat) (f : Sector → Sector) (s : State) : (modSector bank idx f s).keys = s.keys := rfl
@[simp] theorem modSector_out (bank idx : Nat) (f : Sector → Sector) (s : State) : (modSector bank idx f s).out = s.out := rfl

/-! ### `modPort` -/

@[simp] theorem modPort_pending (p : Nat) (f : Port → Port) (s : State) : (modPort p f s).pending = s.pending := rfl
@[simp] theorem modPort_mem (p : Nat) (f : Port → Port) (s : State) : (modPort p f s).mem = s.mem := rfl
@[simp] theorem modPort_clk (p : Nat) (f : Port → Port) (s : State) : (modPort p f s).clk = s.clk := rfl
@[simp] theorem modPort_regs (p : Nat) (f : Port → Port) (s : State) : (modPort p f s).regs = s.regs := rfl
@[simp] theorem modPort_ready (p : Nat) (f : Port → Port) (s : State) : (modPort p f s).ready = s.ready := rfl
@[simp] theorem modPort_hif (p : Nat) (f : Port → Port) (s : State) : (modPort p f s).hif = s.hif := rfl
@[simp] theorem modPort_ev (p : Nat) (f : Port → Port) (s : State) : (modPort p f s).ev = s.ev := rfl
@[simp] theorem modPort_ctr (p : Nat) (f : Port → Port) (s : State) : (modPort p f s).ctr = s.ctr := rfl
@[simp] theorem modPort_int (p : Nat) (f : Port → Port) (s : State) : (modPort p f s).int = s.int := rfl
@[simp] theorem modPort_owed (p : Nat) (f : Port → Port) (s : State) : (modPort p f s).owed = s.owed := rfl
@[simp] theorem modPort_jrn (p : Nat) (f : Port → Port) (s : State) : (modPort p f s).jrn = s.jrn := rfl
@[simp] theorem modPort_flush (p : Nat) (f : Port → Port) (s : State) : (modPort p f s).flush = s.flush := rfl
@[simp] theorem modPort_kit (p : Nat) (f : Port → Port) (s : State) : (modPort p f s).kit = s.kit := rfl
@[simp] theorem modPort_nsu (p : Nat) (f : Port → Port) (s : State) : (modPort p f s).nsu = s.nsu := rfl
@[simp] theorem modPort_drb (p : Nat) (f : Port → Port) (s : State) : (modPort p f s).drb = s.drb := rfl
@[simp] theorem modPort_pmu (p : Nat) (f : Port → Port) (s : State) : (modPort p f s).pmu = s.pmu := rfl
@[simp] theorem modPort_mnt (p : Nat) (f : Port → Port) (s : State) : (modPort p f s).mnt = s.mnt := rfl
@[simp] theorem modPort_plc (p : Nat) (f : Port → Port) (s : State) : (modPort p f s).plc = s.plc := rfl
@[simp] theorem modPort_hmu (p : Nat) (f : Port → Port) (s : State) : (modPort p f s).hmu = s.hmu := rfl
@[simp] theorem modPort_fw (p : Nat) (f : Port → Port) (s : State) : (modPort p f s).fw = s.fw := rfl
@[simp] theorem modPort_fuse (p : Nat) (f : Port → Port) (s : State) : (modPort p f s).fuse = s.fuse := rfl
@[simp] theorem modPort_keys (p : Nat) (f : Port → Port) (s : State) : (modPort p f s).keys = s.keys := rfl
@[simp] theorem modPort_out (p : Nat) (f : Port → Port) (s : State) : (modPort p f s).out = s.out := rfl

/-! ### `modPos` -/

@[simp] theorem modPos_pending (p i : Nat) (f : Pos → Pos) (s : State) : (modPos p i f s).pending = s.pending := rfl
@[simp] theorem modPos_mem (p i : Nat) (f : Pos → Pos) (s : State) : (modPos p i f s).mem = s.mem := rfl
@[simp] theorem modPos_clk (p i : Nat) (f : Pos → Pos) (s : State) : (modPos p i f s).clk = s.clk := rfl
@[simp] theorem modPos_regs (p i : Nat) (f : Pos → Pos) (s : State) : (modPos p i f s).regs = s.regs := rfl
@[simp] theorem modPos_ready (p i : Nat) (f : Pos → Pos) (s : State) : (modPos p i f s).ready = s.ready := rfl
@[simp] theorem modPos_hif (p i : Nat) (f : Pos → Pos) (s : State) : (modPos p i f s).hif = s.hif := rfl
@[simp] theorem modPos_ev (p i : Nat) (f : Pos → Pos) (s : State) : (modPos p i f s).ev = s.ev := rfl
@[simp] theorem modPos_ctr (p i : Nat) (f : Pos → Pos) (s : State) : (modPos p i f s).ctr = s.ctr := rfl
@[simp] theorem modPos_int (p i : Nat) (f : Pos → Pos) (s : State) : (modPos p i f s).int = s.int := rfl
@[simp] theorem modPos_owed (p i : Nat) (f : Pos → Pos) (s : State) : (modPos p i f s).owed = s.owed := rfl
@[simp] theorem modPos_jrn (p i : Nat) (f : Pos → Pos) (s : State) : (modPos p i f s).jrn = s.jrn := rfl
@[simp] theorem modPos_flush (p i : Nat) (f : Pos → Pos) (s : State) : (modPos p i f s).flush = s.flush := rfl
@[simp] theorem modPos_kit (p i : Nat) (f : Pos → Pos) (s : State) : (modPos p i f s).kit = s.kit := rfl
@[simp] theorem modPos_nsu (p i : Nat) (f : Pos → Pos) (s : State) : (modPos p i f s).nsu = s.nsu := rfl
@[simp] theorem modPos_drb (p i : Nat) (f : Pos → Pos) (s : State) : (modPos p i f s).drb = s.drb := rfl
@[simp] theorem modPos_pmu (p i : Nat) (f : Pos → Pos) (s : State) : (modPos p i f s).pmu = s.pmu := rfl
@[simp] theorem modPos_mnt (p i : Nat) (f : Pos → Pos) (s : State) : (modPos p i f s).mnt = s.mnt := rfl
@[simp] theorem modPos_plc (p i : Nat) (f : Pos → Pos) (s : State) : (modPos p i f s).plc = s.plc := rfl
@[simp] theorem modPos_hmu (p i : Nat) (f : Pos → Pos) (s : State) : (modPos p i f s).hmu = s.hmu := rfl
@[simp] theorem modPos_fw (p i : Nat) (f : Pos → Pos) (s : State) : (modPos p i f s).fw = s.fw := rfl
@[simp] theorem modPos_fuse (p i : Nat) (f : Pos → Pos) (s : State) : (modPos p i f s).fuse = s.fuse := rfl
@[simp] theorem modPos_keys (p i : Nat) (f : Pos → Pos) (s : State) : (modPos p i f s).keys = s.keys := rfl
@[simp] theorem modPos_out (p i : Nat) (f : Pos → Pos) (s : State) : (modPos p i f s).out = s.out := rfl

/-! ### `setAct` -/

@[simp] theorem setAct_pending (p : Nat) (a : Act) (s : State) : (setAct p a s).pending = s.pending := rfl
@[simp] theorem setAct_mem (p : Nat) (a : Act) (s : State) : (setAct p a s).mem = s.mem := rfl
@[simp] theorem setAct_clk (p : Nat) (a : Act) (s : State) : (setAct p a s).clk = s.clk := rfl
@[simp] theorem setAct_regs (p : Nat) (a : Act) (s : State) : (setAct p a s).regs = s.regs := rfl
@[simp] theorem setAct_ready (p : Nat) (a : Act) (s : State) : (setAct p a s).ready = s.ready := rfl
@[simp] theorem setAct_hif (p : Nat) (a : Act) (s : State) : (setAct p a s).hif = s.hif := rfl
@[simp] theorem setAct_ev (p : Nat) (a : Act) (s : State) : (setAct p a s).ev = s.ev := rfl
@[simp] theorem setAct_ctr (p : Nat) (a : Act) (s : State) : (setAct p a s).ctr = s.ctr := rfl
@[simp] theorem setAct_int (p : Nat) (a : Act) (s : State) : (setAct p a s).int = s.int := rfl
@[simp] theorem setAct_owed (p : Nat) (a : Act) (s : State) : (setAct p a s).owed = s.owed := rfl
@[simp] theorem setAct_jrn (p : Nat) (a : Act) (s : State) : (setAct p a s).jrn = s.jrn := rfl
@[simp] theorem setAct_flush (p : Nat) (a : Act) (s : State) : (setAct p a s).flush = s.flush := rfl
@[simp] theorem setAct_kit (p : Nat) (a : Act) (s : State) : (setAct p a s).kit = s.kit := rfl
@[simp] theorem setAct_nsu (p : Nat) (a : Act) (s : State) : (setAct p a s).nsu = s.nsu := rfl
@[simp] theorem setAct_drb (p : Nat) (a : Act) (s : State) : (setAct p a s).drb = s.drb := rfl
@[simp] theorem setAct_pmu (p : Nat) (a : Act) (s : State) : (setAct p a s).pmu = s.pmu := rfl
@[simp] theorem setAct_mnt (p : Nat) (a : Act) (s : State) : (setAct p a s).mnt = s.mnt := rfl
@[simp] theorem setAct_plc (p : Nat) (a : Act) (s : State) : (setAct p a s).plc = s.plc := rfl
@[simp] theorem setAct_hmu (p : Nat) (a : Act) (s : State) : (setAct p a s).hmu = s.hmu := rfl
@[simp] theorem setAct_fw (p : Nat) (a : Act) (s : State) : (setAct p a s).fw = s.fw := rfl
@[simp] theorem setAct_fuse (p : Nat) (a : Act) (s : State) : (setAct p a s).fuse = s.fuse := rfl
@[simp] theorem setAct_keys (p : Nat) (a : Act) (s : State) : (setAct p a s).keys = s.keys := rfl
@[simp] theorem setAct_out (p : Nat) (a : Act) (s : State) : (setAct p a s).out = s.out := rfl

/-! ### `modMirror` -/

@[simp] theorem modMirror_pending (i : Nat) (f : Mirror → Mirror) (s : State) : (modMirror i f s).pending = s.pending := rfl
@[simp] theorem modMirror_mem (i : Nat) (f : Mirror → Mirror) (s : State) : (modMirror i f s).mem = s.mem := rfl
@[simp] theorem modMirror_clk (i : Nat) (f : Mirror → Mirror) (s : State) : (modMirror i f s).clk = s.clk := rfl
@[simp] theorem modMirror_regs (i : Nat) (f : Mirror → Mirror) (s : State) : (modMirror i f s).regs = s.regs := rfl
@[simp] theorem modMirror_ready (i : Nat) (f : Mirror → Mirror) (s : State) : (modMirror i f s).ready = s.ready := rfl
@[simp] theorem modMirror_hif (i : Nat) (f : Mirror → Mirror) (s : State) : (modMirror i f s).hif = s.hif := rfl
@[simp] theorem modMirror_ev (i : Nat) (f : Mirror → Mirror) (s : State) : (modMirror i f s).ev = s.ev := rfl
@[simp] theorem modMirror_ctr (i : Nat) (f : Mirror → Mirror) (s : State) : (modMirror i f s).ctr = s.ctr := rfl
@[simp] theorem modMirror_int (i : Nat) (f : Mirror → Mirror) (s : State) : (modMirror i f s).int = s.int := rfl
@[simp] theorem modMirror_owed (i : Nat) (f : Mirror → Mirror) (s : State) : (modMirror i f s).owed = s.owed := rfl
@[simp] theorem modMirror_jrn (i : Nat) (f : Mirror → Mirror) (s : State) : (modMirror i f s).jrn = s.jrn := rfl
@[simp] theorem modMirror_flush (i : Nat) (f : Mirror → Mirror) (s : State) : (modMirror i f s).flush = s.flush := rfl
@[simp] theorem modMirror_kit (i : Nat) (f : Mirror → Mirror) (s : State) : (modMirror i f s).kit = s.kit := rfl
@[simp] theorem modMirror_nsu (i : Nat) (f : Mirror → Mirror) (s : State) : (modMirror i f s).nsu = s.nsu := rfl
@[simp] theorem modMirror_drb (i : Nat) (f : Mirror → Mirror) (s : State) : (modMirror i f s).drb = s.drb := rfl
@[simp] theorem modMirror_pmu (i : Nat) (f : Mirror → Mirror) (s : State) : (modMirror i f s).pmu = s.pmu := rfl
@[simp] theorem modMirror_mnt (i : Nat) (f : Mirror → Mirror) (s : State) : (modMirror i f s).mnt = s.mnt := rfl
@[simp] theorem modMirror_plc (i : Nat) (f : Mirror → Mirror) (s : State) : (modMirror i f s).plc = s.plc := rfl
@[simp] theorem modMirror_hmu (i : Nat) (f : Mirror → Mirror) (s : State) : (modMirror i f s).hmu = s.hmu := rfl
@[simp] theorem modMirror_fw (i : Nat) (f : Mirror → Mirror) (s : State) : (modMirror i f s).fw = s.fw := rfl
@[simp] theorem modMirror_fuse (i : Nat) (f : Mirror → Mirror) (s : State) : (modMirror i f s).fuse = s.fuse := rfl
@[simp] theorem modMirror_keys (i : Nat) (f : Mirror → Mirror) (s : State) : (modMirror i f s).keys = s.keys := rfl
@[simp] theorem modMirror_out (i : Nat) (f : Mirror → Mirror) (s : State) : (modMirror i f s).out = s.out := rfl

/-! ### `modSource` -/

@[simp] theorem modSource_pending (n : Nat) (f : Source → Source) (s : State) : (modSource n f s).pending = s.pending := rfl
@[simp] theorem modSource_mem (n : Nat) (f : Source → Source) (s : State) : (modSource n f s).mem = s.mem := rfl
@[simp] theorem modSource_clk (n : Nat) (f : Source → Source) (s : State) : (modSource n f s).clk = s.clk := rfl
@[simp] theorem modSource_regs (n : Nat) (f : Source → Source) (s : State) : (modSource n f s).regs = s.regs := rfl
@[simp] theorem modSource_ready (n : Nat) (f : Source → Source) (s : State) : (modSource n f s).ready = s.ready := rfl
@[simp] theorem modSource_hif (n : Nat) (f : Source → Source) (s : State) : (modSource n f s).hif = s.hif := rfl
@[simp] theorem modSource_ev (n : Nat) (f : Source → Source) (s : State) : (modSource n f s).ev = s.ev := rfl
@[simp] theorem modSource_ctr (n : Nat) (f : Source → Source) (s : State) : (modSource n f s).ctr = s.ctr := rfl
@[simp] theorem modSource_int (n : Nat) (f : Source → Source) (s : State) : (modSource n f s).int = s.int := rfl
@[simp] theorem modSource_owed (n : Nat) (f : Source → Source) (s : State) : (modSource n f s).owed = s.owed := rfl
@[simp] theorem modSource_jrn (n : Nat) (f : Source → Source) (s : State) : (modSource n f s).jrn = s.jrn := rfl
@[simp] theorem modSource_flush (n : Nat) (f : Source → Source) (s : State) : (modSource n f s).flush = s.flush := rfl
@[simp] theorem modSource_kit (n : Nat) (f : Source → Source) (s : State) : (modSource n f s).kit = s.kit := rfl
@[simp] theorem modSource_hyc (n : Nat) (f : Source → Source) (s : State) : (modSource n f s).hyc = s.hyc := rfl
@[simp] theorem modSource_drb (n : Nat) (f : Source → Source) (s : State) : (modSource n f s).drb = s.drb := rfl
@[simp] theorem modSource_pmu (n : Nat) (f : Source → Source) (s : State) : (modSource n f s).pmu = s.pmu := rfl
@[simp] theorem modSource_mnt (n : Nat) (f : Source → Source) (s : State) : (modSource n f s).mnt = s.mnt := rfl
@[simp] theorem modSource_plc (n : Nat) (f : Source → Source) (s : State) : (modSource n f s).plc = s.plc := rfl
@[simp] theorem modSource_hmu (n : Nat) (f : Source → Source) (s : State) : (modSource n f s).hmu = s.hmu := rfl
@[simp] theorem modSource_fw (n : Nat) (f : Source → Source) (s : State) : (modSource n f s).fw = s.fw := rfl
@[simp] theorem modSource_fuse (n : Nat) (f : Source → Source) (s : State) : (modSource n f s).fuse = s.fuse := rfl
@[simp] theorem modSource_keys (n : Nat) (f : Source → Source) (s : State) : (modSource n f s).keys = s.keys := rfl
@[simp] theorem modSource_out (n : Nat) (f : Source → Source) (s : State) : (modSource n f s).out = s.out := rfl

/-! ### `modDrbg` -/

@[simp] theorem modDrbg_pending (n : Nat) (f : Drbg → Drbg) (s : State) : (modDrbg n f s).pending = s.pending := rfl
@[simp] theorem modDrbg_mem (n : Nat) (f : Drbg → Drbg) (s : State) : (modDrbg n f s).mem = s.mem := rfl
@[simp] theorem modDrbg_clk (n : Nat) (f : Drbg → Drbg) (s : State) : (modDrbg n f s).clk = s.clk := rfl
@[simp] theorem modDrbg_regs (n : Nat) (f : Drbg → Drbg) (s : State) : (modDrbg n f s).regs = s.regs := rfl
@[simp] theorem modDrbg_ready (n : Nat) (f : Drbg → Drbg) (s : State) : (modDrbg n f s).ready = s.ready := rfl
@[simp] theorem modDrbg_hif (n : Nat) (f : Drbg → Drbg) (s : State) : (modDrbg n f s).hif = s.hif := rfl
@[simp] theorem modDrbg_ev (n : Nat) (f : Drbg → Drbg) (s : State) : (modDrbg n f s).ev = s.ev := rfl
@[simp] theorem modDrbg_ctr (n : Nat) (f : Drbg → Drbg) (s : State) : (modDrbg n f s).ctr = s.ctr := rfl
@[simp] theorem modDrbg_int (n : Nat) (f : Drbg → Drbg) (s : State) : (modDrbg n f s).int = s.int := rfl
@[simp] theorem modDrbg_owed (n : Nat) (f : Drbg → Drbg) (s : State) : (modDrbg n f s).owed = s.owed := rfl
@[simp] theorem modDrbg_jrn (n : Nat) (f : Drbg → Drbg) (s : State) : (modDrbg n f s).jrn = s.jrn := rfl
@[simp] theorem modDrbg_flush (n : Nat) (f : Drbg → Drbg) (s : State) : (modDrbg n f s).flush = s.flush := rfl
@[simp] theorem modDrbg_kit (n : Nat) (f : Drbg → Drbg) (s : State) : (modDrbg n f s).kit = s.kit := rfl
@[simp] theorem modDrbg_hyc (n : Nat) (f : Drbg → Drbg) (s : State) : (modDrbg n f s).hyc = s.hyc := rfl
@[simp] theorem modDrbg_nsu (n : Nat) (f : Drbg → Drbg) (s : State) : (modDrbg n f s).nsu = s.nsu := rfl
@[simp] theorem modDrbg_pmu (n : Nat) (f : Drbg → Drbg) (s : State) : (modDrbg n f s).pmu = s.pmu := rfl
@[simp] theorem modDrbg_mnt (n : Nat) (f : Drbg → Drbg) (s : State) : (modDrbg n f s).mnt = s.mnt := rfl
@[simp] theorem modDrbg_plc (n : Nat) (f : Drbg → Drbg) (s : State) : (modDrbg n f s).plc = s.plc := rfl
@[simp] theorem modDrbg_hmu (n : Nat) (f : Drbg → Drbg) (s : State) : (modDrbg n f s).hmu = s.hmu := rfl
@[simp] theorem modDrbg_fw (n : Nat) (f : Drbg → Drbg) (s : State) : (modDrbg n f s).fw = s.fw := rfl
@[simp] theorem modDrbg_fuse (n : Nat) (f : Drbg → Drbg) (s : State) : (modDrbg n f s).fuse = s.fuse := rfl
@[simp] theorem modDrbg_keys (n : Nat) (f : Drbg → Drbg) (s : State) : (modDrbg n f s).keys = s.keys := rfl
@[simp] theorem modDrbg_out (n : Nat) (f : Drbg → Drbg) (s : State) : (modDrbg n f s).out = s.out := rfl

/-! ### `setInactive` -/

@[simp] theorem setInactive_pending (x : Slot) (s : State) : (setInactive x s).pending = s.pending := by
  unfold setInactive; split <;> rfl
@[simp] theorem setInactive_mem (x : Slot) (s : State) : (setInactive x s).mem = s.mem := by
  unfold setInactive; split <;> rfl
@[simp] theorem setInactive_clk (x : Slot) (s : State) : (setInactive x s).clk = s.clk := by
  unfold setInactive; split <;> rfl
@[simp] theorem setInactive_regs (x : Slot) (s : State) : (setInactive x s).regs = s.regs := by
  unfold setInactive; split <;> rfl
@[simp] theorem setInactive_ready (x : Slot) (s : State) : (setInactive x s).ready = s.ready := by
  unfold setInactive; split <;> rfl
@[simp] theorem setInactive_hif (x : Slot) (s : State) : (setInactive x s).hif = s.hif := by
  unfold setInactive; split <;> rfl
@[simp] theorem setInactive_ev (x : Slot) (s : State) : (setInactive x s).ev = s.ev := by
  unfold setInactive; split <;> rfl
@[simp] theorem setInactive_ctr (x : Slot) (s : State) : (setInactive x s).ctr = s.ctr := by
  unfold setInactive; split <;> rfl
@[simp] theorem setInactive_int (x : Slot) (s : State) : (setInactive x s).int = s.int := by
  unfold setInactive; split <;> rfl
@[simp] theorem setInactive_owed (x : Slot) (s : State) : (setInactive x s).owed = s.owed := by
  unfold setInactive; split <;> rfl
@[simp] theorem setInactive_jrn (x : Slot) (s : State) : (setInactive x s).jrn = s.jrn := by
  unfold setInactive; split <;> rfl
@[simp] theorem setInactive_flush (x : Slot) (s : State) : (setInactive x s).flush = s.flush := by
  unfold setInactive; split <;> rfl
@[simp] theorem setInactive_kit (x : Slot) (s : State) : (setInactive x s).kit = s.kit := by
  unfold setInactive; split <;> rfl
@[simp] theorem setInactive_hyc (x : Slot) (s : State) : (setInactive x s).hyc = s.hyc := by
  unfold setInactive; split <;> rfl
@[simp] theorem setInactive_nsu (x : Slot) (s : State) : (setInactive x s).nsu = s.nsu := by
  unfold setInactive; split <;> rfl
@[simp] theorem setInactive_drb (x : Slot) (s : State) : (setInactive x s).drb = s.drb := by
  unfold setInactive; split <;> rfl
@[simp] theorem setInactive_pmu (x : Slot) (s : State) : (setInactive x s).pmu = s.pmu := by
  unfold setInactive; split <;> rfl
@[simp] theorem setInactive_mnt (x : Slot) (s : State) : (setInactive x s).mnt = s.mnt := by
  unfold setInactive; split <;> rfl
@[simp] theorem setInactive_plc (x : Slot) (s : State) : (setInactive x s).plc = s.plc := by
  unfold setInactive; split <;> rfl
@[simp] theorem setInactive_hmu (x : Slot) (s : State) : (setInactive x s).hmu = s.hmu := by
  unfold setInactive; split <;> rfl
@[simp] theorem setInactive_out (x : Slot) (s : State) : (setInactive x s).out = s.out := by
  unfold setInactive; split <;> rfl

/-! ### `logDecision` -/

@[simp] theorem logDecision_pending (code object from_ to_ value : Nat) (s : State) : (logDecision code object from_ to_ value s).pending = s.pending := by simp only [logDecision]
@[simp] theorem logDecision_mem (code object from_ to_ value : Nat) (s : State) : (logDecision code object from_ to_ value s).mem = s.mem := by simp only [logDecision]
@[simp] theorem logDecision_clk (code object from_ to_ value : Nat) (s : State) : (logDecision code object from_ to_ value s).clk = s.clk := by simp only [logDecision]
@[simp] theorem logDecision_regs (code object from_ to_ value : Nat) (s : State) : (logDecision code object from_ to_ value s).regs = s.regs := by simp only [logDecision]
@[simp] theorem logDecision_ready (code object from_ to_ value : Nat) (s : State) : (logDecision code object from_ to_ value s).ready = s.ready := by simp only [logDecision]
@[simp] theorem logDecision_hif (code object from_ to_ value : Nat) (s : State) : (logDecision code object from_ to_ value s).hif = s.hif := by simp only [logDecision]
@[simp] theorem logDecision_ev (code object from_ to_ value : Nat) (s : State) : (logDecision code object from_ to_ value s).ev = s.ev := by simp only [logDecision]
@[simp] theorem logDecision_ctr (code object from_ to_ value : Nat) (s : State) : (logDecision code object from_ to_ value s).ctr = s.ctr := by simp only [logDecision]
@[simp] theorem logDecision_int (code object from_ to_ value : Nat) (s : State) : (logDecision code object from_ to_ value s).int = s.int := by simp only [logDecision]
@[simp] theorem logDecision_owed (code object from_ to_ value : Nat) (s : State) : (logDecision code object from_ to_ value s).owed = s.owed := by simp only [logDecision]
@[simp] theorem logDecision_jrn (code object from_ to_ value : Nat) (s : State) : (logDecision code object from_ to_ value s).jrn = s.jrn := by simp only [logDecision]
@[simp] theorem logDecision_flush (code object from_ to_ value : Nat) (s : State) : (logDecision code object from_ to_ value s).flush = s.flush := by simp only [logDecision]
@[simp] theorem logDecision_kit (code object from_ to_ value : Nat) (s : State) : (logDecision code object from_ to_ value s).kit = s.kit := by simp only [logDecision]
@[simp] theorem logDecision_hyc (code object from_ to_ value : Nat) (s : State) : (logDecision code object from_ to_ value s).hyc = s.hyc := by simp only [logDecision]
@[simp] theorem logDecision_nsu (code object from_ to_ value : Nat) (s : State) : (logDecision code object from_ to_ value s).nsu = s.nsu := by simp only [logDecision]
@[simp] theorem logDecision_drb (code object from_ to_ value : Nat) (s : State) : (logDecision code object from_ to_ value s).drb = s.drb := by simp only [logDecision]
@[simp] theorem logDecision_pmu (code object from_ to_ value : Nat) (s : State) : (logDecision code object from_ to_ value s).pmu = s.pmu := by simp only [logDecision]
@[simp] theorem logDecision_mnt (code object from_ to_ value : Nat) (s : State) : (logDecision code object from_ to_ value s).mnt = s.mnt := by simp only [logDecision]
@[simp] theorem logDecision_hmu (code object from_ to_ value : Nat) (s : State) : (logDecision code object from_ to_ value s).hmu = s.hmu := by simp only [logDecision]
@[simp] theorem logDecision_fw (code object from_ to_ value : Nat) (s : State) : (logDecision code object from_ to_ value s).fw = s.fw := by simp only [logDecision]
@[simp] theorem logDecision_fuse (code object from_ to_ value : Nat) (s : State) : (logDecision code object from_ to_ value s).fuse = s.fuse := by simp only [logDecision]
@[simp] theorem logDecision_keys (code object from_ to_ value : Nat) (s : State) : (logDecision code object from_ to_ value s).keys = s.keys := by simp only [logDecision]
@[simp] theorem logDecision_out (code object from_ to_ value : Nat) (s : State) : (logDecision code object from_ to_ value s).out = s.out := by simp only [logDecision]

/-! ### Device time -/

/-- A clock that runs counts on to a time ahead. -/
theorem advance_now (t : Nat) (s : State) (h : s.clk.running = true) : (advance t s).clk.now = max s.clk.now t := by
  unfold advance
  by_cases ht : s.clk.now < t
  · simp [h, ht]; omega
  · simp [ht]; omega

/-- To a time that is past the clock does not go back. -/
theorem advance_past (t : Nat) (s : State) (h : t ≤ s.clk.now) : advance t s = s := by
  have : ¬ s.clk.now < t := by omega
  simp [advance, this]

/-- Before PLL lock the clock stands. -/
theorem advance_stopped (t : Nat) (s : State) (h : s.clk.running = false) : advance t s = s := by
  simp [advance, h]

/-- What the host writes and the clock's advance do not meet. -/
theorem advance_hostWrites (t : Nat) (hw : HostWrites) (s : State) : advance t (hostWrites hw s) = hostWrites hw (advance t s) := by
  unfold advance
  rw [hostWrites_clk]
  cases h : (s.clk.running && decide (s.clk.now < t))
  · rw [if_neg (by simp), if_neg (by simp)]
  · rw [if_pos rfl, if_pos rfl]; rfl

/-! ### Members found by number -/

/-- The member of a number after a change that keeps numbers. -/
theorem find_modWhere {α : Type} (num : α → Nat) (f : α → α) (n m : Nat) (l : List α) (h : ∀ x, num (f x) = num x) :
    (modWhere (fun x => num x == n) f l).find? (fun x => num x == m) =
      (l.find? fun x => num x == m).map fun x => if n = m then f x else x := by
  have hp : ((fun x => num x == m) ∘ fun x => if num x == n then f x else x) = fun x => num x == m := by
    funext x
    by_cases hx : num x = n <;> simp [hx, h]
  simp only [modWhere, List.find?_map, hp]
  cases e : l.find? fun x => num x == m with
  | none => rfl
  | some x =>
    have hx : num x = m := by simpa using List.find?_some e
    subst hx
    by_cases hn : num x = n
    · subst hn; simp
    · simp only [Option.map_some, if_neg fun e : n = num x => hn e.symm]; simp [hn]

theorem findQp_modQp (n m : Nat) (f : Qp → Qp) (s : State) (h : ∀ q, (f q).num = q.num) :
    findQp (modQp n f s) m = (findQp s m).map fun q => if n = m then f q else q :=
  find_modWhere (fun q : Qp => q.num) f n m s.hif.qps h

theorem findOp_modOp (k j : Nat) (f : Op → Op) (s : State) (h : ∀ op, (f op).id = op.id) :
    findOp (modOp k f s) j = (findOp s j).map fun op => if k = j then f op else op :=
  find_modWhere (fun op : Op => op.id) f k j s.hif.ops h

theorem findOp_setOpSt (k j : Nat) (st : OpSt) (s : State) :
    findOp (setOpSt k st s) j = (findOp s j).map fun op => if k = j then { op with st := st } else op :=
  findOp_modOp k j _ s fun _ => rfl

theorem findLeaf_modLeaf (n m : Nat) (f : Leaf → Leaf) (s : State) (h : ∀ l, (f l).num = l.num) :
    findLeaf (modLeaf n f s) m = (findLeaf s m).map fun l => if n = m then f l else l :=
  find_modWhere (fun l : Leaf => l.num) f n m s.ctr.leaves h

theorem findGroup_modGroup (g m : Nat) (f : Group → Group) (s : State) (h : ∀ x, (f x).num = x.num) :
    findGroup (modGroup g f s) m = (findGroup s m).map fun x => if g = m then f x else x :=
  find_modWhere (fun x : Group => x.num) f g m s.ctr.groups h

theorem findPort_modPort (p m : Nat) (f : Port → Port) (s : State) (h : ∀ x, (f x).num = x.num) :
    findPort (modPort p f s) m = (findPort s m).map fun x => if p = m then f x else x :=
  find_modWhere (fun x : Port => x.num) f p m s.hyc.ports h

theorem findSource_modSource (n m : Nat) (f : Source → Source) (s : State) (h : ∀ x, (f x).code = x.code) :
    findSource (modSource n f s) m = (findSource s m).map fun x => if n = m then f x else x :=
  find_modWhere (fun x : Source => x.code) f n m s.nsu.sources h

theorem findDrbg_modDrbg (n m : Nat) (f : Drbg → Drbg) (s : State) (h : ∀ x, (f x).num = x.num) :
    (modDrbg n f s).drb.instances.find? (fun d => d.num == m) =
      (s.drb.instances.find? fun d => d.num == m).map fun d => if n = m then f d else d :=
  find_modWhere (fun d : Drbg => d.num) f n m s.drb.instances h

/-- An operation taken out is gone. -/
@[simp] theorem findOp_removeOp (k : Nat) (s : State) : findOp (removeOp k s) k = none := by
  simp [findOp, removeOp]

/-- The others stay. -/
theorem findOp_removeOp_other (k j : Nat) (s : State) (h : j ≠ k) : findOp (removeOp k s) j = findOp s j := by
  simp only [findOp, removeOp, List.find?_filter]
  congr 1; funext op
  by_cases hj : op.id = j <;> simp [hj, h]

end Sys2Proof.Machine
end

