-- ==== Sys2Proof/Laws/Effects.lean ====
section
/-!
SUPPORT. All that posting an event, sending a message and completing an operation can change: one lemma per operation, and from it one
per field that stays as it is.
-/
namespace Sys2Proof.Machine

/-- The parts of a state that no event changes. -/
def eventRest (s : State) :=
  (s.pending, s.clk, s.regs, s.ready, s.ctr, s.int, s.owed, s.jrn, s.flush, s.kit, s.hyc, s.nsu, s.drb, s.pmu, s.mnt, s.plc, s.hmu, s.fw, s.fuse, s.keys)

/-- The parts of a state that no completion changes: all but HIF, host memory, what left the part, and who waits for entropy. -/
def hostRest (s : State) :=
  (s.pending, s.clk, s.regs, s.ready, s.ev, s.ctr, s.int, s.owed, s.jrn, s.flush, s.kit, s.hyc, s.drb, s.pmu, s.mnt, s.plc, s.hmu, s.fw, s.fuse, s.keys, { s.nsu with waitS := [] })

/-! ### Messages and events -/

@[simp] theorem sendMsix_rest (v : Nat) (s : State) : eventRest (sendMsix v s) = eventRest s := by
  unfold sendMsix; split <;> rfl

@[simp] theorem sendMsix_mem (v : Nat) (s : State) : (sendMsix v s).mem = s.mem := by
  unfold sendMsix; split <;> rfl

@[simp] theorem sendMsix_ev (v : Nat) (s : State) : (sendMsix v s).ev = s.ev := by
  unfold sendMsix; split <;> rfl

@[simp] theorem sendMsix_ops (v : Nat) (s : State) : (sendMsix v s).hif.ops = s.hif.ops := by
  unfold sendMsix; split <;> rfl

@[simp] theorem sendMsix_qps (v : Nat) (s : State) : (sendMsix v s).hif.qps = s.hif.qps := by
  unfold sendMsix; split <;> rfl

@[simp] theorem signalEvent_rest (s : State) : eventRest (signalEvent s) = eventRest s := by
  unfold signalEvent; simp only; split
  · exact (sendMsix_rest _ _).trans rfl
  · rfl

@[simp] theorem signalEvent_mem (s : State) : (signalEvent s).mem = s.mem := by
  unfold signalEvent; simp only; split
  · exact (sendMsix_mem _ _).trans rfl
  · rfl

@[simp] theorem signalEvent_next (s : State) : (signalEvent s).ev.next = s.ev.next := by
  unfold signalEvent; simp only; split
  · rw [sendMsix_ev]
  · rfl

@[simp] theorem signalEvent_ops (s : State) : (signalEvent s).hif.ops = s.hif.ops := by
  unfold signalEvent; simp only; split
  · rw [sendMsix_ops]
  · rfl

@[simp] theorem signalEvent_qps (s : State) : (signalEvent s).hif.qps = s.hif.qps := by
  unfold signalEvent; simp only; split
  · rw [sendMsix_qps]
  · rfl

/-- An event written changes host memory, the ring's counts, the messages that leave the part and their pending bits. -/
@[simp] theorem writeEvent_rest (e : Event) (s : State) : eventRest (writeEvent e s) = eventRest s := by
  unfold writeEvent; split
  · rfl
  · exact (signalEvent_rest _).trans rfl

@[simp] theorem writeEvent_ops (e : Event) (s : State) : (writeEvent e s).hif.ops = s.hif.ops := by
  unfold writeEvent; split
  · rfl
  · rw [signalEvent_ops]; rfl

@[simp] theorem writeEvent_qps (e : Event) (s : State) : (writeEvent e s).hif.qps = s.hif.qps := by
  unfold writeEvent; split
  · rfl
  · rw [signalEvent_qps]; rfl

@[simp] theorem loseEvent_rest (e : Event) (s : State) : eventRest (loseEvent e s) = eventRest s := rfl

@[simp] theorem deliverEvent_rest (e : Event) (s : State) : eventRest (deliverEvent e s) = eventRest s := by
  unfold deliverEvent; (repeat' split) <;> first | exact writeEvent_rest _ _ | rfl

@[simp] theorem deliverEvent_ops (e : Event) (s : State) : (deliverEvent e s).hif.ops = s.hif.ops := by
  unfold deliverEvent; (repeat' split) <;> first | exact writeEvent_ops _ _ | rfl

@[simp] theorem deliverEvent_qps (e : Event) (s : State) : (deliverEvent e s).hif.qps = s.hif.qps := by
  unfold deliverEvent; (repeat' split) <;> first | exact writeEvent_qps _ _ | rfl

@[simp] theorem postEvent_rest (name : EventName) (object : Nat) (details : List Byte) (s : State) :
    eventRest (postEvent name object details s) = eventRest s := deliverEvent_rest _ _

@[simp] theorem postEvent_ops (name : EventName) (object : Nat) (details : List Byte) (s : State) :
    (postEvent name object details s).hif.ops = s.hif.ops := deliverEvent_ops _ _

@[simp] theorem postEvent_qps (name : EventName) (object : Nat) (details : List Byte) (s : State) :
    (postEvent name object details s).hif.qps = s.hif.qps := deliverEvent_qps _ _

@[simp] theorem drainBuffer_rest (n : Nat) (s : State) : eventRest (drainBuffer n s) = eventRest s := by
  induction n generalizing s with
  | zero => rfl
  | succ n ih =>
    unfold drainBuffer; (repeat' split)
    · rfl
    · rfl
    · exact (ih _).trans ((writeEvent_rest _ _).trans rfl)

@[simp] theorem drainEvents_rest (s : State) : eventRest (drainEvents s) = eventRest s := by
  unfold drainEvents writeEventsLost; (repeat' split)
  · exact (writeEvent_rest _ _).trans ((drainBuffer_rest _ s).symm ▸ rfl)
  · exact drainBuffer_rest _ _
  · rfl

/-! ### Completions -/

@[simp] theorem sendMsix_hostRest (v : Nat) (s : State) : hostRest (sendMsix v s) = hostRest s := by
  unfold sendMsix; split <;> rfl

@[simp] theorem signalQp_hostRest (q : Qp) (s : State) : hostRest (signalQp q s) = hostRest s := by
  unfold signalQp; simp only; split
  · exact (sendMsix_hostRest _ _).trans rfl
  · rfl

@[simp] theorem signalQp_mem (q : Qp) (s : State) : (signalQp q s).mem = s.mem := by
  unfold signalQp; simp only; split
  · rw [sendMsix_mem]; rfl
  · rfl

@[simp] theorem signalQp_ops (q : Qp) (s : State) : (signalQp q s).hif.ops = s.hif.ops := by
  unfold signalQp; simp only; split
  · rw [sendMsix_ops]; rfl
  · rfl

@[simp] theorem writeCompletion_hostRest (op : Op) (st : Status) (resA resB : W64) (skipped : Bool) (s : State) :
    hostRest (writeCompletion op st resA resB skipped s) = hostRest s := by
  unfold writeCompletion; (repeat' split)
  · rfl
  · rfl
  · rw [signalQp_hostRest]; simp [hostRest]

@[simp] theorem writeCompletion_ops (op : Op) (st : Status) (resA resB : W64) (skipped : Bool) (s : State) :
    (writeCompletion op st resA resB skipped s).hif.ops = s.hif.ops := by
  unfold writeCompletion; (repeat' split)
  · rfl
  · rfl
  · rw [signalQp_ops]; rfl

@[simp] theorem removeOp_hostRest (k : Nat) (s : State) : hostRest (removeOp k s) = hostRest s := rfl

@[simp] theorem endDelete_hostRest (n : Nat) (s : State) : hostRest (endDelete n s) = hostRest s := by
  unfold endDelete; (repeat' split)
  · rfl
  · rw [removeOp_hostRest, writeCompletion_hostRest]; rfl
  · rfl
  · rfl

/-- Without a QP_DELETE that waits, the end of an operation ends nothing else. -/
theorem endDelete_none (n : Nat) (s : State) (h : ∀ o ∈ s.hif.ops, ∀ a b, o.st ≠ .deleting a b) : endDelete n s = s := by
  unfold endDelete
  split
  · rfl
  · rename_i hq
    split
    · rename_i op he
      have hm := List.mem_of_find?_eq_some he
      split
      · rename_i a b hs; exact absurd hs (h op hm a b)
      · rfl
    · rfl

/-- A completion changes HIF, host memory, what leaves the part, and who waits for entropy. -/
@[simp] theorem complete_hostRest (op : Op) (st : Status) (resA resB : W64) (skipped : Bool) (s : State) :
    hostRest (complete op st resA resB skipped s) = hostRest s :=
  (endDelete_hostRest _ _).trans ((removeOp_hostRest _ _).trans (writeCompletion_hostRest _ _ _ _ _ _))

@[simp] theorem refuse_hostRest (op : Op) (st : Status) (s : State) : hostRest (refuse op st s) = hostRest s :=
  complete_hostRest _ _ _ _ _ _

/-- What an equal rest says of the two states. -/
theorem eq_of_hostRest {u v : State} (h : hostRest v = hostRest u) :
    v = { u with mem := v.mem, hif := v.hif, out := v.out, nsu := { u.nsu with waitS := v.nsu.waitS } } := by
  simp only [hostRest, Prod.mk.injEq] at h
  have hn : v.nsu = { u.nsu with waitS := v.nsu.waitS } :=
    congrArg (fun n : Nsu => { n with waitS := v.nsu.waitS }) (And.right (h.2.2.2.2.2.2.2.2.2.2.2.2.2.2.2.2.2.2.2))
  obtain ⟨h1, h2, h3, h4, h5, h6, h7, h8, h9, h10, h11, h12, h13, h14, h15, h16, h17, h18, h19, h20, -⟩ := h
  rw [← h1, ← h2, ← h3, ← h4, ← h5, ← h6, ← h7, ← h8, ← h9, ← h10, ← h11, ← h12, ← h13, ← h14, ← h15, ← h16, ← h17, ← h18, ← h19, ← h20, ← hn]

/-! ### `postEvent`, field by field -/

@[simp] theorem postEvent_pending (name : EventName) (object : Nat) (details : List Byte) (s : State) : (postEvent name object details s).pending = s.pending :=
  congrArg (fun p => p.1) (postEvent_rest _ _ _ _)
@[simp] theorem postEvent_clk (name : EventName) (object : Nat) (details : List Byte) (s : State) : (postEvent name object details s).clk = s.clk :=
  congrArg (fun p => p.2.1) (postEvent_rest _ _ _ _)
@[simp] theorem postEvent_regs (name : EventName) (object : Nat) (details : List Byte) (s : State) : (postEvent name object details s).regs = s.regs :=
  congrArg (fun p => p.2.2.1) (postEvent_rest _ _ _ _)
@[simp] theorem postEvent_ready (name : EventName) (object : Nat) (details : List Byte) (s : State) : (postEvent name object details s).ready = s.ready :=
  congrArg (fun p => p.2.2.2.1) (postEvent_rest _ _ _ _)
@[simp] theorem postEvent_ctr (name : EventName) (object : Nat) (details : List Byte) (s : State) : (postEvent name object details s).ctr = s.ctr :=
  congrArg (fun p => p.2.2.2.2.1) (postEvent_rest _ _ _ _)
@[simp] theorem postEvent_int (name : EventName) (object : Nat) (details : List Byte) (s : State) : (postEvent name object details s).int = s.int :=
  congrArg (fun p => p.2.2.2.2.2.1) (postEvent_rest _ _ _ _)
@[simp] theorem postEvent_owed (name : EventName) (object : Nat) (details : List Byte) (s : State) : (postEvent name object details s).owed = s.owed :=
  congrArg (fun p => p.2.2.2.2.2.2.1) (postEvent_rest _ _ _ _)
@[simp] theorem postEvent_jrn (name : EventName) (object : Nat) (details : List Byte) (s : State) : (postEvent name object details s).jrn = s.jrn :=
  congrArg (fun p => p.2.2.2.2.2.2.2.1) (postEvent_rest _ _ _ _)
@[simp] theorem postEvent_flush (name : EventName) (object : Nat) (details : List Byte) (s : State) : (postEvent name object details s).flush = s.flush :=
  congrArg (fun p => p.2.2.2.2.2.2.2.2.1) (postEvent_rest _ _ _ _)
@[simp] theorem postEvent_kit (name : EventName) (object : Nat) (details : List Byte) (s : State) : (postEvent name object details s).kit = s.kit :=
  congrArg (fun p => p.2.2.2.2.2.2.2.2.2.1) (postEvent_rest _ _ _ _)
@[simp] theorem postEvent_hyc (name : EventName) (object : Nat) (details : List Byte) (s : State) : (postEvent name object details s).hyc = s.hyc :=
  congrArg (fun p => p.2.2.2.2.2.2.2.2.2.2.1) (postEvent_rest _ _ _ _)
@[simp] theorem postEvent_nsu (name : EventName) (object : Nat) (details : List Byte) (s : State) : (postEvent name object details s).nsu = s.nsu :=
  congrArg (fun p => p.2.2.2.2.2.2.2.2.2.2.2.1) (postEvent_rest _ _ _ _)
@[simp] theorem postEvent_drb (name : EventName) (object : Nat) (details : List Byte) (s : State) : (postEvent name object details s).drb = s.drb :=
  congrArg (fun p => p.2.2.2.2.2.2.2.2.2.2.2.2.1) (postEvent_rest _ _ _ _)
@[simp] theorem postEvent_pmu (name : EventName) (object : Nat) (details : List Byte) (s : State) : (postEvent name object details s).pmu = s.pmu :=
  congrArg (fun p => p.2.2.2.2.2.2.2.2.2.2.2.2.2.1) (postEvent_rest _ _ _ _)
@[simp] theorem postEvent_mnt (name : EventName) (object : Nat) (details : List Byte) (s : State) : (postEvent name object details s).mnt = s.mnt :=
  congrArg (fun p => p.2.2.2.2.2.2.2.2.2.2.2.2.2.2.1) (postEvent_rest _ _ _ _)
@[simp] theorem postEvent_plc (name : EventName) (object : Nat) (details : List Byte) (s : State) : (postEvent name object details s).plc = s.plc :=
  congrArg (fun p => p.2.2.2.2.2.2.2.2.2.2.2.2.2.2.2.1) (postEvent_rest _ _ _ _)
@[simp] theorem postEvent_hmu (name : EventName) (object : Nat) (details : List Byte) (s : State) : (postEvent name object details s).hmu = s.hmu :=
  congrArg (fun p => p.2.2.2.2.2.2.2.2.2.2.2.2.2.2.2.2.1) (postEvent_rest _ _ _ _)
@[simp] theorem postEvent_fw (name : EventName) (object : Nat) (details : List Byte) (s : State) : (postEvent name object details s).fw = s.fw :=
  congrArg (fun p => p.2.2.2.2.2.2.2.2.2.2.2.2.2.2.2.2.2.1) (postEvent_rest _ _ _ _)
@[simp] theorem postEvent_fuse (name : EventName) (object : Nat) (details : List Byte) (s : State) : (postEvent name object details s).fuse = s.fuse :=
  congrArg (fun p => p.2.2.2.2.2.2.2.2.2.2.2.2.2.2.2.2.2.2.1) (postEvent_rest _ _ _ _)
@[simp] theorem postEvent_keys (name : EventName) (object : Nat) (details : List Byte) (s : State) : (postEvent name object details s).keys = s.keys :=
  congrArg (fun p => p.2.2.2.2.2.2.2.2.2.2.2.2.2.2.2.2.2.2.2) (postEvent_rest _ _ _ _)

/-! ### `deliverEvent`, field by field -/

@[simp] theorem deliverEvent_pending (e : Event) (s : State) : (deliverEvent e s).pending = s.pending :=
  congrArg (fun p => p.1) (deliverEvent_rest _ _)
@[simp] theorem deliverEvent_clk (e : Event) (s : State) : (deliverEvent e s).clk = s.clk :=
  congrArg (fun p => p.2.1) (deliverEvent_rest _ _)
@[simp] theorem deliverEvent_regs (e : Event) (s : State) : (deliverEvent e s).regs = s.regs :=
  congrArg (fun p => p.2.2.1) (deliverEvent_rest _ _)
@[simp] theorem deliverEvent_ready (e : Event) (s : State) : (deliverEvent e s).ready = s.ready :=
  congrArg (fun p => p.2.2.2.1) (deliverEvent_rest _ _)
@[simp] theorem deliverEvent_ctr (e : Event) (s : State) : (deliverEvent e s).ctr = s.ctr :=
  congrArg (fun p => p.2.2.2.2.1) (deliverEvent_rest _ _)
@[simp] theorem deliverEvent_int (e : Event) (s : State) : (deliverEvent e s).int = s.int :=
  congrArg (fun p => p.2.2.2.2.2.1) (deliverEvent_rest _ _)
@[simp] theorem deliverEvent_owed (e : Event) (s : State) : (deliverEvent e s).owed = s.owed :=
  congrArg (fun p => p.2.2.2.2.2.2.1) (deliverEvent_rest _ _)
@[simp] theorem deliverEvent_jrn (e : Event) (s : State) : (deliverEvent e s).jrn = s.jrn :=
  congrArg (fun p => p.2.2.2.2.2.2.2.1) (deliverEvent_rest _ _)
@[simp] theorem deliverEvent_flush (e : Event) (s : State) : (deliverEvent e s).flush = s.flush :=
  congrArg (fun p => p.2.2.2.2.2.2.2.2.1) (deliverEvent_rest _ _)
@[simp] theorem deliverEvent_kit (e : Event) (s : State) : (deliverEvent e s).kit = s.kit :=
  congrArg (fun p => p.2.2.2.2.2.2.2.2.2.1) (deliverEvent_rest _ _)
@[simp] theorem deliverEvent_hyc (e : Event) (s : State) : (deliverEvent e s).hyc = s.hyc :=
  congrArg (fun p => p.2.2.2.2.2.2.2.2.2.2.1) (deliverEvent_rest _ _)
@[simp] theorem deliverEvent_nsu (e : Event) (s : State) : (deliverEvent e s).nsu = s.nsu :=
  congrArg (fun p => p.2.2.2.2.2.2.2.2.2.2.2.1) (deliverEvent_rest _ _)
@[simp] theorem deliverEvent_drb (e : Event) (s : State) : (deliverEvent e s).drb = s.drb :=
  congrArg (fun p => p.2.2.2.2.2.2.2.2.2.2.2.2.1) (deliverEvent_rest _ _)
@[simp] theorem deliverEvent_pmu (e : Event) (s : State) : (deliverEvent e s).pmu = s.pmu :=
  congrArg (fun p => p.2.2.2.2.2.2.2.2.2.2.2.2.2.1) (deliverEvent_rest _ _)
@[simp] theorem deliverEvent_mnt (e : Event) (s : State) : (deliverEvent e s).mnt = s.mnt :=
  congrArg (fun p => p.2.2.2.2.2.2.2.2.2.2.2.2.2.2.1) (deliverEvent_rest _ _)
@[simp] theorem deliverEvent_plc (e : Event) (s : State) : (deliverEvent e s).plc = s.plc :=
  congrArg (fun p => p.2.2.2.2.2.2.2.2.2.2.2.2.2.2.2.1) (deliverEvent_rest _ _)
@[simp] theorem deliverEvent_hmu (e : Event) (s : State) : (deliverEvent e s).hmu = s.hmu :=
  congrArg (fun p => p.2.2.2.2.2.2.2.2.2.2.2.2.2.2.2.2.1) (deliverEvent_rest _ _)
@[simp] theorem deliverEvent_fw (e : Event) (s : State) : (deliverEvent e s).fw = s.fw :=
  congrArg (fun p => p.2.2.2.2.2.2.2.2.2.2.2.2.2.2.2.2.2.1) (deliverEvent_rest _ _)
@[simp] theorem deliverEvent_fuse (e : Event) (s : State) : (deliverEvent e s).fuse = s.fuse :=
  congrArg (fun p => p.2.2.2.2.2.2.2.2.2.2.2.2.2.2.2.2.2.2.1) (deliverEvent_rest _ _)
@[simp] theorem deliverEvent_keys (e : Event) (s : State) : (deliverEvent e s).keys = s.keys :=
  congrArg (fun p => p.2.2.2.2.2.2.2.2.2.2.2.2.2.2.2.2.2.2.2) (deliverEvent_rest _ _)

/-! ### `writeEvent`, field by field -/

@[simp] theorem writeEvent_pending (e : Event) (s : State) : (writeEvent e s).pending = s.pending :=
  congrArg (fun p => p.1) (writeEvent_rest _ _)
@[simp] theorem writeEvent_clk (e : Event) (s : State) : (writeEvent e s).clk = s.clk :=
  congrArg (fun p => p.2.1) (writeEvent_rest _ _)
@[simp] theorem writeEvent_regs (e : Event) (s : State) : (writeEvent e s).regs = s.regs :=
  congrArg (fun p => p.2.2.1) (writeEvent_rest _ _)
@[simp] theorem writeEvent_ready (e : Event) (s : State) : (writeEvent e s).ready = s.ready :=
  congrArg (fun p => p.2.2.2.1) (writeEvent_rest _ _)
@[simp] theorem writeEvent_ctr (e : Event) (s : State) : (writeEvent e s).ctr = s.ctr :=
  congrArg (fun p => p.2.2.2.2.1) (writeEvent_rest _ _)
@[simp] theorem writeEvent_int (e : Event) (s : State) : (writeEvent e s).int = s.int :=
  congrArg (fun p => p.2.2.2.2.2.1) (writeEvent_rest _ _)
@[simp] theorem writeEvent_owed (e : Event) (s : State) : (writeEvent e s).owed = s.owed :=
  congrArg (fun p => p.2.2.2.2.2.2.1) (writeEvent_rest _ _)
@[simp] theorem writeEvent_jrn (e : Event) (s : State) : (writeEvent e s).jrn = s.jrn :=
  congrArg (fun p => p.2.2.2.2.2.2.2.1) (writeEvent_rest _ _)
@[simp] theorem writeEvent_flush (e : Event) (s : State) : (writeEvent e s).flush = s.flush :=
  congrArg (fun p => p.2.2.2.2.2.2.2.2.1) (writeEvent_rest _ _)
@[simp] theorem writeEvent_kit (e : Event) (s : State) : (writeEvent e s).kit = s.kit :=
  congrArg (fun p => p.2.2.2.2.2.2.2.2.2.1) (writeEvent_rest _ _)
@[simp] theorem writeEvent_hyc (e : Event) (s : State) : (writeEvent e s).hyc = s.hyc :=
  congrArg (fun p => p.2.2.2.2.2.2.2.2.2.2.1) (writeEvent_rest _ _)
@[simp] theorem writeEvent_nsu (e : Event) (s : State) : (writeEvent e s).nsu = s.nsu :=
  congrArg (fun p => p.2.2.2.2.2.2.2.2.2.2.2.1) (writeEvent_rest _ _)
@[simp] theorem writeEvent_drb (e : Event) (s : State) : (writeEvent e s).drb = s.drb :=
  congrArg (fun p => p.2.2.2.2.2.2.2.2.2.2.2.2.1) (writeEvent_rest _ _)
@[simp] theorem writeEvent_pmu (e : Event) (s : State) : (writeEvent e s).pmu = s.pmu :=
  congrArg (fun p => p.2.2.2.2.2.2.2.2.2.2.2.2.2.1) (writeEvent_rest _ _)
@[simp] theorem writeEvent_mnt (e : Event) (s : State) : (writeEvent e s).mnt = s.mnt :=
  congrArg (fun p => p.2.2.2.2.2.2.2.2.2.2.2.2.2.2.1) (writeEvent_rest _ _)
@[simp] theorem writeEvent_plc (e : Event) (s : State) : (writeEvent e s).plc = s.plc :=
  congrArg (fun p => p.2.2.2.2.2.2.2.2.2.2.2.2.2.2.2.1) (writeEvent_rest _ _)
@[simp] theorem writeEvent_hmu (e : Event) (s : State) : (writeEvent e s).hmu = s.hmu :=
  congrArg (fun p => p.2.2.2.2.2.2.2.2.2.2.2.2.2.2.2.2.1) (writeEvent_rest _ _)
@[simp] theorem writeEvent_fw (e : Event) (s : State) : (writeEvent e s).fw = s.fw :=
  congrArg (fun p => p.2.2.2.2.2.2.2.2.2.2.2.2.2.2.2.2.2.1) (writeEvent_rest _ _)
@[simp] theorem writeEvent_fuse (e : Event) (s : State) : (writeEvent e s).fuse = s.fuse :=
  congrArg (fun p => p.2.2.2.2.2.2.2.2.2.2.2.2.2.2.2.2.2.2.1) (writeEvent_rest _ _)
@[simp] theorem writeEvent_keys (e : Event) (s : State) : (writeEvent e s).keys = s.keys :=
  congrArg (fun p => p.2.2.2.2.2.2.2.2.2.2.2.2.2.2.2.2.2.2.2) (writeEvent_rest _ _)

/-! ### `drainEvents`, field by field -/

@[simp] theorem drainEvents_pending (s : State) : (drainEvents s).pending = s.pending :=
  congrArg (fun p => p.1) (drainEvents_rest _)
@[simp] theorem drainEvents_clk (s : State) : (drainEvents s).clk = s.clk :=
  congrArg (fun p => p.2.1) (drainEvents_rest _)
@[simp] theorem drainEvents_regs (s : State) : (drainEvents s).regs = s.regs :=
  congrArg (fun p => p.2.2.1) (drainEvents_rest _)
@[simp] theorem drainEvents_ready (s : State) : (drainEvents s).ready = s.ready :=
  congrArg (fun p => p.2.2.2.1) (drainEvents_rest _)
@[simp] theorem drainEvents_ctr (s : State) : (drainEvents s).ctr = s.ctr :=
  congrArg (fun p => p.2.2.2.2.1) (drainEvents_rest _)
@[simp] theorem drainEvents_int (s : State) : (drainEvents s).int = s.int :=
  congrArg (fun p => p.2.2.2.2.2.1) (drainEvents_rest _)
@[simp] theorem drainEvents_owed (s : State) : (drainEvents s).owed = s.owed :=
  congrArg (fun p => p.2.2.2.2.2.2.1) (drainEvents_rest _)
@[simp] theorem drainEvents_jrn (s : State) : (drainEvents s).jrn = s.jrn :=
  congrArg (fun p => p.2.2.2.2.2.2.2.1) (drainEvents_rest _)
@[simp] theorem drainEvents_flush (s : State) : (drainEvents s).flush = s.flush :=
  congrArg (fun p => p.2.2.2.2.2.2.2.2.1) (drainEvents_rest _)
@[simp] theorem drainEvents_kit (s : State) : (drainEvents s).kit = s.kit :=
  congrArg (fun p => p.2.2.2.2.2.2.2.2.2.1) (drainEvents_rest _)
@[simp] theorem drainEvents_hyc (s : State) : (drainEvents s).hyc = s.hyc :=
  congrArg (fun p => p.2.2.2.2.2.2.2.2.2.2.1) (drainEvents_rest _)
@[simp] theorem drainEvents_nsu (s : State) : (drainEvents s).nsu = s.nsu :=
  congrArg (fun p => p.2.2.2.2.2.2.2.2.2.2.2.1) (drainEvents_rest _)
@[simp] theorem drainEvents_drb (s : State) : (drainEvents s).drb = s.drb :=
  congrArg (fun p => p.2.2.2.2.2.2.2.2.2.2.2.2.1) (drainEvents_rest _)
@[simp] theorem drainEvents_pmu (s : State) : (drainEvents s).pmu = s.pmu :=
  congrArg (fun p => p.2.2.2.2.2.2.2.2.2.2.2.2.2.1) (drainEvents_rest _)
@[simp] theorem drainEvents_mnt (s : State) : (drainEvents s).mnt = s.mnt :=
  congrArg (fun p => p.2.2.2.2.2.2.2.2.2.2.2.2.2.2.1) (drainEvents_rest _)
@[simp] theorem drainEvents_plc (s : State) : (drainEvents s).plc = s.plc :=
  congrArg (fun p => p.2.2.2.2.2.2.2.2.2.2.2.2.2.2.2.1) (drainEvents_rest _)
@[simp] theorem drainEvents_hmu (s : State) : (drainEvents s).hmu = s.hmu :=
  congrArg (fun p => p.2.2.2.2.2.2.2.2.2.2.2.2.2.2.2.2.1) (drainEvents_rest _)
@[simp] theorem drainEvents_fw (s : State) : (drainEvents s).fw = s.fw :=
  congrArg (fun p => p.2.2.2.2.2.2.2.2.2.2.2.2.2.2.2.2.2.1) (drainEvents_rest _)
@[simp] theorem drainEvents_fuse (s : State) : (drainEvents s).fuse = s.fuse :=
  congrArg (fun p => p.2.2.2.2.2.2.2.2.2.2.2.2.2.2.2.2.2.2.1) (drainEvents_rest _)
@[simp] theorem drainEvents_keys (s : State) : (drainEvents s).keys = s.keys :=
  congrArg (fun p => p.2.2.2.2.2.2.2.2.2.2.2.2.2.2.2.2.2.2.2) (drainEvents_rest _)

/-! ### `sendMsix`, field by field -/

@[simp] theorem sendMsix_pending (v : Nat) (s : State) : (sendMsix v s).pending = s.pending :=
  congrArg (fun p => p.1) (sendMsix_rest _ _)
@[simp] theorem sendMsix_clk (v : Nat) (s : State) : (sendMsix v s).clk = s.clk :=
  congrArg (fun p => p.2.1) (sendMsix_rest _ _)
@[simp] theorem sendMsix_regs (v : Nat) (s : State) : (sendMsix v s).regs = s.regs :=
  congrArg (fun p => p.2.2.1) (sendMsix_rest _ _)
@[simp] theorem sendMsix_ready (v : Nat) (s : State) : (sendMsix v s).ready = s.ready :=
  congrArg (fun p => p.2.2.2.1) (sendMsix_rest _ _)
@[simp] theorem sendMsix_ctr (v : Nat) (s : State) : (sendMsix v s).ctr = s.ctr :=
  congrArg (fun p => p.2.2.2.2.1) (sendMsix_rest _ _)
@[simp] theorem sendMsix_int (v : Nat) (s : State) : (sendMsix v s).int = s.int :=
  congrArg (fun p => p.2.2.2.2.2.1) (sendMsix_rest _ _)
@[simp] theorem sendMsix_owed (v : Nat) (s : State) : (sendMsix v s).owed = s.owed :=
  congrArg (fun p => p.2.2.2.2.2.2.1) (sendMsix_rest _ _)
@[simp] theorem sendMsix_jrn (v : Nat) (s : State) : (sendMsix v s).jrn = s.jrn :=
  congrArg (fun p => p.2.2.2.2.2.2.2.1) (sendMsix_rest _ _)
@[simp] theorem sendMsix_flush (v : Nat) (s : State) : (sendMsix v s).flush = s.flush :=
  congrArg (fun p => p.2.2.2.2.2.2.2.2.1) (sendMsix_rest _ _)
@[simp] theorem sendMsix_kit (v : Nat) (s : State) : (sendMsix v s).kit = s.kit :=
  congrArg (fun p => p.2.2.2.2.2.2.2.2.2.1) (sendMsix_rest _ _)
@[simp] theorem sendMsix_hyc (v : Nat) (s : State) : (sendMsix v s).hyc = s.hyc :=
  congrArg (fun p => p.2.2.2.2.2.2.2.2.2.2.1) (sendMsix_rest _ _)
@[simp] theorem sendMsix_nsu (v : Nat) (s : State) : (sendMsix v s).nsu = s.nsu :=
  congrArg (fun p => p.2.2.2.2.2.2.2.2.2.2.2.1) (sendMsix_rest _ _)
@[simp] theorem sendMsix_drb (v : Nat) (s : State) : (sendMsix v s).drb = s.drb :=
  congrArg (fun p => p.2.2.2.2.2.2.2.2.2.2.2.2.1) (sendMsix_rest _ _)
@[simp] theorem sendMsix_pmu (v : Nat) (s : State) : (sendMsix v s).pmu = s.pmu :=
  congrArg (fun p => p.2.2.2.2.2.2.2.2.2.2.2.2.2.1) (sendMsix_rest _ _)
@[simp] theorem sendMsix_mnt (v : Nat) (s : State) : (sendMsix v s).mnt = s.mnt :=
  congrArg (fun p => p.2.2.2.2.2.2.2.2.2.2.2.2.2.2.1) (sendMsix_rest _ _)
@[simp] theorem sendMsix_plc (v : Nat) (s : State) : (sendMsix v s).plc = s.plc :=
  congrArg (fun p => p.2.2.2.2.2.2.2.2.2.2.2.2.2.2.2.1) (sendMsix_rest _ _)
@[simp] theorem sendMsix_hmu (v : Nat) (s : State) : (sendMsix v s).hmu = s.hmu :=
  congrArg (fun p => p.2.2.2.2.2.2.2.2.2.2.2.2.2.2.2.2.1) (sendMsix_rest _ _)
@[simp] theorem sendMsix_fw (v : Nat) (s : State) : (sendMsix v s).fw = s.fw :=
  congrArg (fun p => p.2.2.2.2.2.2.2.2.2.2.2.2.2.2.2.2.2.1) (sendMsix_rest _ _)
@[simp] theorem sendMsix_fuse (v : Nat) (s : State) : (sendMsix v s).fuse = s.fuse :=
  congrArg (fun p => p.2.2.2.2.2.2.2.2.2.2.2.2.2.2.2.2.2.2.1) (sendMsix_rest _ _)
@[simp] theorem sendMsix_keys (v : Nat) (s : State) : (sendMsix v s).keys = s.keys :=
  congrArg (fun p => p.2.2.2.2.2.2.2.2.2.2.2.2.2.2.2.2.2.2.2) (sendMsix_rest _ _)

/-! ### `writeCompletion`, field by field -/

@[simp] theorem writeCompletion_pending (op : Op) (st : Status) (a b : W64) (k : Bool) (s : State) : (writeCompletion op st a b k s).pending = s.pending :=
  congrArg (fun p => p.1) (writeCompletion_hostRest _ _ _ _ _ _)
@[simp] theorem writeCompletion_clk (op : Op) (st : Status) (a b : W64) (k : Bool) (s : State) : (writeCompletion op st a b k s).clk = s.clk :=
  congrArg (fun p => p.2.1) (writeCompletion_hostRest _ _ _ _ _ _)
@[simp] theorem writeCompletion_regs (op : Op) (st : Status) (a b : W64) (k : Bool) (s : State) : (writeCompletion op st a b k s).regs = s.regs :=
  congrArg (fun p => p.2.2.1) (writeCompletion_hostRest _ _ _ _ _ _)
@[simp] theorem writeCompletion_ready (op : Op) (st : Status) (a b : W64) (k : Bool) (s : State) : (writeCompletion op st a b k s).ready = s.ready :=
  congrArg (fun p => p.2.2.2.1) (writeCompletion_hostRest _ _ _ _ _ _)
@[simp] theorem writeCompletion_ev (op : Op) (st : Status) (a b : W64) (k : Bool) (s : State) : (writeCompletion op st a b k s).ev = s.ev :=
  congrArg (fun p => p.2.2.2.2.1) (writeCompletion_hostRest _ _ _ _ _ _)
@[simp] theorem writeCompletion_ctr (op : Op) (st : Status) (a b : W64) (k : Bool) (s : State) : (writeCompletion op st a b k s).ctr = s.ctr :=
  congrArg (fun p => p.2.2.2.2.2.1) (writeCompletion_hostRest _ _ _ _ _ _)
@[simp] theorem writeCompletion_int (op : Op) (st : Status) (a b : W64) (k : Bool) (s : State) : (writeCompletion op st a b k s).int = s.int :=
  congrArg (fun p => p.2.2.2.2.2.2.1) (writeCompletion_hostRest _ _ _ _ _ _)
@[simp] theorem writeCompletion_owed (op : Op) (st : Status) (a b : W64) (k : Bool) (s : State) : (writeCompletion op st a b k s).owed = s.owed :=
  congrArg (fun p => p.2.2.2.2.2.2.2.1) (writeCompletion_hostRest _ _ _ _ _ _)
@[simp] theorem writeCompletion_jrn (op : Op) (st : Status) (a b : W64) (k : Bool) (s : State) : (writeCompletion op st a b k s).jrn = s.jrn :=
  congrArg (fun p => p.2.2.2.2.2.2.2.2.1) (writeCompletion_hostRest _ _ _ _ _ _)
@[simp] theorem writeCompletion_flush (op : Op) (st : Status) (a b : W64) (k : Bool) (s : State) : (writeCompletion op st a b k s).flush = s.flush :=
  congrArg (fun p => p.2.2.2.2.2.2.2.2.2.1) (writeCompletion_hostRest _ _ _ _ _ _)
@[simp] theorem writeCompletion_kit (op : Op) (st : Status) (a b : W64) (k : Bool) (s : State) : (writeCompletion op st a b k s).kit = s.kit :=
  congrArg (fun p => p.2.2.2.2.2.2.2.2.2.2.1) (writeCompletion_hostRest _ _ _ _ _ _)
@[simp] theorem writeCompletion_hyc (op : Op) (st : Status) (a b : W64) (k : Bool) (s : State) : (writeCompletion op st a b k s).hyc = s.hyc :=
  congrArg (fun p => p.2.2.2.2.2.2.2.2.2.2.2.1) (writeCompletion_hostRest _ _ _ _ _ _)
@[simp] theorem writeCompletion_drb (op : Op) (st : Status) (a b : W64) (k : Bool) (s : State) : (writeCompletion op st a b k s).drb = s.drb :=
  congrArg (fun p => p.2.2.2.2.2.2.2.2.2.2.2.2.1) (writeCompletion_hostRest _ _ _ _ _ _)
@[simp] theorem writeCompletion_pmu (op : Op) (st : Status) (a b : W64) (k : Bool) (s : State) : (writeCompletion op st a b k s).pmu = s.pmu :=
  congrArg (fun p => p.2.2.2.2.2.2.2.2.2.2.2.2.2.1) (writeCompletion_hostRest _ _ _ _ _ _)
@[simp] theorem writeCompletion_mnt (op : Op) (st : Status) (a b : W64) (k : Bool) (s : State) : (writeCompletion op st a b k s).mnt = s.mnt :=
  congrArg (fun p => p.2.2.2.2.2.2.2.2.2.2.2.2.2.2.1) (writeCompletion_hostRest _ _ _ _ _ _)
@[simp] theorem writeCompletion_plc (op : Op) (st : Status) (a b : W64) (k : Bool) (s : State) : (writeCompletion op st a b k s).plc = s.plc :=
  congrArg (fun p => p.2.2.2.2.2.2.2.2.2.2.2.2.2.2.2.1) (writeCompletion_hostRest _ _ _ _ _ _)
@[simp] theorem writeCompletion_hmu (op : Op) (st : Status) (a b : W64) (k : Bool) (s : State) : (writeCompletion op st a b k s).hmu = s.hmu :=
  congrArg (fun p => p.2.2.2.2.2.2.2.2.2.2.2.2.2.2.2.2.1) (writeCompletion_hostRest _ _ _ _ _ _)
@[simp] theorem writeCompletion_fw (op : Op) (st : Status) (a b : W64) (k : Bool) (s : State) : (writeCompletion op st a b k s).fw = s.fw :=
  congrArg (fun p => p.2.2.2.2.2.2.2.2.2.2.2.2.2.2.2.2.2.1) (writeCompletion_hostRest _ _ _ _ _ _)
@[simp] theorem writeCompletion_fuse (op : Op) (st : Status) (a b : W64) (k : Bool) (s : State) : (writeCompletion op st a b k s).fuse = s.fuse :=
  congrArg (fun p => p.2.2.2.2.2.2.2.2.2.2.2.2.2.2.2.2.2.2.1) (writeCompletion_hostRest _ _ _ _ _ _)
@[simp] theorem writeCompletion_keys (op : Op) (st : Status) (a b : W64) (k : Bool) (s : State) : (writeCompletion op st a b k s).keys = s.keys :=
  congrArg (fun p => p.2.2.2.2.2.2.2.2.2.2.2.2.2.2.2.2.2.2.2.1) (writeCompletion_hostRest _ _ _ _ _ _)

/-! ### `endDelete`, field by field -/

@[simp] theorem endDelete_pending (n : Nat) (s : State) : (endDelete n s).pending = s.pending :=
  congrArg (fun p => p.1) (endDelete_hostRest _ _)
@[simp] theorem endDelete_clk (n : Nat) (s : State) : (endDelete n s).clk = s.clk :=
  congrArg (fun p => p.2.1) (endDelete_hostRest _ _)
@[simp] theorem endDelete_regs (n : Nat) (s : State) : (endDelete n s).regs = s.regs :=
  congrArg (fun p => p.2.2.1) (endDelete_hostRest _ _)
@[simp] theorem endDelete_ready (n : Nat) (s : State) : (endDelete n s).ready = s.ready :=
  congrArg (fun p => p.2.2.2.1) (endDelete_hostRest _ _)
@[simp] theorem endDelete_ev (n : Nat) (s : State) : (endDelete n s).ev = s.ev :=
  congrArg (fun p => p.2.2.2.2.1) (endDelete_hostRest _ _)
@[simp] theorem endDelete_ctr (n : Nat) (s : State) : (endDelete n s).ctr = s.ctr :=
  congrArg (fun p => p.2.2.2.2.2.1) (endDelete_hostRest _ _)
@[simp] theorem endDelete_int (n : Nat) (s : State) : (endDelete n s).int = s.int :=
  congrArg (fun p => p.2.2.2.2.2.2.1) (endDelete_hostRest _ _)
@[simp] theorem endDelete_owed (n : Nat) (s : State) : (endDelete n s).owed = s.owed :=
  congrArg (fun p => p.2.2.2.2.2.2.2.1) (endDelete_hostRest _ _)
@[simp] theorem endDelete_jrn (n : Nat) (s : State) : (endDelete n s).jrn = s.jrn :=
  congrArg (fun p => p.2.2.2.2.2.2.2.2.1) (endDelete_hostRest _ _)
@[simp] theorem endDelete_flush (n : Nat) (s : State) : (endDelete n s).flush = s.flush :=
  congrArg (fun p => p.2.2.2.2.2.2.2.2.2.1) (endDelete_hostRest _ _)
@[simp] theorem endDelete_kit (n : Nat) (s : State) : (endDelete n s).kit = s.kit :=
  congrArg (fun p => p.2.2.2.2.2.2.2.2.2.2.1) (endDelete_hostRest _ _)
@[simp] theorem endDelete_hyc (n : Nat) (s : State) : (endDelete n s).hyc = s.hyc :=
  congrArg (fun p => p.2.2.2.2.2.2.2.2.2.2.2.1) (endDelete_hostRest _ _)
@[simp] theorem endDelete_drb (n : Nat) (s : State) : (endDelete n s).drb = s.drb :=
  congrArg (fun p => p.2.2.2.2.2.2.2.2.2.2.2.2.1) (endDelete_hostRest _ _)
@[simp] theorem endDelete_pmu (n : Nat) (s : State) : (endDelete n s).pmu = s.pmu :=
  congrArg (fun p => p.2.2.2.2.2.2.2.2.2.2.2.2.2.1) (endDelete_hostRest _ _)
@[simp] theorem endDelete_mnt (n : Nat) (s : State) : (endDelete n s).mnt = s.mnt :=
  congrArg (fun p => p.2.2.2.2.2.2.2.2.2.2.2.2.2.2.1) (endDelete_hostRest _ _)
@[simp] theorem endDelete_plc (n : Nat) (s : State) : (endDelete n s).plc = s.plc :=
  congrArg (fun p => p.2.2.2.2.2.2.2.2.2.2.2.2.2.2.2.1) (endDelete_hostRest _ _)
@[simp] theorem endDelete_hmu (n : Nat) (s : State) : (endDelete n s).hmu = s.hmu :=
  congrArg (fun p => p.2.2.2.2.2.2.2.2.2.2.2.2.2.2.2.2.1) (endDelete_hostRest _ _)
@[simp] theorem endDelete_fw (n : Nat) (s : State) : (endDelete n s).fw = s.fw :=
  congrArg (fun p => p.2.2.2.2.2.2.2.2.2.2.2.2.2.2.2.2.2.1) (endDelete_hostRest _ _)
@[simp] theorem endDelete_fuse (n : Nat) (s : State) : (endDelete n s).fuse = s.fuse :=
  congrArg (fun p => p.2.2.2.2.2.2.2.2.2.2.2.2.2.2.2.2.2.2.1) (endDelete_hostRest _ _)
@[simp] theorem endDelete_keys (n : Nat) (s : State) : (endDelete n s).keys = s.keys :=
  congrArg (fun p => p.2.2.2.2.2.2.2.2.2.2.2.2.2.2.2.2.2.2.2.1) (endDelete_hostRest _ _)

/-! ### `complete`, field by field -/

@[simp] theorem complete_pending (op : Op) (st : Status) (a b : W64) (k : Bool) (s : State) : (complete op st a b k s).pending = s.pending :=
  congrArg (fun p => p.1) (complete_hostRest _ _ _ _ _ _)
@[simp] theorem complete_clk (op : Op) (st : Status) (a b : W64) (k : Bool) (s : State) : (complete op st a b k s).clk = s.clk :=
  congrArg (fun p => p.2.1) (complete_hostRest _ _ _ _ _ _)
@[simp] theorem complete_regs (op : Op) (st : Status) (a b : W64) (k : Bool) (s : State) : (complete op st a b k s).regs = s.regs :=
  congrArg (fun p => p.2.2.1) (complete_hostRest _ _ _ _ _ _)
@[simp] theorem complete_ready (op : Op) (st : Status) (a b : W64) (k : Bool) (s : State) : (complete op st a b k s).ready = s.ready :=
  congrArg (fun p => p.2.2.2.1) (complete_hostRest _ _ _ _ _ _)
@[simp] theorem complete_ev (op : Op) (st : Status) (a b : W64) (k : Bool) (s : State) : (complete op st a b k s).ev = s.ev :=
  congrArg (fun p => p.2.2.2.2.1) (complete_hostRest _ _ _ _ _ _)
@[simp] theorem complete_ctr (op : Op) (st : Status) (a b : W64) (k : Bool) (s : State) : (complete op st a b k s).ctr = s.ctr :=
  congrArg (fun p => p.2.2.2.2.2.1) (complete_hostRest _ _ _ _ _ _)
@[simp] theorem complete_int (op : Op) (st : Status) (a b : W64) (k : Bool) (s : State) : (complete op st a b k s).int = s.int :=
  congrArg (fun p => p.2.2.2.2.2.2.1) (complete_hostRest _ _ _ _ _ _)
@[simp] theorem complete_owed (op : Op) (st : Status) (a b : W64) (k : Bool) (s : State) : (complete op st a b k s).owed = s.owed :=
  congrArg (fun p => p.2.2.2.2.2.2.2.1) (complete_hostRest _ _ _ _ _ _)
@[simp] theorem complete_jrn (op : Op) (st : Status) (a b : W64) (k : Bool) (s : State) : (complete op st a b k s).jrn = s.jrn :=
  congrArg (fun p => p.2.2.2.2.2.2.2.2.1) (complete_hostRest _ _ _ _ _ _)
@[simp] theorem complete_flush (op : Op) (st : Status) (a b : W64) (k : Bool) (s : State) : (complete op st a b k s).flush = s.flush :=
  congrArg (fun p => p.2.2.2.2.2.2.2.2.2.1) (complete_hostRest _ _ _ _ _ _)
@[simp] theorem complete_kit (op : Op) (st : Status) (a b : W64) (k : Bool) (s : State) : (complete op st a b k s).kit = s.kit :=
  congrArg (fun p => p.2.2.2.2.2.2.2.2.2.2.1) (complete_hostRest _ _ _ _ _ _)
@[simp] theorem complete_hyc (op : Op) (st : Status) (a b : W64) (k : Bool) (s : State) : (complete op st a b k s).hyc = s.hyc :=
  congrArg (fun p => p.2.2.2.2.2.2.2.2.2.2.2.1) (complete_hostRest _ _ _ _ _ _)
@[simp] theorem complete_drb (op : Op) (st : Status) (a b : W64) (k : Bool) (s : State) : (complete op st a b k s).drb = s.drb :=
  congrArg (fun p => p.2.2.2.2.2.2.2.2.2.2.2.2.1) (complete_hostRest _ _ _ _ _ _)
@[simp] theorem complete_pmu (op : Op) (st : Status) (a b : W64) (k : Bool) (s : State) : (complete op st a b k s).pmu = s.pmu :=
  congrArg (fun p => p.2.2.2.2.2.2.2.2.2.2.2.2.2.1) (complete_hostRest _ _ _ _ _ _)
@[simp] theorem complete_mnt (op : Op) (st : Status) (a b : W64) (k : Bool) (s : State) : (complete op st a b k s).mnt = s.mnt :=
  congrArg (fun p => p.2.2.2.2.2.2.2.2.2.2.2.2.2.2.1) (complete_hostRest _ _ _ _ _ _)
@[simp] theorem complete_plc (op : Op) (st : Status) (a b : W64) (k : Bool) (s : State) : (complete op st a b k s).plc = s.plc :=
  congrArg (fun p => p.2.2.2.2.2.2.2.2.2.2.2.2.2.2.2.1) (complete_hostRest _ _ _ _ _ _)
@[simp] theorem complete_hmu (op : Op) (st : Status) (a b : W64) (k : Bool) (s : State) : (complete op st a b k s).hmu = s.hmu :=
  congrArg (fun p => p.2.2.2.2.2.2.2.2.2.2.2.2.2.2.2.2.1) (complete_hostRest _ _ _ _ _ _)
@[simp] theorem complete_fw (op : Op) (st : Status) (a b : W64) (k : Bool) (s : State) : (complete op st a b k s).fw = s.fw :=
  congrArg (fun p => p.2.2.2.2.2.2.2.2.2.2.2.2.2.2.2.2.2.1) (complete_hostRest _ _ _ _ _ _)
@[simp] theorem complete_fuse (op : Op) (st : Status) (a b : W64) (k : Bool) (s : State) : (complete op st a b k s).fuse = s.fuse :=
  congrArg (fun p => p.2.2.2.2.2.2.2.2.2.2.2.2.2.2.2.2.2.2.1) (complete_hostRest _ _ _ _ _ _)
@[simp] theorem complete_keys (op : Op) (st : Status) (a b : W64) (k : Bool) (s : State) : (complete op st a b k s).keys = s.keys :=
  congrArg (fun p => p.2.2.2.2.2.2.2.2.2.2.2.2.2.2.2.2.2.2.2.1) (complete_hostRest _ _ _ _ _ _)

/-! ### `refuse`, field by field -/

@[simp] theorem refuse_pending (op : Op) (st : Status) (s : State) : (refuse op st s).pending = s.pending :=
  congrArg (fun p => p.1) (refuse_hostRest _ _ _)
@[simp] theorem refuse_clk (op : Op) (st : Status) (s : State) : (refuse op st s).clk = s.clk :=
  congrArg (fun p => p.2.1) (refuse_hostRest _ _ _)
@[simp] theorem refuse_regs (op : Op) (st : Status) (s : State) : (refuse op st s).regs = s.regs :=
  congrArg (fun p => p.2.2.1) (refuse_hostRest _ _ _)
@[simp] theorem refuse_ready (op : Op) (st : Status) (s : State) : (refuse op st s).ready = s.ready :=
  congrArg (fun p => p.2.2.2.1) (refuse_hostRest _ _ _)
@[simp] theorem refuse_ev (op : Op) (st : Status) (s : State) : (refuse op st s).ev = s.ev :=
  congrArg (fun p => p.2.2.2.2.1) (refuse_hostRest _ _ _)
@[simp] theorem refuse_ctr (op : Op) (st : Status) (s : State) : (refuse op st s).ctr = s.ctr :=
  congrArg (fun p => p.2.2.2.2.2.1) (refuse_hostRest _ _ _)
@[simp] theorem refuse_int (op : Op) (st : Status) (s : State) : (refuse op st s).int = s.int :=
  congrArg (fun p => p.2.2.2.2.2.2.1) (refuse_hostRest _ _ _)
@[simp] theorem refuse_owed (op : Op) (st : Status) (s : State) : (refuse op st s).owed = s.owed :=
  congrArg (fun p => p.2.2.2.2.2.2.2.1) (refuse_hostRest _ _ _)
@[simp] theorem refuse_jrn (op : Op) (st : Status) (s : State) : (refuse op st s).jrn = s.jrn :=
  congrArg (fun p => p.2.2.2.2.2.2.2.2.1) (refuse_hostRest _ _ _)
@[simp] theorem refuse_flush (op : Op) (st : Status) (s : State) : (refuse op st s).flush = s.flush :=
  congrArg (fun p => p.2.2.2.2.2.2.2.2.2.1) (refuse_hostRest _ _ _)
@[simp] theorem refuse_kit (op : Op) (st : Status) (s : State) : (refuse op st s).kit = s.kit :=
  congrArg (fun p => p.2.2.2.2.2.2.2.2.2.2.1) (refuse_hostRest _ _ _)
@[simp] theorem refuse_hyc (op : Op) (st : Status) (s : State) : (refuse op st s).hyc = s.hyc :=
  congrArg (fun p => p.2.2.2.2.2.2.2.2.2.2.2.1) (refuse_hostRest _ _ _)
@[simp] theorem refuse_drb (op : Op) (st : Status) (s : State) : (refuse op st s).drb = s.drb :=
  congrArg (fun p => p.2.2.2.2.2.2.2.2.2.2.2.2.1) (refuse_hostRest _ _ _)
@[simp] theorem refuse_pmu (op : Op) (st : Status) (s : State) : (refuse op st s).pmu = s.pmu :=
  congrArg (fun p => p.2.2.2.2.2.2.2.2.2.2.2.2.2.1) (refuse_hostRest _ _ _)
@[simp] theorem refuse_mnt (op : Op) (st : Status) (s : State) : (refuse op st s).mnt = s.mnt :=
  congrArg (fun p => p.2.2.2.2.2.2.2.2.2.2.2.2.2.2.1) (refuse_hostRest _ _ _)
@[simp] theorem refuse_plc (op : Op) (st : Status) (s : State) : (refuse op st s).plc = s.plc :=
  congrArg (fun p => p.2.2.2.2.2.2.2.2.2.2.2.2.2.2.2.1) (refuse_hostRest _ _ _)
@[simp] theorem refuse_hmu (op : Op) (st : Status) (s : State) : (refuse op st s).hmu = s.hmu :=
  congrArg (fun p => p.2.2.2.2.2.2.2.2.2.2.2.2.2.2.2.2.1) (refuse_hostRest _ _ _)
@[simp] theorem refuse_fw (op : Op) (st : Status) (s : State) : (refuse op st s).fw = s.fw :=
  congrArg (fun p => p.2.2.2.2.2.2.2.2.2.2.2.2.2.2.2.2.2.1) (refuse_hostRest _ _ _)
@[simp] theorem refuse_fuse (op : Op) (st : Status) (s : State) : (refuse op st s).fuse = s.fuse :=
  congrArg (fun p => p.2.2.2.2.2.2.2.2.2.2.2.2.2.2.2.2.2.2.1) (refuse_hostRest _ _ _)
@[simp] theorem refuse_keys (op : Op) (st : Status) (s : State) : (refuse op st s).keys = s.keys :=
  congrArg (fun p => p.2.2.2.2.2.2.2.2.2.2.2.2.2.2.2.2.2.2.2.1) (refuse_hostRest _ _ _)

/-! ### READY -/

/-- A change of READY changes READY, and posts READY_CHANGE where its value changes. -/
@[simp] theorem setReady_ready (f : Ready → Ready) (s : State) : (setReady f s).ready = f s.ready := by
  unfold setReady withReady; simp only; split
  · rfl
  · exact postEvent_ready _ _ _ _

@[simp] theorem setReady_pending (f : Ready → Ready) (s : State) : (setReady f s).pending = s.pending := by
  unfold setReady withReady; simp only; split <;> simp
@[simp] theorem setReady_clk (f : Ready → Ready) (s : State) : (setReady f s).clk = s.clk := by
  unfold setReady withReady; simp only; split <;> simp
@[simp] theorem setReady_regs (f : Ready → Ready) (s : State) : (setReady f s).regs = s.regs := by
  unfold setReady withReady; simp only; split <;> simp
@[simp] theorem setReady_ctr (f : Ready → Ready) (s : State) : (setReady f s).ctr = s.ctr := by
  unfold setReady withReady; simp only; split <;> simp
@[simp] theorem setReady_int (f : Ready → Ready) (s : State) : (setReady f s).int = s.int := by
  unfold setReady withReady; simp only; split <;> simp
@[simp] theorem setReady_owed (f : Ready → Ready) (s : State) : (setReady f s).owed = s.owed := by
  unfold setReady withReady; simp only; split <;> simp
@[simp] theorem setReady_jrn (f : Ready → Ready) (s : State) : (setReady f s).jrn = s.jrn := by
  unfold setReady withReady; simp only; split <;> simp
@[simp] theorem setReady_flush (f : Ready → Ready) (s : State) : (setReady f s).flush = s.flush := by
  unfold setReady withReady; simp only; split <;> simp
@[simp] theorem setReady_kit (f : Ready → Ready) (s : State) : (setReady f s).kit = s.kit := by
  unfold setReady withReady; simp only; split <;> simp
@[simp] theorem setReady_hyc (f : Ready → Ready) (s : State) : (setReady f s).hyc = s.hyc := by
  unfold setReady withReady; simp only; split <;> simp
@[simp] theorem setReady_nsu (f : Ready → Ready) (s : State) : (setReady f s).nsu = s.nsu := by
  unfold setReady withReady; simp only; split <;> simp
@[simp] theorem setReady_drb (f : Ready → Ready) (s : State) : (setReady f s).drb = s.drb := by
  unfold setReady withReady; simp only; split <;> simp
@[simp] theorem setReady_pmu (f : Ready → Ready) (s : State) : (setReady f s).pmu = s.pmu := by
  unfold setReady withReady; simp only; split <;> simp
@[simp] theorem setReady_mnt (f : Ready → Ready) (s : State) : (setReady f s).mnt = s.mnt := by
  unfold setReady withReady; simp only; split <;> simp
@[simp] theorem setReady_plc (f : Ready → Ready) (s : State) : (setReady f s).plc = s.plc := by
  unfold setReady withReady; simp only; split <;> simp
@[simp] theorem setReady_hmu (f : Ready → Ready) (s : State) : (setReady f s).hmu = s.hmu := by
  unfold setReady withReady; simp only; split <;> simp
@[simp] theorem setReady_fw (f : Ready → Ready) (s : State) : (setReady f s).fw = s.fw := by
  unfold setReady withReady; simp only; split <;> simp
@[simp] theorem setReady_fuse (f : Ready → Ready) (s : State) : (setReady f s).fuse = s.fuse := by
  unfold setReady withReady; simp only; split <;> simp
@[simp] theorem setReady_keys (f : Ready → Ready) (s : State) : (setReady f s).keys = s.keys := by
  unfold setReady withReady; simp only; split <;> simp

end Sys2Proof.Machine
end

