-- ==== Sys2Proof/Laws/Caps.lean ====
section
/-!
SUPPORT. The caps that a certificate gives (spec/05_durability_recovery.md R140, R141), and what setting them changes.
-/
namespace Sys2Proof.Machine

theorem capsOf_low (k b r : Nat) (hb : b = min 36864 (k / 2)) (hr : r = min 32767 (b - 4097)) (h : r < 2048) :
    capsOf k = (b, r, 0, 0) := by
  simp only [capsOf]
  rw [← hb, ← hr, if_pos h]

theorem capsOf_high (k b r : Nat) (hb : b = min 36864 (k / 2)) (hr : r = min 32767 (b - 4097)) (h : 2048 ≤ r) :
    capsOf k = (b, r, min 16383 (r / 2), r - min 16383 (r / 2)) := by
  simp only [capsOf]
  rw [← hb, ← hr, if_neg (Nat.not_lt.mpr h)]

theorem setCaps_owed (b r capS capB : Nat) (s : State) :
    (setCaps b r capS capB s).owed = { s.owed with b := b, r := r, capS := capS, capB := capB } := by
  unfold setCaps; simp

theorem setCaps_holdup (b r capS capB : Nat) (s : State) : (setCaps b r capS capB s).ready.holdup = decide (2048 ≤ r) := by
  unfold setCaps; simp

/-- The caps set from the four numbers of a certificate. -/
theorem recomputeCaps_of (s : State) (b r capS capB : Nat) (h : capsOf (certifiedWrites s) = (b, r, capS, capB)) :
    recomputeCaps s = setCaps b r capS capB s := by
  simp only [recomputeCaps, h]

end Sys2Proof.Machine
end

