-- ==== Sys2Proof/Laws/Dispatch.lean ====
section
/-!
SUPPORT. What the dispatch of an operation comes to: with the operation at its dispatch its meaning runs on it, with none there nothing
happens but the clock's advance; and the checks that every family shares.
-/
namespace Sys2Proof.Machine

open Sys2Proof.Safety

theorem findOp_id {s : State} {k : Nat} {op : Op} (h : findOp s k = some op) : op.id = k := by
  have := List.find?_some h
  simpa using this

theorem hasCode_opcode {code : Nat} {op : Op} (h : hasCode code op = true) : op.opcode = code := by
  simp only [hasCode, Bool.and_eq_true, beq_iff_eq] at h
  exact h.1

theorem dispatchAt_run {p : Op → Bool} {t k : Nat} {run : Op → State → State} {s : State} {op : Op}
    (h1 : findOp (advance t s) k = some op) (h2 : p op = true) (h3 : dispatchable op (advance t s) = true) :
    dispatchAt p t k run s = run op (advance t s) := by
  simp [dispatchAt, h1, h2, h3]

theorem dispatchAt_dispatched {code t k : Nat} {run : Op → State → State} {s : State} {op : Op}
    (h : Dispatched code k op (advance t s)) : dispatchAt (hasCode code) t k run s = run op (advance t s) :=
  dispatchAt_run h.1 h.2.1 h.2.2

theorem dispatchThen_dispatched {code t k : Nat} {run : Op → State → State} {s : State} {op : Op}
    (h : Dispatched code k op (advance t s)) : dispatchThen code t k run s = background (run op (advance t s)) := by
  simp [dispatchThen, dispatchAt_dispatched h]

/-- No operation of that opcode at its dispatch: nothing but the clock's advance. -/
theorem dispatchAt_none {code t k : Nat} {run : Op → State → State} {s : State}
    (h : ∀ op, findOp (advance t s) k = some op → op.opcode = code → dispatchable op (advance t s) = false) :
    dispatchAt (hasCode code) t k run s = advance t s := by
  unfold dispatchAt
  split
  · rename_i op e
    split
    · rename_i hp
      simp only [Bool.and_eq_true] at hp
      have := h op e (hasCode_opcode hp.1)
      simp [this] at hp
    · rfl
  · rfl

/-- A part in service refuses nothing for its state. -/
theorem gate_none {op : Op} {ready : Bool} {s : State} (h : Serving s) (hr : ready = true) : gate op ready s = none := by
  simp [gate, h.1, h.2, hr]

/-- In SAFE an operation not served there is refused. -/
theorem gate_safe {op : Op} {ready : Bool} {s : State} (h : inSafe s = true) (hs : servedInSafe op = false) :
    gate op ready s = some .safeState := by
  simp [gate, h, hs]

/-- After SHUTDOWN_PREPARE an operation not served then is refused. -/
theorem gate_shutdown {op : Op} {ready : Bool} {s : State} (h : inSafe s = false) (hd : s.pmu.shutdown = true)
    (hs : servedAfterShutdown op.opcode = false) : gate op ready s = some .notReady := by
  simp [gate, h, hs, hd]

/-- A place at its engine changes no check of a counter operation. -/
@[simp] theorem ctrGate_takePlace (op op' : Op) (s : State) : ctrGate op (takePlace op' s) = ctrGate op s := by
  unfold takePlace
  split <;> rfl

/-- A counter operation that passes its checks, with no bad word, takes its place at its engine and starts on its plan. -/
theorem runCounter_start {op : Op} {s : State} {r : Except Status Plan} (hg : ctrGate op s = none)
    (hr : ctrPlan op (takePlace op s) = r) (hc : op.opcode < 0x20 ∨ op.opcode = 0x25) :
    runCounter [] op s = wakeCommits (startPlan op r (takePlace op s)) := by
  simp [runCounter, gated, hg, repairOrSafe_nil, startObject, objectPlan, hc, hr]

end Sys2Proof.Machine
end

