-- ==== Sys2Proof/Laws/KeptPower.lean ====
section
/-!
SUPPORT. What every function of Sys2Proof/Machine/Run.lean, Flush.lean, Power.lean, Recovery.lean, Start.lean keeps (Sys2Proof/Laws/Kept.lean).
-/
namespace Sys2Proof.Machine

/-! ### Run.lean -/

@[simp] theorem takePlace_kept {pq : Before} {s : State} (op : Op) (h : Kept pq s) :
    Kept pq (takePlace op s) := by
  simp (maxDischargeDepth := 20) [takePlace, h]

@[simp] theorem runCounter_kept {pq : Before} {s : State} (bad : List BadWord) (op : Op) (h : Kept pq s) :
    Kept pq (runCounter bad op s) :=
  gated_kept _ _ (fun h => gated_kept _ _ (fun h => by simp [h]) (by simp [h])) h

@[simp] theorem runKid_kept {pq : Before} {s : State} (op : Op) (h : Kept pq s) :
    Kept pq (runKid op s) := by
  exact gated_kept _ _ (fun h => by simp (maxDischargeDepth := 20) [h]) h

@[simp] theorem runParam_kept {pq : Before} {s : State} (op : Op) (h : Kept pq s) :
    Kept pq (runParam op s) := by
  exact gated_kept _ _ (fun h => by simp (maxDischargeDepth := 20) [h]) h

@[simp] theorem runParamRead_kept {pq : Before} {s : State} (corrected uncorrectable : List Nat) (op : Op) (h : Kept pq s) :
    Kept pq (runParamRead corrected uncorrectable op s) := by
  exact gated_kept _ _ (fun h => by simp (maxDischargeDepth := 20) [h]) h

@[simp] theorem runDrbg_kept {pq : Before} {s : State} (op : Op) (h : Kept pq s) :
    Kept pq (runDrbg op s) := by
  exact gated_kept _ _ (fun h => by simp (maxDischargeDepth := 20) [h]) h

@[simp] theorem runTagRead_kept {pq : Before} {s : State} (op : Op) (h : Kept pq s) :
    Kept pq (runTagRead op s) := by
  exact gated_kept _ _ (fun h => by simp (maxDischargeDepth := 20) [h]) h

@[simp] theorem runPort_kept {pq : Before} {s : State} (op : Op) (h : Kept pq s) :
    Kept pq (runPort op s) := by
  exact gated_kept _ _ (fun h => by simp (maxDischargeDepth := 20) [h]) h

@[simp] theorem runOp_kept {pq : Before} {s : State} (op : Op) (h : Kept pq s) :
    Kept pq (runOp op s) := by
  unfold runOp
  (repeat' split) <;> simp (maxDischargeDepth := 20) [h]

@[simp] theorem runReady_kept {pq : Before} {s : State} (l : List Nat) (h : Kept pq s) : Kept pq (runReady l s) := by
  induction l generalizing s with
  | nil => exact h
  | cons k l ih => unfold runReady; split <;> simp (maxDischargeDepth := 20) [ih, h]

/-! ### Flush.lean -/

@[simp] theorem abortHeld_kept {pq : Before} {s : State} (h : Kept pq s) :
    Kept pq (abortHeld s) := by
  exact kept_foldl (fun _ _ h => by simp [h]) _ h

@[simp] theorem stopNsu_kept {pq : Before} {s : State} (h : Kept pq s) :
    Kept pq (stopNsu s) := by
  simp (maxDischargeDepth := 20) [stopNsu, h]

@[simp] theorem abandonMaint_kept {pq : Before} {s : State} (why : FlushWhy) (h : Kept pq s) :
    Kept pq (abandonMaint why s) := by
  unfold abandonMaint
  (repeat' split) <;> simp (maxDischargeDepth := 20) [h]

@[simp] theorem beginFlush_kept {pq : Before} {s : State} (why : FlushWhy) (cause : Option Nat) (h : Kept pq s) :
    Kept pq (beginFlush why cause s) := by
  simp only [beginFlush]
  exact pump_kept (by (repeat' split) <;> simp (maxDischargeDepth := 20) [h])

@[simp] theorem tornSlots_kept {pq : Before} {s : State} (h : Kept pq s) : Kept pq (tornSlots s) :=
  kept_foldl (fun _ _ h => by simp [h]) _ (kept_foldl (fun _ _ h => by simp [h]) _ h)

@[simp] theorem doReset_kept {pq : Before} {s : State} (cause : Nat) (h : Kept pq s) : Kept pq (doReset cause s) :=
  ⟨h.1, h.2.1, Or.inr rfl, rfl, rfl, rfl, rfl, rfl, rfl⟩

@[simp] theorem requestReset_kept {pq : Before} {s : State} (cause : Nat) (h : Kept pq s) :
    Kept pq (requestReset cause s) := by
  simp (maxDischargeDepth := 20) [requestReset, h]

@[simp] theorem restartNsu_kept {pq : Before} {s : State} (h : Kept pq s) :
    Kept pq (restartNsu s) := by
  simp (maxDischargeDepth := 20) [restartNsu, h]

@[simp] theorem postResumed_kept {pq : Before} {s : State} (warn holdup state slots : Nat) (h : Kept pq s) :
    Kept pq (postResumed warn holdup state slots s) := by
  simp (maxDischargeDepth := 20) [postResumed, h]

@[simp] theorem resume_kept {pq : Before} {s : State} (h : Kept pq s) : Kept pq (resume s) := by
  simp only [resume]
  split
  · exact h
  next t e =>
    have ht : Kept pq t := tryWrite_kept (by simp [h]) e
    simp (maxDischargeDepth := 20) [ht]

@[simp] theorem tryResume_kept {pq : Before} {s : State} (h : Kept pq s) :
    Kept pq (tryResume s) := by
  simp (maxDischargeDepth := 20) [tryResume, h]

@[simp] theorem finishShutdown_kept {pq : Before} {s : State} (payload : List Byte) (result duration : Nat) (h : Kept pq s) :
    Kept pq (finishShutdown payload result duration s) := by
  simp only [finishShutdown]
  (repeat' split) <;> simp (maxDischargeDepth := 20) [h]

@[simp] theorem reinitSram_kept {pq : Before} {s : State} (h : Kept pq s) :
    Kept pq (reinitSram s) := by
  simp (maxDischargeDepth := 20) [reinitSram, h]

@[simp] theorem stopShutdown_kept {pq : Before} {s : State} (h : Kept pq s) :
    Kept pq (stopShutdown s) := by
  simp (maxDischargeDepth := 20) [stopShutdown, h]

@[simp] theorem interruptBist_kept {pq : Before} {s : State} (h : Kept pq s) :
    Kept pq (interruptBist s) := by
  simp (maxDischargeDepth := 20) [interruptBist, h]

@[simp] theorem shutdownBistDone_kept {pq : Before} {s : State} (o : BistOutcome) (h : Kept pq s) :
    Kept pq (shutdownBistDone o s) := by
  unfold shutdownBistDone
  split <;> simp (maxDischargeDepth := 20) [h]

@[simp] theorem shutdownPrepare_kept {pq : Before} {s : State} (op : Op) (h : Kept pq s) :
    Kept pq (shutdownPrepare op s) := by
  exact gated_kept _ _ (fun h => by simp (maxDischargeDepth := 20) [h]) h

@[simp] theorem openLock_kept {pq : Before} {s : State} (h : Kept pq s) :
    Kept pq (openLock s) := by
  simp (maxDischargeDepth := 20) [openLock, h]

@[simp] theorem requestUnlock_kept {pq : Before} {s : State} (h : Kept pq s) :
    Kept pq (requestUnlock s) := by
  simp (maxDischargeDepth := 20) [requestUnlock, h]

theorem endFlush_kept {pq : Before} {s t : State} (h : Kept pq s) (e : endFlush s = some t) : Kept pq t := by
  simp only [endFlush] at e
  (repeat' split at e) <;> simp only [Option.map_eq_some_iff, Option.some.injEq, reduceCtorEq] at e
  · subst e; simp [h]
  · obtain ⟨u, eu, rfl⟩ := e
    simp [tryWrite_kept h eu]
  · subst e; simp [h]

@[simp] theorem afterShutdown_kept {pq : Before} {s : State} (h : Kept pq s) :
    Kept pq (afterShutdown s) := by
  simp (maxDischargeDepth := 20) [afterShutdown, h]

@[simp] theorem flushComplete_kept {pq : Before} {s : State} (h : Kept pq s) : Kept pq (flushComplete s) := by
  unfold flushComplete
  split
  · exact h
  next t e =>
    have ht := endFlush_kept h e
    (repeat' split) <;> simp (maxDischargeDepth := 20) [ht]

/-! ### Power.lean -/

@[simp] theorem seeVin_kept {pq : Before} {s : State} (vin : Nat) (h : Kept pq s) :
    Kept pq (seeVin vin s) := by
  simp (maxDischargeDepth := 20) [seeVin, h]

@[simp] theorem seeVhold_kept {pq : Before} {s : State} (vhold : Nat) (h : Kept pq s) :
    Kept pq (seeVhold vhold s) := by
  simp (maxDischargeDepth := 20) [seeVhold, h]

@[simp] theorem postPower_kept {pq : Before} {s : State} (name : EventName) (h : Kept pq s) :
    Kept pq (postPower name s) := by
  simp (maxDischargeDepth := 20) [postPower, h]

@[simp] theorem warnPower_kept {pq : Before} {s : State} (vin vhold : Nat) (h : Kept pq s) :
    Kept pq (warnPower vin vhold s) := by
  simp (maxDischargeDepth := 20) [warnPower, h]

@[simp] theorem holdupPower_kept {pq : Before} {s : State} (vin vhold : Nat) (h : Kept pq s) :
    Kept pq (holdupPower vin vhold s) := by
  simp (maxDischargeDepth := 20) [holdupPower, h]

@[simp] theorem clearWarning_kept {pq : Before} {s : State} (h : Kept pq s) :
    Kept pq (clearWarning s) := by
  simp (maxDischargeDepth := 20) [clearWarning, h]

@[simp] theorem vinBack_kept {pq : Before} {s : State} (vhold : Nat) (h : Kept pq s) :
    Kept pq (vinBack vhold s) := by
  simp (maxDischargeDepth := 20) [vinBack, h]

@[simp] theorem vholdLow_kept {pq : Before} {s : State} (h : Kept pq s) :
    Kept pq (vholdLow s) := by
  simp (maxDischargeDepth := 20) [vholdLow, h]

@[simp] theorem postRail_kept {pq : Before} {s : State} (object level threshold kind : Nat) (h : Kept pq s) :
    Kept pq (postRail object level threshold kind s) := by
  simp (maxDischargeDepth := 20) [postRail, h]

@[simp] theorem postCheck_kept {pq : Before} {s : State} (kind : Nat) (h : Kept pq s) :
    Kept pq (postCheck kind s) := by
  simp (maxDischargeDepth := 20) [postCheck, h]

@[simp] theorem checkBank_kept {pq : Before} {s : State} (h : Kept pq s) :
    Kept pq (checkBank s) := by
  simp (maxDischargeDepth := 20) [checkBank, h]

@[simp] theorem holdFull_kept {pq : Before} {s : State} (h : Kept pq s) :
    Kept pq (holdFull s) := by
  simp (maxDischargeDepth := 20) [holdFull, h]

@[simp] theorem holdLow_kept {pq : Before} {s : State} (h : Kept pq s) :
    Kept pq (holdLow s) := by
  simp (maxDischargeDepth := 20) [holdLow, h]

@[simp] theorem chargerAt_kept {pq : Before} {s : State} (vin : Nat) (h : Kept pq s) :
    Kept pq (chargerAt vin s) := by
  simp (maxDischargeDepth := 20) [chargerAt, h]

@[simp] theorem leftWindow_kept {pq : Before} {s : State} (object kind level threshold : Nat) (h : Kept pq s) :
    Kept pq (leftWindow object kind level threshold s) := by
  simp (maxDischargeDepth := 20) [leftWindow, h]

@[simp] theorem backInside_kept {pq : Before} {s : State} (object : Nat) (h : Kept pq s) :
    Kept pq (backInside object s) := by
  simp (maxDischargeDepth := 20) [backInside, h]

@[simp] theorem judgeLevel_kept {pq : Before} {s : State} (object level : Nat) (low high : Option Nat) (h : Kept pq s) :
    Kept pq (judgeLevel object level low high s) := by
  unfold judgeLevel
  (repeat' split) <;> simp (maxDischargeDepth := 20) [h]

@[simp] theorem monitorAt_kept {pq : Before} {s : State} (object level : Nat) (h : Kept pq s) :
    Kept pq (monitorAt object level s) := by
  unfold monitorAt
  (repeat' split) <;> simp (maxDischargeDepth := 20) [h]

@[simp] theorem overvoltage_kept {pq : Before} {s : State} (vin : Nat) (h : Kept pq s) :
    Kept pq (overvoltage vin s) := by
  simp (maxDischargeDepth := 20) [overvoltage, h]

@[simp] theorem railReset_kept {pq : Before} {s : State} (object level : Nat) (h : Kept pq s) :
    Kept pq (railReset object level s) := by
  simp (maxDischargeDepth := 20) [railReset, h]

@[simp] theorem resetPin_kept {pq : Before} {s : State} (h : Kept pq s) :
    Kept pq (resetPin s) := by
  simp (maxDischargeDepth := 20) [resetPin, h]

@[simp] theorem pairFails_kept {pq : Before} {s : State} (pair cause : Nat) (h : Kept pq s) :
    Kept pq (pairFails pair cause s) := by
  simp (maxDischargeDepth := 20) [pairFails, h]

@[simp] theorem loseReference_kept {pq : Before} {s : State} (h : Kept pq s) :
    Kept pq (loseReference s) := by
  simp (maxDischargeDepth := 20) [loseReference, h]

@[simp] theorem findReference_kept {pq : Before} {s : State} (h : Kept pq s) :
    Kept pq (findReference s) := by
  simp (maxDischargeDepth := 20) [findReference, h]

@[simp] theorem relockPll_kept {pq : Before} {s : State} (h : Kept pq s) :
    Kept pq (relockPll s) := by
  simp (maxDischargeDepth := 20) [relockPll, h]

@[simp] theorem capRecompute_kept {pq : Before} {s : State} (vhold : Nat) (h : Kept pq s) :
    Kept pq (capRecompute vhold s) := by
  simp (maxDischargeDepth := 20) [capRecompute, h]

/-! ### Recovery.lean -/

@[simp] theorem postConflict_kept {pq : Before} {s : State} (r : Rec) (code : Nat) (h : Kept pq s) :
    Kept pq (postConflict r code s) := by
  simp (maxDischargeDepth := 20) [postConflict, h]

@[simp] theorem chooseCurrent_kept {pq : Before} {s : State} (reads : List SlotRead) (insts : List Inst) (key : Nat × Nat)
    (h : Kept pq s) : Kept pq (chooseCurrent reads insts s key) := by
  unfold chooseCurrent
  generalize judgeCopies reads insts key (highestSeq insts key) = r
  obtain ⟨r, codes, mine⟩ := r
  have h1 : Kept pq (match r with
      | some r => { s with jrn := { s.jrn with current := s.jrn.current ++ [r] } }
      | none => s) := by split <;> simp [h]
  have h2 (a : Inst) {u : State} (hu : Kept pq u) : Kept pq (codes.foldl (fun s code => postConflict a.record code s) u) :=
    kept_foldl (fun _ _ h => by simp [h]) _ hu
  cases r <;> cases mine <;> simp only at h1 ⊢ <;> simp [h, h1, h2]

@[simp] theorem restoreUnits_kept {pq : Before} {s : State} (reads : List SlotRead) (h : Kept pq s) :
    Kept pq (restoreUnits reads s) := by
  exact kept_foldl (fun _ _ h => by simp [h]) _ h

@[simp] theorem takeSectors_kept {pq : Before} {s : State} (reads : List SlotRead) (h : Kept pq s) :
    Kept pq (takeSectors reads s) := by
  simp (maxDischargeDepth := 20) [takeSectors, h]

@[simp] theorem replayDone_kept {pq : Before} {s : State} (reads : List SlotRead) (h : Kept pq s) : Kept pq (replayDone reads s) := by
  have h2 (f) (l : List (Nat × Nat)) (t : State) (h : Kept pq t) : Kept pq (l.foldl (chooseCurrent reads f) t) :=
    kept_foldl (fun _ _ h => by simp [h]) l h
  simp only [replayDone]
  split
  · exact h
  · (repeat' split) <;> simp (maxDischargeDepth := 20) [h2, h]

@[simp] theorem rebuildGroup_kept {pq : Before} {s : State} (l : Leaf) (h : Kept pq s) :
    Kept pq (rebuildGroup s l) := by
  simp (maxDischargeDepth := 20) [rebuildGroup, h]

@[simp] theorem rebuildNumbers_kept {pq : Before} {s : State} (recs : List Rec) (h : Kept pq s) :
    Kept pq (rebuildNumbers recs s) := by
  simp (maxDischargeDepth := 20) [rebuildNumbers, h]

@[simp] theorem rebuildTree_kept {pq : Before} {s : State} (e : Ending) (h : Kept pq s) : Kept pq (rebuildTree e s) := by
  simp only [rebuildTree]
  refine kept_foldl (fun _ _ h => by simp [h]) _ ?_
  split <;> simp (maxDischargeDepth := 20) [h]

@[simp] theorem resumeInternals_kept {pq : Before} {s : State} (e : Ending) (h : Kept pq s) :
    Kept pq (resumeInternals e s) := by
  simp (maxDischargeDepth := 20) [resumeInternals, h]

@[simp] theorem rebuildSram_kept {pq : Before} {s : State} (h : Kept pq s) :
    Kept pq (rebuildSram s) := by
  simp (maxDischargeDepth := 20) [rebuildSram, h]

@[simp] theorem coverLeaf_kept {pq : Before} {s : State} (n : Nat) (h : Kept pq s) : Kept pq (coverLeaf n s).2 := by
  simp only [coverLeaf]
  (repeat' split) <;> simp (maxDischargeDepth := 20) [h]

@[simp] theorem coverLeaves_kept {pq : Before} {s : State} (l moved : List Nat) (h : Kept pq s) :
    Kept pq (coverLeaves l moved s).2 := by
  induction l generalizing moved s with
  | nil => exact h
  | cons n l ih => exact ih _ (coverLeaf_kept n h)

@[simp] theorem rebuildDone_kept {pq : Before} {s : State} (h : Kept pq s) : Kept pq (rebuildDone s) := by
  simp only [rebuildDone]
  split
  · exact h
  · simp (maxDischargeDepth := 20) [h]

/-! ### Start.lean -/

@[simp] theorem startUp_kept {pq : Before} {s : State} (vin vhold : Nat) (h : Kept pq s) :
    Kept pq (startUp vin vhold s) := by
  simp (maxDischargeDepth := 20) [startUp, h]

@[simp] theorem chooseImage_kept {pq : Before} {s : State} (reads : List SlotRead) (h : Kept pq s) :
    Kept pq (chooseImage reads s) := by
  unfold chooseImage
  dsimp only
  (repeat' split) <;> simp (maxDischargeDepth := 20) [*]

@[simp] theorem deriveKeys_kept {pq : Before} {s : State} (h : Kept pq s) :
    Kept pq (deriveKeys s) := by
  simp (maxDischargeDepth := 20) [deriveKeys, h]

/-- Device time starts at PLL lock (R14): what was counted before is not kept. -/
theorem lockPll_kept {pq : Before} {s : State} (fusesOk : Bool) (reads : List SlotRead) (h0 : pq.now = 0) (h : Kept pq s) :
    Kept pq (lockPll fusesOk reads s) := by
  have hk : Kept pq (setReady (fun y => { y with pllLock := true }) { s with
      clk := { Clk.reset with running := true, refPresent := true }
      int := { s.int with nextDue := second } }) :=
    setReady_kept _ ⟨h.1, h.2.1, Or.inl (h0 ▸ Nat.zero_le _), h.2.2.2⟩
  unfold lockPll
  split
  · exact h
  · extract_lets _ _ s1
    change Kept pq s1 at hk
    split <;> simp (maxDischargeDepth := 20) [hk]

@[simp] theorem startNsu_kept {pq : Before} {s : State} (h : Kept pq s) :
    Kept pq (startNsu s) := by
  simp (maxDischargeDepth := 20) [startNsu, h]

@[simp] theorem calibrated_kept {pq : Before} {s : State} (h : Kept pq s) :
    Kept pq (calibrated s) := by
  simp (maxDischargeDepth := 20) [calibrated, h]

@[simp] theorem quickBegin_kept {pq : Before} {s : State} (vhold : Nat) (h : Kept pq s) :
    Kept pq (quickBegin vhold s) := by
  simp (maxDischargeDepth := 20) [quickBegin, h]

@[simp] theorem quickEnd_kept {pq : Before} {s : State} (fall step vhold : Nat) (h : Kept pq s) :
    Kept pq (quickEnd fall step vhold s) := by
  simp (maxDischargeDepth := 20) [quickEnd, h]

@[simp] theorem holdTimeout_kept {pq : Before} {s : State} (h : Kept pq s) :
    Kept pq (holdTimeout s) := by
  simp (maxDischargeDepth := 20) [holdTimeout, h]

@[simp] theorem holdRepeat_kept {pq : Before} {s : State} (vhold : Nat) (h : Kept pq s) :
    Kept pq (holdRepeat vhold s) := by
  simp (maxDischargeDepth := 20) [holdRepeat, h]

@[simp] theorem postRecovery_kept {pq : Before} {s : State} (h : Kept pq s) :
    Kept pq (postRecovery s) := by
  unfold postRecovery
  split <;> simp (maxDischargeDepth := 20) [h]

@[simp] theorem startBistDone_kept {pq : Before} {s : State} (o : BistOutcome) (h : Kept pq s) :
    Kept pq (startBistDone o s) := by
  unfold startBistDone
  split <;> simp (maxDischargeDepth := 20) [h]

@[simp] theorem admitCover_kept {pq : Before} {s : State} (h : Kept pq s) :
    Kept pq (admitCover s) := by
  exact kept_foldl (fun _ _ h => by simp [h]) _ h

@[simp] theorem recordBist_kept {pq : Before} {s : State} (h : Kept pq s) :
    Kept pq (recordBist s) := by
  unfold recordBist
  split <;> simp (maxDischargeDepth := 20) [h]

@[simp] theorem markFirst_kept {pq : Before} {s : State} (h : Kept pq s) :
    Kept pq (markFirst s) := by
  simp (maxDischargeDepth := 20) [markFirst, h]

@[simp] theorem beginSession_kept {pq : Before} {s : State} (h : Kept pq s) : Kept pq (beginSession s) := by
  have fold (l : List Nat) (t : State) (h : Kept pq t) : Kept pq (l.foldl (fun s g => scheduleCeiling g s) t) :=
    kept_foldl (fun _ _ h => by simp [h]) l h
  simp only [beginSession]
  split <;> simp (maxDischargeDepth := 30) [fold, h]

theorem writeQueued_kept {pq : Before} {s t : State} (h : Kept pq s) (e : writeQueued s = some t) : Kept pq t := by
  have go (l : List JWrite) (o : Option State) (ho : ∀ u, o = some u → Kept pq u) (t : State)
      (e : l.foldl (fun o j => o.bind (tryWrite j.rank j.what)) o = some t) : Kept pq t := by
    induction l generalizing o with
    | nil => exact ho t e
    | cons j l ih =>
      refine ih _ (fun u hu => ?_) e
      simp only [Option.bind_eq_some_iff] at hu
      obtain ⟨v, hv, hu⟩ := hu
      exact tryWrite_kept (ho v hv) hu
  exact go _ _ (fun u hu => by simp only [Option.some.injEq] at hu; subst hu; simp [h]) t e

@[simp] theorem openSession_kept {pq : Before} {s : State} (h : Kept pq s) : Kept pq (openSession s) := by
  simp only [openSession]
  split
  · exact h
  · split
    · exact h
    next t e =>
      simp only [Option.bind_eq_some_iff] at e
      obtain ⟨u, eu, e⟩ := e
      have hu : Kept pq u := writeQueued_kept (by simp [h]) eu
      have ht : Kept pq t := tryWrite_kept (by simp [hu]) e
      simp (maxDischargeDepth := 20) [ht]

@[simp] theorem linkUp_kept {pq : Before} {s : State} (h : Kept pq s) :
    Kept pq (linkUp s) := by
  simp (maxDischargeDepth := 20) [linkUp, h]

end Sys2Proof.Machine
end

