-- ==== Sys2Proof/Laws/KeptMeanings.lean ====
section
/-!
SUPPORT. What every function of Sys2Proof/Machine/Registers.lean, Operations.lean, Interface.lean, Units.lean, Sensing.lean keeps (Sys2Proof/Laws/Kept.lean).
-/
namespace Sys2Proof.Machine

/-! ### Registers.lean -/

@[simp] theorem setupError_kept {pq : Before} {s : State} (h : Kept pq s) :
    Kept pq (setupError s) := by
  simp (maxDischargeDepth := 20) [setupError, h]

@[simp] theorem putAdminSizes_kept {pq : Before} {s : State} (v : W32) (h : Kept pq s) :
    Kept pq (putAdminSizes v s) := by
  simp (maxDischargeDepth := 20) [putAdminSizes, h]

@[simp] theorem putEventSize_kept {pq : Before} {s : State} (v : W32) (h : Kept pq s) :
    Kept pq (putEventSize v s) := by
  unfold putEventSize
  split <;> simp (maxDischargeDepth := 20) [h]

@[simp] theorem portSwitched_kept {pq : Before} {s : State} (p : Nat) (before after : Bool) (h : Kept pq s) :
    Kept pq (portSwitched s p before after) := by
  unfold portSwitched
  split <;> simp (maxDischargeDepth := 20) [h]

@[simp] theorem putPorts_kept {pq : Before} {s : State} (hi : Bool) (v : W32) (h : Kept pq s) :
    Kept pq (putPorts hi v s) :=
  background_kept (serveAll_kept (kept_foldl (fun _ _ h => by simp [h]) _ (by simp [h])))

@[simp] theorem putRegister_kept {pq : Before} {s : State} (offset : Nat) (v : W32) (h : Kept pq s) :
    Kept pq (putRegister offset v s) := by
  unfold putRegister
  (repeat' split) <;> simp (maxDischargeDepth := 20) [h]

@[simp] theorem write32_kept {pq : Before} {s : State} (offset : Nat) (v : W32) (h : Kept pq s) :
    Kept pq (write32 offset v s) := by
  simp (maxDischargeDepth := 20) [write32, h]

@[simp] theorem write64_kept {pq : Before} {s : State} (offset : Nat) (v : W64) (h : Kept pq s) :
    Kept pq (write64 offset v s) := by
  simp (maxDischargeDepth := 20) [write64, h]

@[simp] theorem writeBar_kept {pq : Before} {s : State} (offset width : Nat) (v : W64) (h : Kept pq s) :
    Kept pq (writeBar offset width v s) := by
  simp (maxDischargeDepth := 20) [writeBar, h]

@[simp] theorem writeBasePair_kept {pq : Before} {s : State} (offset : Nat) (wide : Bool) (v : W64) (h : Kept pq s) :
    Kept pq (writeBasePair offset wide v s) := by
  simp (maxDischargeDepth := 20) [writeBasePair, h]

@[simp] theorem writeMonitors_kept {pq : Before} {s : State} (b : Bool) (v : W32) (levels : List Nat) (h : Kept pq s) :
    Kept pq (writeMonitors b v levels s) := by
  simp only [writeMonitors]
  split
  · exact kept_foldl (fun _ _ h => by simp [h]) _ (by simp [h])
  · simp [h]

@[simp] theorem returnData_kept {pq : Before} {s : State} (v : W64) (h : Kept pq s) :
    Kept pq (returnData v s) := by
  simp (maxDischargeDepth := 20) [returnData, h]

@[simp] theorem setCapture_kept {pq : Before} {s : State} (requester : Nat) (c : Option W64) (h : Kept pq s) :
    Kept pq (setCapture requester c s) := by
  simp (maxDischargeDepth := 20) [setCapture, h]

@[simp] theorem readTimeLo_kept {pq : Before} {s : State} (requester : Nat) (wide : Bool) (h : Kept pq s) :
    Kept pq (readTimeLo requester wide s) := by
  simp (maxDischargeDepth := 20) [readTimeLo, h]

@[simp] theorem readTimeHi_kept {pq : Before} {s : State} (requester : Nat) (between : Bool) (h : Kept pq s) :
    Kept pq (readTimeHi requester between s) := by
  simp (maxDischargeDepth := 20) [readTimeHi, h]

/-! ### Operations.lean -/

theorem dispatchAt_kept {pq : Before} {s : State} (p : Op → Bool) (t k : Nat) {run : Op → State → State}
    (hr : ∀ op s, Kept pq s → Kept pq (run op s)) (h : Kept pq s) : Kept pq (dispatchAt p t k run s) := by
  unfold dispatchAt
  split
  · split
    · exact hr _ _ (by simp [h])
    · simp [h]
  · simp [h]

theorem dispatchThen_kept {pq : Before} {s : State} (code t k : Nat) {run : Op → State → State}
    (hr : ∀ op s, Kept pq s → Kept pq (run op s)) (h : Kept pq s) : Kept pq (dispatchThen code t k run s) :=
  dispatchAt_kept _ _ _ (fun op s h => background_kept (hr op s h)) h

@[simp] theorem readCounter_kept {pq : Before} {s : State} (code t k : Nat) (bad : List BadWord) (h : Kept pq s) :
    Kept pq (readCounter code t k bad s) :=
  dispatchAt_kept _ _ _ (fun op s h => by split <;> simp [h]) h

/-! ### Interface.lean -/

@[simp] theorem pollAll_kept {pq : Before} {s : State} (h : Kept pq s) :
    Kept pq (pollAll s) := by
  simp (maxDischargeDepth := 20) [pollAll, h]

@[simp] theorem scanTails_kept {pq : Before} {s : State} (h : Kept pq s) :
    Kept pq (scanTails s) := by
  simp (maxDischargeDepth := 20) [scanTails, h]

theorem endWait_kept {pq : Before} {s : State} (k : Nat) (ended : Op → State → Bool) {finish : Op → State → State}
    (hf : ∀ op s, Kept pq s → Kept pq (finish op s)) (h : Kept pq s) : Kept pq (endWait k ended finish s) := by
  unfold endWait
  (repeat' split) <;> simp [hf, h]

@[simp] theorem endSplice_kept {pq : Before} {s : State} (op : Op) (h : Kept pq s) :
    Kept pq (endSplice op s) := by
  simp (maxDischargeDepth := 20) [endSplice, h]

@[simp] theorem closeDue_kept {pq : Before} {s : State} (h : Kept pq s) :
    Kept pq (closeDue s) := by
  unfold closeDue
  split <;> simp (maxDischargeDepth := 20) [h]

/-! ### Units.lean -/

@[simp] theorem slotEnded_kept {pq : Before} {s : State} (bank : Nat) (passed : Bool) (h : Kept pq s) :
    Kept pq (slotEnded bank passed s) := by
  simp (maxDischargeDepth := 20) [slotEnded, h]

/-! ### Sensing.lean -/

@[simp] theorem settleDone_kept {pq : Before} {s : State} (h : Kept pq s) :
    Kept pq (settleDone s) := by
  unfold settleDone
  split <;> simp (maxDischargeDepth := 20) [h]

theorem nsuThen_kept {pq : Before} {s : State} {f : State → State} (hf : ∀ s, Kept pq s → Kept pq (f s))
    (h : Kept pq s) : Kept pq (nsuThen f s) := by
  unfold nsuThen
  split
  · exact background_kept (hf _ h)
  · exact h

@[simp] theorem askReseed_kept {pq : Before} {s : State} (i : Nat) (h : Kept pq s) :
    Kept pq (askReseed i s) := by
  simp (maxDischargeDepth := 20) [askReseed, h]

@[simp] theorem assignAnswered_kept {pq : Before} {s : State} (p : Nat) (up : Uplink) (h : Kept pq s) :
    Kept pq (assignAnswered p up s) := by
  unfold assignAnswered
  (repeat' split) <;> simp (maxDischargeDepth := 20) [h]

end Sys2Proof.Machine
end

