-- ==== Sys2Proof/Laws/KeptCommands.lean ====
section
/-!
SUPPORT. What every command keeps: the queue behind it and the canonical form of host memory, one lemma per meaning.
-/
namespace Sys2Proof.Machine

theorem execQpCreate_kept {pq : Before} {s u : State} (t k : Nat) (h : Kept pq s)
    (e : execQpCreate t k s = .next u) : Kept pq u := by
  simp only [execQpCreate, Host.Outcome.next.injEq] at e
  subst e
  exact dispatchAt_kept _ _ _ (fun _ _ h => by simp [h]) (by simp [h])

theorem execQpDelete_kept {pq : Before} {s u : State} (t k : Nat) (h : Kept pq s)
    (e : execQpDelete t k s = .next u) : Kept pq u := by
  simp only [execQpDelete, Host.Outcome.next.injEq] at e
  subst e
  exact dispatchThen_kept _ _ _ (fun _ _ h => by simp [h]) (by simp [h])

theorem execIdentify_kept {pq : Before} {s u : State} (t k : Nat) (h : Kept pq s)
    (e : execIdentify t k s = .next u) : Kept pq u := by
  simp only [execIdentify, Host.Outcome.next.injEq] at e
  subst e
  exact dispatchAt_kept _ _ _ (fun _ _ h => by simp [h]) (by simp [h])

theorem execShutdownPrepare_kept {pq : Before} {s u : State} (t k : Nat) (h : Kept pq s)
    (e : execShutdownPrepare t k s = .next u) : Kept pq u := by
  simp only [execShutdownPrepare, Host.Outcome.next.injEq] at e
  subst e
  exact dispatchAt_kept _ _ _ (fun _ _ h => by simp [h]) (by simp [h])

theorem execTimeSet_kept {pq : Before} {s u : State} (t k : Nat) (h : Kept pq s)
    (e : execTimeSet t k s = .next u) : Kept pq u := by
  simp only [execTimeSet, Host.Outcome.next.injEq] at e
  subst e
  exact dispatchThen_kept _ _ _ (fun _ _ h => by simp [h]) (by simp [h])

theorem execFwStage_kept {pq : Before} {s u : State} (t k : Nat) (hw : HostWrites) (h : Kept pq s)
    (e : execFwStage t k hw s = .next u) : Kept pq u := by
  simp only [execFwStage, Host.Outcome.next.injEq] at e
  subst e
  exact dispatchThen_kept _ _ _ (fun _ _ h => by simp [h]) (by simp [h])

theorem execFwActivate_kept {pq : Before} {s u : State} (t k : Nat) (readable : Bool) (h : Kept pq s)
    (e : execFwActivate t k readable s = .next u) : Kept pq u := by
  simp only [execFwActivate, Host.Outcome.next.injEq] at e
  subst e
  exact dispatchThen_kept _ _ _ (fun _ _ h => by simp [h]) (by simp [h])

theorem execFamilyKeyLoad_kept {pq : Before} {s u : State} (t k : Nat) (hw : HostWrites) (h : Kept pq s)
    (e : execFamilyKeyLoad t k hw s = .next u) : Kept pq u := by
  simp only [execFamilyKeyLoad, Host.Outcome.next.injEq] at e
  subst e
  exact dispatchThen_kept _ _ _ (fun _ _ h => by simp [h]) (by simp [h])

theorem execDomainSet_kept {pq : Before} {s u : State} (t k : Nat) (h : Kept pq s)
    (e : execDomainSet t k s = .next u) : Kept pq u := by
  simp only [execDomainSet, Host.Outcome.next.injEq] at e
  subst e
  exact dispatchThen_kept _ _ _ (fun _ _ h => by simp [h]) (by simp [h])

theorem execUnknownOpcode_kept {pq : Before} {s u : State} (t k : Nat) (h : Kept pq s)
    (e : execUnknownOpcode t k s = .next u) : Kept pq u := by
  simp only [execUnknownOpcode, Host.Outcome.next.injEq] at e
  subst e
  exact dispatchAt_kept _ _ _ (fun _ _ h => by simp [h]) (by simp [h])

theorem execCtrCreate_kept {pq : Before} {s u : State} (t k : Nat) (h : Kept pq s)
    (e : execCtrCreate t k s = .next u) : Kept pq u := by
  simp only [execCtrCreate, Host.Outcome.next.injEq] at e
  subst e
  exact dispatchThen_kept _ _ _ (fun _ _ h => by simp [h]) (by simp [h])

theorem execCtrRead_kept {pq : Before} {s u : State} (t k : Nat) (bad : List BadWord) (h : Kept pq s)
    (e : execCtrRead t k bad s = .next u) : Kept pq u := by
  simp only [execCtrRead, Host.Outcome.next.injEq] at e
  subst e
  simp (maxDischargeDepth := 20) [h]

theorem execCtrAdvance_kept {pq : Before} {s u : State} (t k : Nat) (bad : List BadWord) (h : Kept pq s)
    (e : execCtrAdvance t k bad s = .next u) : Kept pq u := by
  simp only [execCtrAdvance, Host.Outcome.next.injEq] at e
  subst e
  exact dispatchThen_kept _ _ _ (fun _ _ h => by simp [h]) (by simp [h])

theorem execCtrReserve_kept {pq : Before} {s u : State} (t k : Nat) (bad : List BadWord) (h : Kept pq s)
    (e : execCtrReserve t k bad s = .next u) : Kept pq u := by
  simp only [execCtrReserve, Host.Outcome.next.injEq] at e
  subst e
  exact dispatchThen_kept _ _ _ (fun _ _ h => by simp [h]) (by simp [h])

theorem execCtrRaise_kept {pq : Before} {s u : State} (t k : Nat) (bad : List BadWord) (h : Kept pq s)
    (e : execCtrRaise t k bad s = .next u) : Kept pq u := by
  simp only [execCtrRaise, Host.Outcome.next.injEq] at e
  subst e
  exact dispatchThen_kept _ _ _ (fun _ _ h => by simp [h]) (by simp [h])

theorem execCtrClose_kept {pq : Before} {s u : State} (t k : Nat) (h : Kept pq s)
    (e : execCtrClose t k s = .next u) : Kept pq u := by
  simp only [execCtrClose, Host.Outcome.next.injEq] at e
  subst e
  exact dispatchThen_kept _ _ _ (fun _ _ h => by simp [h]) (by simp [h])

theorem execCtrReclass_kept {pq : Before} {s u : State} (t k : Nat) (h : Kept pq s)
    (e : execCtrReclass t k s = .next u) : Kept pq u := by
  simp only [execCtrReclass, Host.Outcome.next.injEq] at e
  subst e
  exact dispatchThen_kept _ _ _ (fun _ _ h => by simp [h]) (by simp [h])

theorem execCtrGroupRead_kept {pq : Before} {s u : State} (t k : Nat) (bad : List BadWord) (h : Kept pq s)
    (e : execCtrGroupRead t k bad s = .next u) : Kept pq u := by
  simp only [execCtrGroupRead, Host.Outcome.next.injEq] at e
  subst e
  simp (maxDischargeDepth := 20) [h]

theorem execKidAlloc_kept {pq : Before} {s u : State} (t k : Nat) (h : Kept pq s)
    (e : execKidAlloc t k s = .next u) : Kept pq u := by
  simp only [execKidAlloc, Host.Outcome.next.injEq] at e
  subst e
  exact dispatchThen_kept _ _ _ (fun _ _ h => by simp [h]) (by simp [h])

theorem execKidSpliceBegin_kept {pq : Before} {s u : State} (t k : Nat) (h : Kept pq s)
    (e : execKidSpliceBegin t k s = .next u) : Kept pq u := by
  simp only [execKidSpliceBegin, Host.Outcome.next.injEq] at e
  subst e
  exact dispatchThen_kept _ _ _ (fun _ _ h => by simp [h]) (by simp [h])

theorem execKidFlushed_kept {pq : Before} {s u : State} (t k : Nat) (h : Kept pq s)
    (e : execKidFlushed t k s = .next u) : Kept pq u := by
  simp only [execKidFlushed, Host.Outcome.next.injEq] at e
  subst e
  exact dispatchThen_kept _ _ _ (fun _ _ h => by simp [h]) (by simp [h])

theorem execKidSpliceCommit_kept {pq : Before} {s u : State} (t k : Nat) (h : Kept pq s)
    (e : execKidSpliceCommit t k s = .next u) : Kept pq u := by
  simp only [execKidSpliceCommit, Host.Outcome.next.injEq] at e
  subst e
  exact dispatchThen_kept _ _ _ (fun _ _ h => by simp [h]) (by simp [h])

theorem execKidRead_kept {pq : Before} {s u : State} (t k : Nat) (h : Kept pq s)
    (e : execKidRead t k s = .next u) : Kept pq u := by
  simp only [execKidRead, Host.Outcome.next.injEq] at e
  subst e
  exact dispatchAt_kept _ _ _ (fun _ _ h => by simp [h]) (by simp [h])

theorem execFaultReport_kept {pq : Before} {s u : State} (t k : Nat) (h : Kept pq s)
    (e : execFaultReport t k s = .next u) : Kept pq u := by
  simp only [execFaultReport, Host.Outcome.next.injEq] at e
  subst e
  exact dispatchThen_kept _ _ _ (fun _ _ h => by simp [h]) (by simp [h])

theorem execHySlate_kept {pq : Before} {s u : State} (t k : Nat) (h : Kept pq s)
    (e : execHySlate t k s = .next u) : Kept pq u := by
  simp only [execHySlate, Host.Outcome.next.injEq] at e
  subst e
  exact dispatchThen_kept _ _ _ (fun _ _ h => by simp [h]) (by simp [h])

theorem execTagAuth_kept {pq : Before} {s u : State} (t k : Nat) (h : Kept pq s)
    (e : execTagAuth t k s = .next u) : Kept pq u := by
  simp only [execTagAuth, Host.Outcome.next.injEq] at e
  subst e
  exact dispatchThen_kept _ _ _ (fun _ _ h => by simp [h]) (by simp [h])

theorem execTagConsume_kept {pq : Before} {s u : State} (t k : Nat) (h : Kept pq s)
    (e : execTagConsume t k s = .next u) : Kept pq u := by
  simp only [execTagConsume, Host.Outcome.next.injEq] at e
  subst e
  exact dispatchThen_kept _ _ _ (fun _ _ h => by simp [h]) (by simp [h])

theorem execTagRead_kept {pq : Before} {s u : State} (t k : Nat) (h : Kept pq s)
    (e : execTagRead t k s = .next u) : Kept pq u := by
  simp only [execTagRead, Host.Outcome.next.injEq] at e
  subst e
  exact dispatchAt_kept _ _ _ (fun _ _ h => by simp [h]) (by simp [h])

theorem execTagSide_kept {pq : Before} {s u : State} (t k : Nat) (h : Kept pq s)
    (e : execTagSide t k s = .next u) : Kept pq u := by
  simp only [execTagSide, Host.Outcome.next.injEq] at e
  subst e
  exact dispatchAt_kept _ _ _ (fun _ _ h => by simp [h]) (by simp [h])

theorem execPortPower_kept {pq : Before} {s u : State} (t k : Nat) (h : Kept pq s)
    (e : execPortPower t k s = .next u) : Kept pq u := by
  simp only [execPortPower, Host.Outcome.next.injEq] at e
  subst e
  exact dispatchThen_kept _ _ _ (fun _ _ h => by simp [h]) (by simp [h])

theorem execDrbgInstantiate_kept {pq : Before} {s u : State} (t k : Nat) (hw : HostWrites) (h : Kept pq s)
    (e : execDrbgInstantiate t k hw s = .next u) : Kept pq u := by
  simp only [execDrbgInstantiate, Host.Outcome.next.injEq] at e
  subst e
  exact dispatchAt_kept _ _ _ (fun _ _ h => by simp [h]) (by simp [h])

theorem execDrbgGenerate_kept {pq : Before} {s u : State} (t k : Nat) (hw : HostWrites) (h : Kept pq s)
    (e : execDrbgGenerate t k hw s = .next u) : Kept pq u := by
  simp only [execDrbgGenerate, Host.Outcome.next.injEq] at e
  subst e
  exact dispatchAt_kept _ _ _ (fun _ _ h => by simp [h]) (by simp [h])

theorem execDrbgReseed_kept {pq : Before} {s u : State} (t k : Nat) (hw : HostWrites) (h : Kept pq s)
    (e : execDrbgReseed t k hw s = .next u) : Kept pq u := by
  simp only [execDrbgReseed, Host.Outcome.next.injEq] at e
  subst e
  exact dispatchAt_kept _ _ _ (fun _ _ h => by simp [h]) (by simp [h])

theorem execDrbgUninstantiate_kept {pq : Before} {s u : State} (t k : Nat) (h : Kept pq s)
    (e : execDrbgUninstantiate t k s = .next u) : Kept pq u := by
  simp only [execDrbgUninstantiate, Host.Outcome.next.injEq] at e
  subst e
  exact dispatchAt_kept _ _ _ (fun _ _ h => by simp [h]) (by simp [h])

theorem execParamRead_kept {pq : Before} {s u : State} (t k : Nat) (corrected uncorrectable : List Nat) (h : Kept pq s)
    (e : execParamRead t k corrected uncorrectable s = .next u) : Kept pq u := by
  simp only [execParamRead, Host.Outcome.next.injEq] at e
  subst e
  exact dispatchAt_kept _ _ _ (fun _ _ h => by simp [h]) (by simp [h])

theorem execParamWrite_kept {pq : Before} {s u : State} (t k : Nat) (hw : HostWrites) (h : Kept pq s)
    (e : execParamWrite t k hw s = .next u) : Kept pq u := by
  simp only [execParamWrite, Host.Outcome.next.injEq] at e
  subst e
  exact dispatchThen_kept _ _ _ (fun _ _ h => by simp [h]) (by simp [h])

theorem execParamSync_kept {pq : Before} {s u : State} (t k : Nat) (h : Kept pq s)
    (e : execParamSync t k s = .next u) : Kept pq u := by
  simp only [execParamSync, Host.Outcome.next.injEq] at e
  subst e
  exact dispatchThen_kept _ _ _ (fun _ _ h => by simp [h]) (by simp [h])

theorem execHealthRead_kept {pq : Before} {s u : State} (t k : Nat) (m : Measures) (h : Kept pq s)
    (e : execHealthRead t k m s = .next u) : Kept pq u := by
  simp only [execHealthRead, Host.Outcome.next.injEq] at e
  subst e
  exact dispatchAt_kept _ _ _ (fun _ _ h => by simp [h]) (by simp [h])

theorem execEolRead_kept {pq : Before} {s u : State} (t k : Nat) (h : Kept pq s)
    (e : execEolRead t k s = .next u) : Kept pq u := by
  simp only [execEolRead, Host.Outcome.next.injEq] at e
  subst e
  exact dispatchAt_kept _ _ _ (fun _ _ h => by simp [h]) (by simp [h])

theorem execMaintStart_kept {pq : Before} {s u : State} (t k : Nat) (h : Kept pq s)
    (e : execMaintStart t k s = .next u) : Kept pq u := by
  simp only [execMaintStart, Host.Outcome.next.injEq] at e
  subst e
  exact dispatchThen_kept _ _ _ (fun _ _ h => by simp [h]) (by simp [h])

theorem execMaintStatus_kept {pq : Before} {s u : State} (t k : Nat) (h : Kept pq s)
    (e : execMaintStatus t k s = .next u) : Kept pq u := by
  simp only [execMaintStatus, Host.Outcome.next.injEq] at e
  subst e
  exact dispatchAt_kept _ _ _ (fun _ _ h => by simp [h]) (by simp [h])

theorem execPlacementReport_kept {pq : Before} {s u : State} (t k : Nat) (h : Kept pq s)
    (e : execPlacementReport t k s = .next u) : Kept pq u := by
  simp only [execPlacementReport, Host.Outcome.next.injEq] at e
  subst e
  exact dispatchAt_kept _ _ _ (fun _ _ h => by simp [h]) (by simp [h])

theorem execPoll_kept {pq : Before} {s u : State} (t : Nat) (hw : HostWrites) (h : Kept pq s)
    (e : execPoll t hw s = .next u) : Kept pq u := by
  simp only [execPoll, Host.Outcome.next.injEq] at e
  subst e
  simp (maxDischargeDepth := 20) [h]

theorem execTailWordScan_kept {pq : Before} {s u : State} (t : Nat) (hw : HostWrites) (h : Kept pq s)
    (e : execTailWordScan t hw s = .next u) : Kept pq u := by
  simp only [execTailWordScan, Host.Outcome.next.injEq] at e
  subst e
  simp (maxDischargeDepth := 20) [h]

theorem execDescriptorFetch_kept {pq : Before} {s u : State} (t : Nat) (hw : HostWrites) (h : Kept pq s)
    (e : execDescriptorFetch t hw s = .next u) : Kept pq u := by
  simp only [execDescriptorFetch, Host.Outcome.next.injEq] at e
  subst e
  simp (maxDischargeDepth := 20) [h]

theorem execFenceDispatch_kept {pq : Before} {s u : State} (t q : Nat) (h : Kept pq s)
    (e : execFenceDispatch t q s = .next u) : Kept pq u := by
  simp only [execFenceDispatch, Host.Outcome.next.injEq] at e
  subst e
  simp (maxDischargeDepth := 20) [h]

theorem execDescriptorReadFail_kept {pq : Before} {s u : State} (t : Nat) (h : Kept pq s)
    (e : execDescriptorReadFail t s = .next u) : Kept pq u := by
  simp only [execDescriptorReadFail, Host.Outcome.next.injEq] at e
  subst e
  simp (maxDischargeDepth := 20) [h]

theorem execHoistReadFail_kept {pq : Before} {s u : State} (t : Nat) (h : Kept pq s)
    (e : execHoistReadFail t s = .next u) : Kept pq u := by
  simp only [execHoistReadFail, Host.Outcome.next.injEq] at e
  subst e
  simp (maxDischargeDepth := 20) [h]

theorem execCoalescingTime_kept {pq : Before} {s u : State} (t : Nat) (q : Option Nat) (h : Kept pq s)
    (e : execCoalescingTime t q s = .next u) : Kept pq u := by
  simp only [execCoalescingTime, Host.Outcome.next.injEq] at e
  subst e
  split <;> simp [h]

theorem execHifReset_kept {pq : Before} {s u : State} (t : Nat) (linkDown : Bool) (h : Kept pq s)
    (e : execHifReset t linkDown s = .next u) : Kept pq u := by
  simp only [execHifReset, Host.Outcome.next.injEq] at e
  subst e
  simp (maxDischargeDepth := 20) [h]

theorem execLinkUp_kept {pq : Before} {s u : State} (t : Nat) (h : Kept pq s)
    (e : execLinkUp t s = .next u) : Kept pq u := by
  simp only [execLinkUp, Host.Outcome.next.injEq] at e
  subst e
  simp (maxDischargeDepth := 20) [h]

theorem execEnergyWaitTimeout_kept {pq : Before} {s u : State} (t k : Nat) (h : Kept pq s)
    (e : execEnergyWaitTimeout t k s = .next u) : Kept pq u := by
  simp only [execEnergyWaitTimeout, Host.Outcome.next.injEq] at e
  subst e
  exact endWait_kept _ _ (fun _ _ h => by simp [h]) (by simp [h])

theorem execSpliceTimeout_kept {pq : Before} {s u : State} (t k : Nat) (h : Kept pq s)
    (e : execSpliceTimeout t k s = .next u) : Kept pq u := by
  simp only [execSpliceTimeout, Host.Outcome.next.injEq] at e
  subst e
  exact endWait_kept _ _ (fun _ _ h => by simp [h]) (by simp [h])

theorem execRandomWaitTimeout_kept {pq : Before} {s u : State} (t k : Nat) (h : Kept pq s)
    (e : execRandomWaitTimeout t k s = .next u) : Kept pq u := by
  simp only [execRandomWaitTimeout, Host.Outcome.next.injEq] at e
  subst e
  exact endWait_kept _ _ (fun _ _ h => by simp [h]) (by simp [h])

theorem execFaultStorm_kept {pq : Before} {s u : State} (t : Nat) (h : Kept pq s)
    (e : execFaultStorm t s = .next u) : Kept pq u := by
  simp only [execFaultStorm, Host.Outcome.next.injEq] at e
  subst e
  simp (maxDischargeDepth := 20) [h]

theorem execCtrlSoftReset_kept {pq : Before} {s u : State} (t : Nat) (value : W32) (h : Kept pq s)
    (e : execCtrlSoftReset t value s = .next u) : Kept pq u := by
  simp only [execCtrlSoftReset, Host.Outcome.next.injEq] at e
  subst e
  simp (maxDischargeDepth := 20) [h]

theorem execStatusSetupErrorClear_kept {pq : Before} {s u : State} (t : Nat) (value : W32) (h : Kept pq s)
    (e : execStatusSetupErrorClear t value s = .next u) : Kept pq u := by
  simp only [execStatusSetupErrorClear, Host.Outcome.next.injEq] at e
  subst e
  simp (maxDischargeDepth := 20) [h]

theorem execBasePairWrite_kept {pq : Before} {s u : State} (t offset : Nat) (wide : Bool) (value : W64) (h : Kept pq s)
    (e : execBasePairWrite t offset wide value s = .next u) : Kept pq u := by
  simp only [execBasePairWrite, Host.Outcome.next.injEq] at e
  subst e
  simp (maxDischargeDepth := 20) [h]

theorem execAdminSizesWrite_kept {pq : Before} {s u : State} (t : Nat) (value : W32) (h : Kept pq s)
    (e : execAdminSizesWrite t value s = .next u) : Kept pq u := by
  simp only [execAdminSizesWrite, Host.Outcome.next.injEq] at e
  subst e
  simp (maxDischargeDepth := 20) [h]

theorem execEventRingSizeWrite_kept {pq : Before} {s u : State} (t : Nat) (value : W32) (h : Kept pq s)
    (e : execEventRingSizeWrite t value s = .next u) : Kept pq u := by
  simp only [execEventRingSizeWrite, Host.Outcome.next.injEq] at e
  subst e
  simp (maxDischargeDepth := 20) [h]

theorem execPollPeriodWrite_kept {pq : Before} {s u : State} (t : Nat) (value : W32) (h : Kept pq s)
    (e : execPollPeriodWrite t value s = .next u) : Kept pq u := by
  simp only [execPollPeriodWrite, Host.Outcome.next.injEq] at e
  subst e
  simp (maxDischargeDepth := 20) [h]

theorem execMsixCfgWrite_kept {pq : Before} {s u : State} (t : Nat) (value : W32) (h : Kept pq s)
    (e : execMsixCfgWrite t value s = .next u) : Kept pq u := by
  simp only [execMsixCfgWrite, Host.Outcome.next.injEq] at e
  subst e
  simp (maxDischargeDepth := 20) [h]

theorem execMonThreshWrite_kept {pq : Before} {s u : State} (t : Nat) (b : Bool) (value : W32) (levels : List Nat) (h : Kept pq s)
    (e : execMonThreshWrite t b value levels s = .next u) : Kept pq u := by
  simp only [execMonThreshWrite, Host.Outcome.next.injEq] at e
  subst e
  simp (maxDischargeDepth := 20) [h]

theorem execPortEnableWrite_kept {pq : Before} {s u : State} (t : Nat) (hi : Bool) (value : W32) (h : Kept pq s)
    (e : execPortEnableWrite t hi value s = .next u) : Kept pq u := by
  simp only [execPortEnableWrite, Host.Outcome.next.injEq] at e
  subst e
  simp (maxDischargeDepth := 20) [h]

theorem execHalyardCfgWrite_kept {pq : Before} {s u : State} (t : Nat) (value : W32) (h : Kept pq s)
    (e : execHalyardCfgWrite t value s = .next u) : Kept pq u := by
  simp only [execHalyardCfgWrite, Host.Outcome.next.injEq] at e
  subst e
  simp (maxDischargeDepth := 20) [h]

theorem execTimeLoRead_kept {pq : Before} {s u : State} (t requester : Nat) (wide : Bool) (h : Kept pq s)
    (e : execTimeLoRead t requester wide s = .next u) : Kept pq u := by
  simp only [execTimeLoRead, Host.Outcome.next.injEq] at e
  subst e
  simp (maxDischargeDepth := 20) [h]

theorem execTimeHiRead_kept {pq : Before} {s u : State} (t requester : Nat) (between : Bool) (h : Kept pq s)
    (e : execTimeHiRead t requester between s = .next u) : Kept pq u := by
  simp only [execTimeHiRead, Host.Outcome.next.injEq] at e
  subst e
  simp (maxDischargeDepth := 20) [h]

theorem execDebugLockUnlock_kept {pq : Before} {s u : State} (t : Nat) (value : W32) (h : Kept pq s)
    (e : execDebugLockUnlock t value s = .next u) : Kept pq u := by
  simp only [execDebugLockUnlock, Host.Outcome.next.injEq] at e
  subst e
  simp (maxDischargeDepth := 20) [h]

theorem execTapUnlock_kept {pq : Before} {s u : State} (t : Nat) (h : Kept pq s)
    (e : execTapUnlock t s = .next u) : Kept pq u := by
  simp only [execTapUnlock, Host.Outcome.next.injEq] at e
  subst e
  simp (maxDischargeDepth := 20) [h]

theorem execRegisterWrite_kept {pq : Before} {s u : State} (t offset width : Nat) (value : W64) (h : Kept pq s)
    (e : execRegisterWrite t offset width value s = .next u) : Kept pq u := by
  simp only [execRegisterWrite, Host.Outcome.next.injEq] at e
  subst e
  simp (maxDischargeDepth := 20) [h]

theorem execSlotProgramVerify_kept {pq : Before} {s u : State} (t bank : Nat) (passed : Bool) (h : Kept pq s)
    (e : execSlotProgramVerify t bank passed s = .next u) : Kept pq u := by
  simp only [execSlotProgramVerify, Host.Outcome.next.injEq] at e
  subst e
  simp (maxDischargeDepth := 20) [h]

theorem execSectorEraseDone_kept {pq : Before} {s u : State} (t bank sector : Nat) (erased : Bool) (duration : Nat) (h : Kept pq s)
    (e : execSectorEraseDone t bank sector erased duration s = .next u) : Kept pq u := by
  simp only [execSectorEraseDone, Host.Outcome.next.injEq] at e
  subst e
  simp (maxDischargeDepth := 20) [h]

theorem execPlacementWindow_kept {pq : Before} {s u : State} (t : Nat) (h : Kept pq s)
    (e : execPlacementWindow t s = .next u) : Kept pq u := by
  simp only [execPlacementWindow, Host.Outcome.next.injEq] at e
  subst e
  simp (maxDischargeDepth := 20) [h]

theorem execLooseMove_kept {pq : Before} {s u : State} (t n : Nat) (h : Kept pq s)
    (e : execLooseMove t n s = .next u) : Kept pq u := by
  simp only [execLooseMove, Host.Outcome.next.injEq] at e
  subst e
  simp (maxDischargeDepth := 20) [h]

theorem execBoundedMove_kept {pq : Before} {s u : State} (t : Nat) (h : Kept pq s)
    (e : execBoundedMove t s = .next u) : Kept pq u := by
  simp only [execBoundedMove, Host.Outcome.next.injEq] at e
  subst e
  simp (maxDischargeDepth := 20) [h]

theorem execCeilingStepUpdate_kept {pq : Before} {s u : State} (t : Nat) (h : Kept pq s)
    (e : execCeilingStepUpdate t s = .next u) : Kept pq u := by
  simp only [execCeilingStepUpdate, Host.Outcome.next.injEq] at e
  subst e
  simp (maxDischargeDepth := 20) [h]

theorem execCttScrub_kept {pq : Before} {s u : State} (t corrected : Nat) (bad : List BadWord) (h : Kept pq s)
    (e : execCttScrub t corrected bad s = .next u) : Kept pq u := by
  simp only [execCttScrub, Host.Outcome.next.injEq] at e
  subst e
  simp (maxDischargeDepth := 20) [h]

theorem execPoweredOnSecond_kept {pq : Before} {s u : State} (t : Nat) (h : Kept pq s)
    (e : execPoweredOnSecond t s = .next u) : Kept pq u := by
  simp only [execPoweredOnSecond, Host.Outcome.next.injEq] at e
  subst e
  simp (maxDischargeDepth := 20) [h]

theorem execCalendarRecord_kept {pq : Before} {s u : State} (t : Nat) (h : Kept pq s)
    (e : execCalendarRecord t s = .next u) : Kept pq u := by
  simp only [execCalendarRecord, Host.Outcome.next.injEq] at e
  subst e
  simp (maxDischargeDepth := 20) [h]

theorem execDailyCollection_kept {pq : Before} {s u : State} (t : Nat) (m : Measures) (h : Kept pq s)
    (e : execDailyCollection t m s = .next u) : Kept pq u := by
  simp only [execDailyCollection, Host.Outcome.next.injEq] at e
  subst e
  simp (maxDischargeDepth := 20) [h]

theorem execCapMeasureFirst_kept {pq : Before} {s u : State} (t : Nat) (h : Kept pq s)
    (e : execCapMeasureFirst t s = .next u) : Kept pq u := by
  simp only [execCapMeasureFirst, Host.Outcome.next.injEq] at e
  subst e
  simp (maxDischargeDepth := 20) [h]

theorem execMaintActivityStart_kept {pq : Before} {s u : State} (t : Nat) (h : Kept pq s)
    (e : execMaintActivityStart t s = .next u) : Kept pq u := by
  simp only [execMaintActivityStart, Host.Outcome.next.injEq] at e
  subst e
  simp (maxDischargeDepth := 20) [h]

theorem execBlockDrained_kept {pq : Before} {s u : State} (t : Nat) (h : Kept pq s)
    (e : execBlockDrained t s = .next u) : Kept pq u := by
  simp only [execBlockDrained, Host.Outcome.next.injEq] at e
  subst e
  simp (maxDischargeDepth := 20) [h]

theorem execBistBlockDone_kept {pq : Before} {s u : State} (t failedStep peakMw unreadable : Nat) (h : Kept pq s)
    (e : execBistBlockDone t failedStep peakMw unreadable s = .next u) : Kept pq u := by
  simp only [execBistBlockDone, Host.Outcome.next.injEq] at e
  subst e
  simp (maxDischargeDepth := 20) [h]

theorem execBistBlockDeferred_kept {pq : Before} {s u : State} (t : Nat) (h : Kept pq s)
    (e : execBistBlockDeferred t s = .next u) : Kept pq u := by
  simp only [execBistBlockDeferred, Host.Outcome.next.injEq] at e
  subst e
  simp (maxDischargeDepth := 20) [h]

theorem execCompactSlice_kept {pq : Before} {s u : State} (t : Nat) (reads : List SlotRead) (h : Kept pq s)
    (e : execCompactSlice t reads s = .next u) : Kept pq u := by
  simp only [execCompactSlice, Host.Outcome.next.injEq] at e
  subst e
  simp (maxDischargeDepth := 20) [h]

theorem execRefreshScanSector_kept {pq : Before} {s u : State} (t bank sector weak : Nat) (reads : List SlotRead) (h : Kept pq s)
    (e : execRefreshScanSector t bank sector weak reads s = .next u) : Kept pq u := by
  simp only [execRefreshScanSector, Host.Outcome.next.injEq] at e
  subst e
  simp (maxDischargeDepth := 20) [h]

theorem execCapMeasureDrawEnd_kept {pq : Before} {s u : State} (t fall step : Nat) (h : Kept pq s)
    (e : execCapMeasureDrawEnd t fall step s = .next u) : Kept pq u := by
  simp only [execCapMeasureDrawEnd, Host.Outcome.next.injEq] at e
  subst e
  simp (maxDischargeDepth := 20) [h]

theorem execCapMeasureGapEnd_kept {pq : Before} {s u : State} (t : Nat) (h : Kept pq s)
    (e : execCapMeasureGapEnd t s = .next u) : Kept pq u := by
  simp only [execCapMeasureGapEnd, Host.Outcome.next.injEq] at e
  subst e
  simp (maxDischargeDepth := 20) [h]

theorem execPowerWarn_kept {pq : Before} {s u : State} (t vin vhold : Nat) (h : Kept pq s)
    (e : execPowerWarn t vin vhold s = .next u) : Kept pq u := by
  simp only [execPowerWarn, Host.Outcome.next.injEq] at e
  subst e
  simp (maxDischargeDepth := 20) [h]

theorem execPowerHoldup_kept {pq : Before} {s u : State} (t vin vhold : Nat) (h : Kept pq s)
    (e : execPowerHoldup t vin vhold s = .next u) : Kept pq u := by
  simp only [execPowerHoldup, Host.Outcome.next.injEq] at e
  subst e
  simp (maxDischargeDepth := 20) [h]

theorem execFlushComplete_kept {pq : Before} {s u : State} (t : Nat) (h : Kept pq s)
    (e : execFlushComplete t s = .next u) : Kept pq u := by
  simp only [execFlushComplete, Host.Outcome.next.injEq] at e
  subst e
  simp (maxDischargeDepth := 20) [h]

theorem execVinWarningClear_kept {pq : Before} {s u : State} (t : Nat) (h : Kept pq s)
    (e : execVinWarningClear t s = .next u) : Kept pq u := by
  simp only [execVinWarningClear, Host.Outcome.next.injEq] at e
  subst e
  simp (maxDischargeDepth := 20) [h]

theorem execVinResume_kept {pq : Before} {s u : State} (t vhold : Nat) (h : Kept pq s)
    (e : execVinResume t vhold s = .next u) : Kept pq u := by
  simp only [execVinResume, Host.Outcome.next.injEq] at e
  subst e
  simp (maxDischargeDepth := 20) [h]

theorem execVholdReset_kept {pq : Before} {s u : State} (t : Nat) (h : Kept pq s)
    (e : execVholdReset t s = .next u) : Kept pq u := by
  simp only [execVholdReset, Host.Outcome.next.injEq] at e
  subst e
  simp (maxDischargeDepth := 20) [h]

theorem execVholdFull_kept {pq : Before} {s u : State} (t : Nat) (h : Kept pq s)
    (e : execVholdFull t s = .next u) : Kept pq u := by
  simp only [execVholdFull, Host.Outcome.next.injEq] at e
  subst e
  simp (maxDischargeDepth := 20) [h]

theorem execChargerRestart_kept {pq : Before} {s u : State} (t : Nat) (h : Kept pq s)
    (e : execChargerRestart t s = .next u) : Kept pq u := by
  simp only [execChargerRestart, Host.Outcome.next.injEq] at e
  subst e
  simp (maxDischargeDepth := 20) [h]

theorem execChargerEnable_kept {pq : Before} {s u : State} (t vin : Nat) (h : Kept pq s)
    (e : execChargerEnable t vin s = .next u) : Kept pq u := by
  simp only [execChargerEnable, Host.Outcome.next.injEq] at e
  subst e
  simp (maxDischargeDepth := 20) [h]

theorem execVinOvervoltage_kept {pq : Before} {s u : State} (t vin : Nat) (h : Kept pq s)
    (e : execVinOvervoltage t vin s = .next u) : Kept pq u := by
  simp only [execVinOvervoltage, Host.Outcome.next.injEq] at e
  subst e
  simp (maxDischargeDepth := 20) [h]

theorem execMonitorCrossing_kept {pq : Before} {s u : State} (t object level : Nat) (h : Kept pq s)
    (e : execMonitorCrossing t object level s = .next u) : Kept pq u := by
  simp only [execMonitorCrossing, Host.Outcome.next.injEq] at e
  subst e
  simp (maxDischargeDepth := 20) [h]

theorem execInternalRailReset_kept {pq : Before} {s u : State} (t object level : Nat) (h : Kept pq s)
    (e : execInternalRailReset t object level s = .next u) : Kept pq u := by
  simp only [execInternalRailReset, Host.Outcome.next.injEq] at e
  subst e
  simp (maxDischargeDepth := 20) [h]

theorem execResetN_kept {pq : Before} {s u : State} (t : Nat) (h : Kept pq s)
    (e : execResetN t s = .next u) : Kept pq u := by
  simp only [execResetN, Host.Outcome.next.injEq] at e
  subst e
  simp (maxDischargeDepth := 20) [h]

theorem execWatchdog_kept {pq : Before} {s u : State} (t pair : Nat) (h : Kept pq s)
    (e : execWatchdog t pair s = .next u) : Kept pq u := by
  simp only [execWatchdog, Host.Outcome.next.injEq] at e
  subst e
  simp (maxDischargeDepth := 20) [h]

theorem execLockstepMismatch_kept {pq : Before} {s u : State} (t pair : Nat) (h : Kept pq s)
    (e : execLockstepMismatch t pair s = .next u) : Kept pq u := by
  simp only [execLockstepMismatch, Host.Outcome.next.injEq] at e
  subst e
  simp (maxDischargeDepth := 20) [h]

theorem execReferenceLost_kept {pq : Before} {s u : State} (t : Nat) (h : Kept pq s)
    (e : execReferenceLost t s = .next u) : Kept pq u := by
  simp only [execReferenceLost, Host.Outcome.next.injEq] at e
  subst e
  simp (maxDischargeDepth := 20) [h]

theorem execReferenceReturned_kept {pq : Before} {s u : State} (t : Nat) (h : Kept pq s)
    (e : execReferenceReturned t s = .next u) : Kept pq u := by
  simp only [execReferenceReturned, Host.Outcome.next.injEq] at e
  subst e
  simp (maxDischargeDepth := 20) [h]

theorem execRelock_kept {pq : Before} {s u : State} (t : Nat) (h : Kept pq s)
    (e : execRelock t s = .next u) : Kept pq u := by
  simp only [execRelock, Host.Outcome.next.injEq] at e
  subst e
  simp (maxDischargeDepth := 20) [h]

theorem execCapRecompute_kept {pq : Before} {s u : State} (t vhold : Nat) (h : Kept pq s)
    (e : execCapRecompute t vhold s = .next u) : Kept pq u := by
  simp only [execCapRecompute, Host.Outcome.next.injEq] at e
  subst e
  simp (maxDischargeDepth := 20) [h]

theorem execStart_kept {pq : Before} {s u : State} (t vin vhold : Nat) (h : Kept pq s)
    (e : execStart t vin vhold s = .next u) : Kept pq u := by
  simp only [execStart, Host.Outcome.next.injEq] at e
  subst e
  simp (maxDischargeDepth := 20) [h]

theorem execPllLock_kept {pq : Before} {s u : State} (t : Nat) (fusesOk : Bool) (reads : List SlotRead) (h0 : pq.now = 0) (h : Kept pq s)
    (e : execPllLock t fusesOk reads s = .next u) : Kept pq u := by
  simp only [execPllLock, Host.Outcome.next.injEq] at e
  subst e
  exact lockPll_kept _ _ h0 (by simp [h])

theorem execCalibrationDone_kept {pq : Before} {s u : State} (t : Nat) (h : Kept pq s)
    (e : execCalibrationDone t s = .next u) : Kept pq u := by
  simp only [execCalibrationDone, Host.Outcome.next.injEq] at e
  subst e
  simp (maxDischargeDepth := 20) [h]

theorem execQuickCapacitanceCheck_kept {pq : Before} {s u : State} (t vhold : Nat) (h : Kept pq s)
    (e : execQuickCapacitanceCheck t vhold s = .next u) : Kept pq u := by
  simp only [execQuickCapacitanceCheck, Host.Outcome.next.injEq] at e
  subst e
  simp (maxDischargeDepth := 20) [h]

theorem execQuickCapacitanceCheckEnd_kept {pq : Before} {s u : State} (t fall step vhold : Nat) (h : Kept pq s)
    (e : execQuickCapacitanceCheckEnd t fall step vhold s = .next u) : Kept pq u := by
  simp only [execQuickCapacitanceCheckEnd, Host.Outcome.next.injEq] at e
  subst e
  simp (maxDischargeDepth := 20) [h]

theorem execJournalReplayDone_kept {pq : Before} {s u : State} (t : Nat) (reads : List SlotRead) (h : Kept pq s)
    (e : execJournalReplayDone t reads s = .next u) : Kept pq u := by
  simp only [execJournalReplayDone, Host.Outcome.next.injEq] at e
  subst e
  simp (maxDischargeDepth := 20) [h]

theorem execStartBistDone_kept {pq : Before} {s u : State} (t : Nat) (o : BistOutcome) (h : Kept pq s)
    (e : execStartBistDone t o s = .next u) : Kept pq u := by
  simp only [execStartBistDone, Host.Outcome.next.injEq] at e
  subst e
  simp (maxDischargeDepth := 20) [h]

theorem execTreeRebuildDone_kept {pq : Before} {s u : State} (t : Nat) (h : Kept pq s)
    (e : execTreeRebuildDone t s = .next u) : Kept pq u := by
  simp only [execTreeRebuildDone, Host.Outcome.next.injEq] at e
  subst e
  simp (maxDischargeDepth := 20) [h]

theorem execStartSessionOpen_kept {pq : Before} {s u : State} (t : Nat) (h : Kept pq s)
    (e : execStartSessionOpen t s = .next u) : Kept pq u := by
  simp only [execStartSessionOpen, Host.Outcome.next.injEq] at e
  subst e
  simp (maxDischargeDepth := 20) [h]

theorem execHoldupCheckTimeout_kept {pq : Before} {s u : State} (t : Nat) (h : Kept pq s)
    (e : execHoldupCheckTimeout t s = .next u) : Kept pq u := by
  simp only [execHoldupCheckTimeout, Host.Outcome.next.injEq] at e
  subst e
  simp (maxDischargeDepth := 20) [h]

theorem execHoldupCheckRepeat_kept {pq : Before} {s u : State} (t vhold : Nat) (h : Kept pq s)
    (e : execHoldupCheckRepeat t vhold s = .next u) : Kept pq u := by
  simp only [execHoldupCheckRepeat, Host.Outcome.next.injEq] at e
  subst e
  simp (maxDischargeDepth := 20) [h]

theorem execShutdownBistDone_kept {pq : Before} {s u : State} (t : Nat) (o : BistOutcome) (h : Kept pq s)
    (e : execShutdownBistDone t o s = .next u) : Kept pq u := by
  simp only [execShutdownBistDone, Host.Outcome.next.injEq] at e
  subst e
  simp (maxDischargeDepth := 20) [h]

theorem execNsuSettleDone_kept {pq : Before} {s u : State} (t : Nat) (h : Kept pq s)
    (e : execNsuSettleDone t s = .next u) : Kept pq u := by
  simp only [execNsuSettleDone, Host.Outcome.next.injEq] at e
  subst e
  simp (maxDischargeDepth := 20) [h]

theorem execSourceStartupTestDone_kept {pq : Before} {s u : State} (t src : Nat) (alarms : List Nat) (h : Kept pq s)
    (e : execSourceStartupTestDone t src alarms s = .next u) : Kept pq u := by
  simp only [execSourceStartupTestDone, Host.Outcome.next.injEq] at e
  subst e
  exact nsuThen_kept (fun _ h => by simp [h]) (by simp [h])

theorem execHealthTestAlarm_kept {pq : Before} {s u : State} (t src : Nat) (test : HealthTest) (count sample : Nat) (h : Kept pq s)
    (e : execHealthTestAlarm t src test count sample s = .next u) : Kept pq u := by
  simp only [execHealthTestAlarm, Host.Outcome.next.injEq] at e
  subst e
  exact nsuThen_kept (fun _ h => by simp [h]) (by simp [h])

theorem execAptWindowClose_kept {pq : Before} {s u : State} (t src : Nat) (h : Kept pq s)
    (e : execAptWindowClose t src s = .next u) : Kept pq u := by
  simp only [execAptWindowClose, Host.Outcome.next.injEq] at e
  subst e
  exact nsuThen_kept (fun _ h => by simp [h]) (by simp [h])

theorem execEntryWindowBoundary_kept {pq : Before} {s u : State} (t : Nat) (classS : Bool) (samples : List (Nat × Nat)) (h : Kept pq s)
    (e : execEntryWindowBoundary t classS samples s = .next u) : Kept pq u := by
  simp only [execEntryWindowBoundary, Host.Outcome.next.injEq] at e
  subst e
  exact nsuThen_kept (fun _ h => by simp [h]) (by simp [h])

theorem execSourceExchange_kept {pq : Before} {s u : State} (t : Nat) (h : Kept pq s)
    (e : execSourceExchange t s = .next u) : Kept pq u := by
  simp only [execSourceExchange, Host.Outcome.next.injEq] at e
  subst e
  exact nsuThen_kept (fun _ h => by simp [h]) (by simp [h])

theorem execInternalDrbgReseed_kept {pq : Before} {s u : State} (t i : Nat) (h : Kept pq s)
    (e : execInternalDrbgReseed t i s = .next u) : Kept pq u := by
  simp only [execInternalDrbgReseed, Host.Outcome.next.injEq] at e
  subst e
  simp (maxDischargeDepth := 20) [h]

theorem execDrbgAutoReseed_kept {pq : Before} {s u : State} (t : Nat) (h : Kept pq s)
    (e : execDrbgAutoReseed t s = .next u) : Kept pq u := by
  simp only [execDrbgAutoReseed, Host.Outcome.next.injEq] at e
  subst e
  simp (maxDischargeDepth := 20) [h]

theorem execStatusSweepDue_kept {pq : Before} {s u : State} (t p : Nat) (h : Kept pq s)
    (e : execStatusSweepDue t p s = .next u) : Kept pq u := by
  simp only [execStatusSweepDue, Host.Outcome.next.injEq] at e
  subst e
  simp (maxDischargeDepth := 20) [h]

theorem execAuthDue_kept {pq : Before} {s u : State} (t p i : Nat) (h : Kept pq s)
    (e : execAuthDue t p i s = .next u) : Kept pq u := by
  simp only [execAuthDue, Host.Outcome.next.injEq] at e
  subst e
  simp (maxDischargeDepth := 20) [h]

theorem execStatusAnswer_kept {pq : Before} {s u : State} (t p : Nat) (slots : Uplink) (presence : List Nat) (h : Kept pq s)
    (e : execStatusAnswer t p slots presence s = .next u) : Kept pq u := by
  simp only [execStatusAnswer, Host.Outcome.next.injEq] at e
  subst e
  simp (maxDischargeDepth := 20) [h]

theorem execAssignAnswer_kept {pq : Before} {s u : State} (t p : Nat) (up : Uplink) (h : Kept pq s)
    (e : execAssignAnswer t p up s = .next u) : Kept pq u := by
  simp only [execAssignAnswer, Host.Outcome.next.injEq] at e
  subst e
  simp (maxDischargeDepth := 20) [h]

theorem execSelectAnswer_kept {pq : Before} {s u : State} (t p : Nat) (up : Uplink) (h : Kept pq s)
    (e : execSelectAnswer t p up s = .next u) : Kept pq u := by
  simp only [execSelectAnswer, Host.Outcome.next.injEq] at e
  subst e
  simp (maxDischargeDepth := 20) [h]

theorem execIdentityAnswer_kept {pq : Before} {s u : State} (t p : Nat) (up : Uplink) (h : Kept pq s)
    (e : execIdentityAnswer t p up s = .next u) : Kept pq u := by
  simp only [execIdentityAnswer, Host.Outcome.next.injEq] at e
  subst e
  simp (maxDischargeDepth := 20) [h]

theorem execAuthAnswer_kept {pq : Before} {s u : State} (t p : Nat) (up : Uplink) (h : Kept pq s)
    (e : execAuthAnswer t p up s = .next u) : Kept pq u := by
  simp only [execAuthAnswer, Host.Outcome.next.injEq] at e
  subst e
  simp (maxDischargeDepth := 20) [h]

theorem execConsumeAnswer_kept {pq : Before} {s u : State} (t p : Nat) (up : Uplink) (h : Kept pq s)
    (e : execConsumeAnswer t p up s = .next u) : Kept pq u := by
  simp only [execConsumeAnswer, Host.Outcome.next.injEq] at e
  subst e
  simp (maxDischargeDepth := 20) [h]

theorem execReadLimitAnswer_kept {pq : Before} {s u : State} (t p : Nat) (up : Uplink) (h : Kept pq s)
    (e : execReadLimitAnswer t p up s = .next u) : Kept pq u := by
  simp only [execReadLimitAnswer, Host.Outcome.next.injEq] at e
  subst e
  simp (maxDischargeDepth := 20) [h]

theorem execTakeRetry_kept {pq : Before} {s u : State} (t p : Nat) (h : Kept pq s)
    (e : execTakeRetry t p s = .next u) : Kept pq u := by
  simp only [execTakeRetry, Host.Outcome.next.injEq] at e
  subst e
  simp (maxDischargeDepth := 20) [h]

theorem execSweepRepeat_kept {pq : Before} {s u : State} (t p : Nat) (h : Kept pq s)
    (e : execSweepRepeat t p s = .next u) : Kept pq u := by
  simp only [execSweepRepeat, Host.Outcome.next.injEq] at e
  subst e
  simp (maxDischargeDepth := 20) [h]

theorem execStaleSlateRetry_kept {pq : Before} {s u : State} (t p : Nat) (h : Kept pq s)
    (e : execStaleSlateRetry t p s = .next u) : Kept pq u := by
  simp only [execStaleSlateRetry, Host.Outcome.next.injEq] at e
  subst e
  simp (maxDischargeDepth := 20) [h]

theorem execPortCharged_kept {pq : Before} {s u : State} (t p : Nat) (h : Kept pq s)
    (e : execPortCharged t p s = .next u) : Kept pq u := by
  simp only [execPortCharged, Host.Outcome.next.injEq] at e
  subst e
  simp (maxDischargeDepth := 20) [h]

theorem execPortFaultTimer_kept {pq : Before} {s u : State} (t p : Nat) (h : Kept pq s)
    (e : execPortFaultTimer t p s = .next u) : Kept pq u := by
  simp only [execPortFaultTimer, Host.Outcome.next.injEq] at e
  subst e
  simp (maxDischargeDepth := 20) [h]

theorem execOvercurrent_kept {pq : Before} {s u : State} (t p : Nat) (h : Kept pq s)
    (e : execOvercurrent t p s = .next u) : Kept pq u := by
  simp only [execOvercurrent, Host.Outcome.next.injEq] at e
  subst e
  simp (maxDischargeDepth := 20) [h]

/-- Every command but PLL_LOCK, which begins device time at 0, keeps what `Kept` names. -/
theorem exec_kept {pq : Before} {s u : State} (c : Instr)
    (p : (∀ at_ fuses reads, c ≠ .pllLock at_ fuses reads) ∨ pq.now = 0) (h : Kept pq s) (e : exec c s = .next u) : Kept pq u := by
  cases c with
  | qpCreate _ _ => exact execQpCreate_kept _ _ h e
  | qpDelete _ _ => exact execQpDelete_kept _ _ h e
  | identify _ _ => exact execIdentify_kept _ _ h e
  | shutdownPrepare _ _ => exact execShutdownPrepare_kept _ _ h e
  | timeSet _ _ => exact execTimeSet_kept _ _ h e
  | fwStage _ _ _ => exact execFwStage_kept _ _ _ h e
  | fwActivate _ _ _ => exact execFwActivate_kept _ _ _ h e
  | familyKeyLoad _ _ _ => exact execFamilyKeyLoad_kept _ _ _ h e
  | domainSet _ _ => exact execDomainSet_kept _ _ h e
  | unknownOpcode _ _ => exact execUnknownOpcode_kept _ _ h e
  | ctrCreate _ _ => exact execCtrCreate_kept _ _ h e
  | ctrRead _ _ _ => exact execCtrRead_kept _ _ _ h e
  | ctrAdvance _ _ _ => exact execCtrAdvance_kept _ _ _ h e
  | ctrReserve _ _ _ => exact execCtrReserve_kept _ _ _ h e
  | ctrRaise _ _ _ => exact execCtrRaise_kept _ _ _ h e
  | ctrClose _ _ => exact execCtrClose_kept _ _ h e
  | ctrReclass _ _ => exact execCtrReclass_kept _ _ h e
  | ctrGroupRead _ _ _ => exact execCtrGroupRead_kept _ _ _ h e
  | kidAlloc _ _ => exact execKidAlloc_kept _ _ h e
  | kidSpliceBegin _ _ => exact execKidSpliceBegin_kept _ _ h e
  | kidFlushed _ _ => exact execKidFlushed_kept _ _ h e
  | kidSpliceCommit _ _ => exact execKidSpliceCommit_kept _ _ h e
  | kidRead _ _ => exact execKidRead_kept _ _ h e
  | faultReport _ _ => exact execFaultReport_kept _ _ h e
  | hySlate _ _ => exact execHySlate_kept _ _ h e
  | tagAuth _ _ => exact execTagAuth_kept _ _ h e
  | tagConsume _ _ => exact execTagConsume_kept _ _ h e
  | tagRead _ _ => exact execTagRead_kept _ _ h e
  | tagSide _ _ => exact execTagSide_kept _ _ h e
  | portPower _ _ => exact execPortPower_kept _ _ h e
  | drbgInstantiate _ _ _ => exact execDrbgInstantiate_kept _ _ _ h e
  | drbgGenerate _ _ _ => exact execDrbgGenerate_kept _ _ _ h e
  | drbgReseed _ _ _ => exact execDrbgReseed_kept _ _ _ h e
  | drbgUninstantiate _ _ => exact execDrbgUninstantiate_kept _ _ h e
  | paramRead _ _ _ _ => exact execParamRead_kept _ _ _ _ h e
  | paramWrite _ _ _ => exact execParamWrite_kept _ _ _ h e
  | paramSync _ _ => exact execParamSync_kept _ _ h e
  | healthRead _ _ _ => exact execHealthRead_kept _ _ _ h e
  | eolRead _ _ => exact execEolRead_kept _ _ h e
  | maintStart _ _ => exact execMaintStart_kept _ _ h e
  | maintStatus _ _ => exact execMaintStatus_kept _ _ h e
  | placementReport _ _ => exact execPlacementReport_kept _ _ h e
  | poll _ _ => exact execPoll_kept _ _ h e
  | tailWordScan _ _ => exact execTailWordScan_kept _ _ h e
  | descriptorFetch _ _ => exact execDescriptorFetch_kept _ _ h e
  | fenceDispatch _ _ => exact execFenceDispatch_kept _ _ h e
  | descriptorReadFail _ => exact execDescriptorReadFail_kept _ h e
  | hoistReadFail _ => exact execHoistReadFail_kept _ h e
  | coalescingTime _ _ => exact execCoalescingTime_kept _ _ h e
  | hifReset _ _ => exact execHifReset_kept _ _ h e
  | energyWaitTimeout _ _ => exact execEnergyWaitTimeout_kept _ _ h e
  | capRecompute _ _ => exact execCapRecompute_kept _ _ h e
  | spliceTimeout _ _ => exact execSpliceTimeout_kept _ _ h e
  | faultStorm _ => exact execFaultStorm_kept _ h e
  | randomWaitTimeout _ _ => exact execRandomWaitTimeout_kept _ _ h e
  | slotProgramVerify _ _ _ => exact execSlotProgramVerify_kept _ _ _ h e
  | sectorEraseDone _ _ _ _ _ => exact execSectorEraseDone_kept _ _ _ _ _ h e
  | placementWindow _ => exact execPlacementWindow_kept _ h e
  | looseMove _ _ => exact execLooseMove_kept _ _ h e
  | boundedMove _ => exact execBoundedMove_kept _ h e
  | ceilingStepUpdate _ => exact execCeilingStepUpdate_kept _ h e
  | cttScrub _ _ _ => exact execCttScrub_kept _ _ _ h e
  | poweredOnSecond _ => exact execPoweredOnSecond_kept _ h e
  | calendarRecord _ => exact execCalendarRecord_kept _ h e
  | dailyCollection _ _ => exact execDailyCollection_kept _ _ h e
  | capMeasureFirst _ => exact execCapMeasureFirst_kept _ h e
  | maintActivityStart _ => exact execMaintActivityStart_kept _ h e
  | blockDrained _ => exact execBlockDrained_kept _ h e
  | bistBlockDone _ _ _ _ => exact execBistBlockDone_kept _ _ _ _ h e
  | bistBlockDeferred _ => exact execBistBlockDeferred_kept _ h e
  | compactSlice _ _ => exact execCompactSlice_kept _ _ h e
  | refreshScanSector _ _ _ _ _ => exact execRefreshScanSector_kept _ _ _ _ _ h e
  | capMeasureDrawEnd _ _ _ => exact execCapMeasureDrawEnd_kept _ _ _ h e
  | capMeasureGapEnd _ => exact execCapMeasureGapEnd_kept _ h e
  | powerWarn _ _ _ => exact execPowerWarn_kept _ _ _ h e
  | powerHoldup _ _ _ => exact execPowerHoldup_kept _ _ _ h e
  | flushComplete _ => exact execFlushComplete_kept _ h e
  | vinWarningClear _ => exact execVinWarningClear_kept _ h e
  | vinResume _ _ => exact execVinResume_kept _ _ h e
  | vholdReset _ => exact execVholdReset_kept _ h e
  | vholdFull _ => exact execVholdFull_kept _ h e
  | chargerRestart _ => exact execChargerRestart_kept _ h e
  | chargerEnable _ _ => exact execChargerEnable_kept _ _ h e
  | vinOvervoltage _ _ => exact execVinOvervoltage_kept _ _ h e
  | monitorCrossing _ _ _ => exact execMonitorCrossing_kept _ _ _ h e
  | internalRailReset _ _ _ => exact execInternalRailReset_kept _ _ _ h e
  | resetN _ => exact execResetN_kept _ h e
  | watchdog _ _ => exact execWatchdog_kept _ _ h e
  | lockstepMismatch _ _ => exact execLockstepMismatch_kept _ _ h e
  | referenceLost _ => exact execReferenceLost_kept _ h e
  | referenceReturned _ => exact execReferenceReturned_kept _ h e
  | relock _ => exact execRelock_kept _ h e
  | start _ _ _ => exact execStart_kept _ _ _ h e
  | pllLock _ _ _ => exact execPllLock_kept _ _ _ (p.elim (fun q => absurd rfl (q _ _ _)) id) h e
  | calibrationDone _ => exact execCalibrationDone_kept _ h e
  | quickCapacitanceCheck _ _ => exact execQuickCapacitanceCheck_kept _ _ h e
  | quickCapacitanceCheckEnd _ _ _ _ => exact execQuickCapacitanceCheckEnd_kept _ _ _ _ h e
  | journalReplayDone _ _ => exact execJournalReplayDone_kept _ _ h e
  | startBistDone _ _ => exact execStartBistDone_kept _ _ h e
  | treeRebuildDone _ => exact execTreeRebuildDone_kept _ h e
  | startSessionOpen _ => exact execStartSessionOpen_kept _ h e
  | holdupCheckTimeout _ => exact execHoldupCheckTimeout_kept _ h e
  | holdupCheckRepeat _ _ => exact execHoldupCheckRepeat_kept _ _ h e
  | nsuSettleDone _ => exact execNsuSettleDone_kept _ h e
  | sourceStartupTestDone _ _ _ => exact execSourceStartupTestDone_kept _ _ _ h e
  | healthTestAlarm _ _ _ _ _ => exact execHealthTestAlarm_kept _ _ _ _ _ h e
  | aptWindowClose _ _ => exact execAptWindowClose_kept _ _ h e
  | entryWindowBoundary _ _ _ => exact execEntryWindowBoundary_kept _ _ _ h e
  | sourceExchange _ => exact execSourceExchange_kept _ h e
  | internalDrbgReseed _ _ => exact execInternalDrbgReseed_kept _ _ h e
  | drbgAutoReseed _ => exact execDrbgAutoReseed_kept _ h e
  | statusSweepDue _ _ => exact execStatusSweepDue_kept _ _ h e
  | authDue _ _ _ => exact execAuthDue_kept _ _ _ h e
  | statusAnswer _ _ _ _ => exact execStatusAnswer_kept _ _ _ _ h e
  | assignAnswer _ _ _ => exact execAssignAnswer_kept _ _ _ h e
  | selectAnswer _ _ _ => exact execSelectAnswer_kept _ _ _ h e
  | identityAnswer _ _ _ => exact execIdentityAnswer_kept _ _ _ h e
  | authAnswer _ _ _ => exact execAuthAnswer_kept _ _ _ h e
  | consumeAnswer _ _ _ => exact execConsumeAnswer_kept _ _ _ h e
  | readLimitAnswer _ _ _ => exact execReadLimitAnswer_kept _ _ _ h e
  | takeRetry _ _ => exact execTakeRetry_kept _ _ h e
  | sweepRepeat _ _ => exact execSweepRepeat_kept _ _ h e
  | staleSlateRetry _ _ => exact execStaleSlateRetry_kept _ _ h e
  | portCharged _ _ => exact execPortCharged_kept _ _ h e
  | portFaultTimer _ _ => exact execPortFaultTimer_kept _ _ h e
  | overcurrent _ _ => exact execOvercurrent_kept _ _ h e
  | shutdownBistDone _ _ => exact execShutdownBistDone_kept _ _ h e
  | ctrlSoftReset _ _ => exact execCtrlSoftReset_kept _ _ h e
  | statusSetupErrorClear _ _ => exact execStatusSetupErrorClear_kept _ _ h e
  | basePairWrite _ _ _ _ => exact execBasePairWrite_kept _ _ _ _ h e
  | adminSizesWrite _ _ => exact execAdminSizesWrite_kept _ _ h e
  | eventRingSizeWrite _ _ => exact execEventRingSizeWrite_kept _ _ h e
  | pollPeriodWrite _ _ => exact execPollPeriodWrite_kept _ _ h e
  | msixCfgWrite _ _ => exact execMsixCfgWrite_kept _ _ h e
  | monThreshWrite _ _ _ _ => exact execMonThreshWrite_kept _ _ _ _ h e
  | portEnableWrite _ _ _ => exact execPortEnableWrite_kept _ _ _ h e
  | halyardCfgWrite _ _ => exact execHalyardCfgWrite_kept _ _ h e
  | timeLoRead _ _ _ => exact execTimeLoRead_kept _ _ _ h e
  | timeHiRead _ _ _ => exact execTimeHiRead_kept _ _ _ h e
  | debugLockUnlock _ _ => exact execDebugLockUnlock_kept _ _ h e
  | tapUnlock _ => exact execTapUnlock_kept _ h e
  | registerWrite _ _ _ _ => exact execRegisterWrite_kept _ _ _ _ h e
  | linkUp _ => exact execLinkUp_kept _ h e

end Sys2Proof.Machine
end

