-- ==== Sys2Proof/Laws/Table.lean ====
section
/-!
SUPPORT. What the operations on owed sets, ceilings and groups leave of the table of counters, and what a rise makes of it.
-/
namespace Sys2Proof.Machine

@[simp] theorem owe_ctr (w : What) (s : State) : (owe w s).ctr = s.ctr := by
  unfold owe; (repeat' split) <;> rfl

@[simp] theorem oweBounded_ctr (n : Nat) (s : State) : (oweBounded n s).ctr = s.ctr := by
  unfold oweBounded; split <;> rfl

@[simp] theorem releaseBounded_ctr (n : Nat) (s : State) : (releaseBounded n s).ctr = s.ctr := rfl

@[simp] theorem queueWrite_ctr (rank : Nat) (w : What) (s : State) : (queueWrite rank w s).ctr = s.ctr := by
  unfold queueWrite; split <;> rfl

@[simp] theorem modGroup_leaves (g : Nat) (f : Group → Group) (s : State) : (modGroup g f s).ctr.leaves = s.ctr.leaves := rfl

@[simp] theorem refreshNodes_leaves (g : Nat) (s : State) : (refreshNodes g s).ctr.leaves = s.ctr.leaves := rfl

@[simp] theorem setLive_leaves (g live : Nat) (s : State) : (setLive g live s).ctr.leaves = s.ctr.leaves := rfl

@[simp] theorem recountLive_leaves (g : Nat) (s : State) : (recountLive g s).ctr.leaves = s.ctr.leaves := by
  simp only [recountLive, setLive_leaves]; split <;> rfl

@[simp] theorem queueCeiling_leaves (g v : Nat) (s : State) : (queueCeiling g v s).ctr.leaves = s.ctr.leaves := by
  unfold queueCeiling; simp only; (repeat' split) <;> simp

@[simp] theorem scheduleCeiling_leaves (g : Nat) (s : State) : (scheduleCeiling g s).ctr.leaves = s.ctr.leaves := by
  unfold scheduleCeiling; (repeat' split) <;> simp

@[simp] theorem oweEach_ctr (l : List Nat) (s : State) : (l.foldl (fun s n => oweBounded n s) s).ctr = s.ctr := by
  induction l generalizing s with
  | nil => rfl
  | cons n l ih => rw [List.foldl_cons, ih, oweBounded_ctr]

/-- A rise changes the counter's row, its shadow and its window's count, and no other row. -/
theorem raiseLeaf_leaves (l : Leaf) (v : Nat) (s : State) :
    (raiseLeaf l v s).ctr.leaves = modWhere (fun x => x.num == l.num) (fun x => { x with
      v := BitVec.ofNat 64 v, windowRise := x.windowRise + (v - x.v.toNat)
      shadow := if x.cls = .strict then BitVec.ofNat 64 v else x.shadow }) s.ctr.leaves := by
  unfold raiseLeaf
  simp only [scheduleCeiling_leaves]
  (repeat' split) <;> simp <;> rfl

/-! ### The next number and the closed numbers -/

@[simp] theorem modGroup_nextNumber (g : Nat) (f : Group → Group) (s : State) : (modGroup g f s).ctr.nextNumber = s.ctr.nextNumber := rfl

@[simp] theorem modGroup_closedOrder (g : Nat) (f : Group → Group) (s : State) : (modGroup g f s).ctr.closedOrder = s.ctr.closedOrder := rfl

@[simp] theorem refreshNodes_nextNumber (g : Nat) (s : State) : (refreshNodes g s).ctr.nextNumber = s.ctr.nextNumber := rfl

@[simp] theorem refreshNodes_closedOrder (g : Nat) (s : State) : (refreshNodes g s).ctr.closedOrder = s.ctr.closedOrder := rfl

@[simp] theorem setLive_nextNumber (g live : Nat) (s : State) : (setLive g live s).ctr.nextNumber = s.ctr.nextNumber := rfl

@[simp] theorem setLive_closedOrder (g live : Nat) (s : State) : (setLive g live s).ctr.closedOrder = s.ctr.closedOrder := rfl

@[simp] theorem modLeaf_nextNumber (n : Nat) (f : Leaf → Leaf) (s : State) : (modLeaf n f s).ctr.nextNumber = s.ctr.nextNumber := rfl

@[simp] theorem modLeaf_closedOrder (n : Nat) (f : Leaf → Leaf) (s : State) : (modLeaf n f s).ctr.closedOrder = s.ctr.closedOrder := rfl

@[simp] theorem queueCeiling_nextNumber (g v : Nat) (s : State) : (queueCeiling g v s).ctr.nextNumber = s.ctr.nextNumber := by
  unfold queueCeiling; simp only; (repeat' split) <;> simp

@[simp] theorem queueCeiling_closedOrder (g v : Nat) (s : State) : (queueCeiling g v s).ctr.closedOrder = s.ctr.closedOrder := by
  unfold queueCeiling; simp only; (repeat' split) <;> simp

@[simp] theorem scheduleCeiling_nextNumber (g : Nat) (s : State) : (scheduleCeiling g s).ctr.nextNumber = s.ctr.nextNumber := by
  unfold scheduleCeiling; (repeat' split) <;> simp

@[simp] theorem scheduleCeiling_closedOrder (g : Nat) (s : State) : (scheduleCeiling g s).ctr.closedOrder = s.ctr.closedOrder := by
  unfold scheduleCeiling; (repeat' split) <;> simp

@[simp] theorem openGroup_leaves (g domain : Nat) (key : W32) (s : State) : (openGroup g domain key s).ctr.leaves = s.ctr.leaves := by
  simp only [openGroup, logDecision_ctr]

@[simp] theorem openGroup_nextNumber (g domain : Nat) (key : W32) (s : State) : (openGroup g domain key s).ctr.nextNumber = s.ctr.nextNumber := by
  simp only [openGroup, logDecision_ctr]

@[simp] theorem openGroup_closedOrder (g domain : Nat) (key : W32) (s : State) : (openGroup g domain key s).ctr.closedOrder = s.ctr.closedOrder := by
  simp only [openGroup, logDecision_ctr]

theorem raiseLeaf_next (l : Leaf) (v : Nat) (s : State) :
    (raiseLeaf l v s).ctr.nextNumber = s.ctr.nextNumber ∧ (raiseLeaf l v s).ctr.closedOrder = s.ctr.closedOrder := by
  unfold raiseLeaf
  simp only [scheduleCeiling_nextNumber, scheduleCeiling_closedOrder]
  (repeat' split) <;> simp

end Sys2Proof.Machine
end

