-- ==== Sys2Proof/Laws/Rise.lean ====
section
/-!
SUPPORT. What follows at once from a change (background), and every operation on an object that finds no bad word, lowers no counter:
one lemma per function that it uses.
-/
namespace Sys2Proof.Machine

/-- The table of counters is in ascending order, the next number is unused, closed numbers are in the table, and every counter of `k`
is in it with its value or a higher one, or its number has been taken by a later incarnation. -/
def RoseOn (k leaves : List Leaf) (next : Nat) (closed : List Nat) : Prop :=
  leaves.Pairwise (fun a b => a.num < b.num) ∧ (∀ l ∈ leaves, l.num ≠ next) ∧ (∀ n ∈ closed, ∃ l ∈ leaves, l.num = n) ∧
    ∀ l ∈ k, ∃ m ∈ leaves, m.num = l.num ∧ (l.inc < m.inc ∨ m.inc = l.inc ∧ l.v ≤ m.v)

/-- The same of a state's table. -/
def Rose (k : List Leaf) (s : State) : Prop := RoseOn k s.ctr.leaves s.ctr.nextNumber s.ctr.closedOrder

@[simp] theorem rose_mk (k p m a b c d e f g h i j l n o r t u v w x y z q) :
    Rose k ⟨p, m, a, b, c, d, e, f, g, h, i, j, l, n, o, r, t, u, v, w, x, y, z, q⟩ =
      RoseOn k f.leaves f.nextNumber f.closedOrder :=
  propext Iff.rfl

@[simp] theorem roseOn_proj (k : List Leaf) (s : State) :
    RoseOn k s.ctr.leaves s.ctr.nextNumber s.ctr.closedOrder = Rose k s := propext Iff.rfl

/-- What a rise of the table needs of its rows. -/
theorem roseOn_map {k leaves : List Leaf} {next : Nat} {closed : List Nat} (g : Leaf → Leaf)
    (hg : ∀ l ∈ leaves, (g l).num = l.num ∧ (g l).inc = l.inc ∧ l.v ≤ (g l).v) (h : RoseOn k leaves next closed) :
    RoseOn k (leaves.map g) next closed := by
  obtain ⟨h1, h2, h3, h4⟩ := h
  refine ⟨?_, ?_, ?_, ?_⟩
  · rw [List.pairwise_map]
    exact h1.imp_of_mem fun {a b} ha hb hab => by rw [(hg a ha).1, (hg b hb).1]; exact hab
  · intro l hl
    obtain ⟨x, hx, rfl⟩ := List.mem_map.mp hl
    rw [(hg x hx).1]; exact h2 x hx
  · intro n hn
    obtain ⟨x, hx, e⟩ := h3 n hn
    exact ⟨g x, List.mem_map_of_mem hx, (hg x hx).1.trans e⟩
  · intro l hl
    obtain ⟨m, hm, e, hi⟩ := h4 l hl
    obtain ⟨g1, g2, g3⟩ := hg m hm
    refine ⟨g m, List.mem_map_of_mem hm, g1.trans e, ?_⟩
    rcases hi with hi | ⟨hi, hv⟩
    · exact .inl (g2 ▸ hi)
    · exact .inr ⟨g2.trans hi, BitVec.le_trans hv g3⟩

/-- Rows of one number are one row. -/
theorem row_unique {leaves : List Leaf} (h : leaves.Pairwise fun a b => a.num < b.num) {x y : Leaf} (hx : x ∈ leaves)
    (hy : y ∈ leaves) (e : x.num = y.num) : x = y := by
  induction h with
  | nil => simp at hx
  | cons ha _ ih =>
    rcases List.mem_cons.mp hx with h1 | h1 <;> rcases List.mem_cons.mp hy with h2 | h2
    · rw [h1, h2]
    · exact absurd e (Nat.ne_of_lt (h1 ▸ ha y h2))
    · exact absurd e.symm (Nat.ne_of_lt (h2 ▸ ha x h1))
    · exact ih h1 h2

theorem mem_insertBy {α : Type} (num : α → Nat) (x y : α) (l : List α) : y ∈ insertBy num x l ↔ y = x ∨ y ∈ l := by
  induction l with
  | nil => simp [insertBy]
  | cons z l ih =>
    unfold insertBy
    split
    · simp
    · simp only [List.mem_cons, ih]
      constructor
      · rintro (h | h | h) <;> simp [h]
      · rintro (h | h | h) <;> simp [h]

theorem pairwise_insertBy {α : Type} (num : α → Nat) (x : α) {l : List α} (h : l.Pairwise fun a b => num a < num b)
    (hx : ∀ y ∈ l, num y ≠ num x) : (insertBy num x l).Pairwise fun a b => num a < num b := by
  induction l with
  | nil => simp [insertBy]
  | cons z l ih =>
    obtain ⟨h1, h2⟩ := List.pairwise_cons.mp h
    unfold insertBy
    split
    · rename_i hlt
      refine List.pairwise_cons.mpr ⟨?_, h⟩
      intro y hy
      rcases List.mem_cons.mp hy with rfl | hy
      · exact hlt
      · exact Nat.lt_trans hlt (h1 y hy)
    · rename_i hge
      have hz := hx z (List.mem_cons_self)
      refine List.pairwise_cons.mpr ⟨?_, ih h2 fun y hy => hx y (List.mem_cons_of_mem _ hy)⟩
      intro y hy
      rcases (mem_insertBy num x y l).mp hy with rfl | hy
      · omega
      · exact h1 y hy

/-- Past every row from `n` on, the count stands. -/
theorem unused_stands (l : List Leaf) (n : Nat) (h : ∀ x ∈ l, n < x.num) :
    l.foldl (fun n x => if x.num = n then n + 1 else n) n = n := by
  induction l with
  | nil => rfl
  | cons x l ih =>
    have := h x List.mem_cons_self
    rw [List.foldl_cons, if_neg (by omega)]
    exact ih fun y hy => h y (List.mem_cons_of_mem _ hy)

/-- The number found is not below the one asked for, and no row has it. -/
theorem unused_spec (l : List Leaf) (n : Nat) (h : l.Pairwise fun a b => a.num < b.num) :
    n ≤ l.foldl (fun n x => if x.num = n then n + 1 else n) n ∧
      ∀ x ∈ l, x.num ≠ l.foldl (fun n x => if x.num = n then n + 1 else n) n := by
  induction l generalizing n with
  | nil => simp
  | cons y l ih =>
    obtain ⟨h1, h2⟩ := List.pairwise_cons.mp h
    rw [List.foldl_cons]
    by_cases hy : y.num = n
    · rw [if_pos hy]
      obtain ⟨i1, i2⟩ := ih (n + 1) h2
      refine ⟨by omega, fun x hx => ?_⟩
      rcases List.mem_cons.mp hx with rfl | hx
      · omega
      · exact i2 x hx
    · rw [if_neg hy]
      obtain ⟨i1, i2⟩ := ih n h2
      refine ⟨i1, fun x hx => ?_⟩
      rcases List.mem_cons.mp hx with rfl | hx
      · by_cases hlt : x.num < n
        · omega
        · rw [unused_stands l n fun z hz => by have := h1 z hz; omega]; exact hy
      · exact i2 x hx

@[simp] theorem rose_ite (k : List Leaf) (c : Prop) [Decidable c] (s t : State) :
    Rose k (if c then s else t) = if c then Rose k s else Rose k t := by split <;> rfl

/-- A fold of an effect that lowers none lowers none. -/
theorem rose_foldl {α : Type} {k : List Leaf} {f : State → α → State} (hf : ∀ s x, Rose k s → Rose k (f s x))
    (l : List α) {s : State} (h : Rose k s) : Rose k (l.foldl f s) := by
  induction l generalizing s with
  | nil => exact h
  | cons x l ih => exact ih (hf s x h)

/-- Fewer closed numbers. -/
theorem roseOn_closed {k leaves : List Leaf} {next : Nat} {closed : List Nat} (p : Nat → Bool) (h : RoseOn k leaves next closed) :
    RoseOn k leaves next (closed.filter p) :=
  ⟨h.1, h.2.1, fun n hn => h.2.2.1 n (List.mem_filter.mp hn).1, h.2.2.2⟩

/-- A new counter in the place of its number. -/
theorem roseOn_insert {k leaves : List Leaf} {next : Nat} {closed : List Nat} (x : Leaf) (hn : x.num ≠ next)
    (hi : ∀ l ∈ leaves, l.num = x.num → l.inc < x.inc) (h : RoseOn k leaves next closed) :
    RoseOn k (insertBy (fun y => y.num) x (leaves.filter fun y => y.num != x.num)) next closed := by
  obtain ⟨h1, h2, h3, h4⟩ := h
  have stays : ∀ y ∈ leaves, y.num ≠ x.num → y ∈ insertBy (fun y => y.num) x (leaves.filter fun y => y.num != x.num) :=
    fun y hy e => (mem_insertBy _ _ _ _).mpr (.inr (List.mem_filter.mpr ⟨hy, by simpa using e⟩))
  have new : x ∈ insertBy (fun y => y.num) x (leaves.filter fun y => y.num != x.num) := (mem_insertBy _ _ _ _).mpr (.inl rfl)
  refine ⟨pairwise_insertBy _ _ (h1.filter _) fun y hy => by simpa using (List.mem_filter.mp hy).2, ?_, ?_, ?_⟩
  · intro l hl
    rcases (mem_insertBy _ _ _ _).mp hl with rfl | hl
    · exact hn
    · exact h2 l (List.mem_filter.mp hl).1
  · intro n hc
    obtain ⟨y, hy, e⟩ := h3 n hc
    by_cases hx : y.num = x.num
    · exact ⟨x, new, hx.symm.trans e⟩
    · exact ⟨y, stays y hy hx, e⟩
  · intro l hl
    obtain ⟨m, hm, e, hv⟩ := h4 l hl
    by_cases hx : m.num = x.num
    · refine ⟨x, new, hx.symm.trans e, .inl ?_⟩
      have := hi m hm hx
      rcases hv with hv | ⟨hv, -⟩ <;> omega
    · exact ⟨m, stays m hm hx, e, hv⟩

/-- The counter an operation may act on is in the table. -/
theorem openTarget_mem {op : Op} {s : State} {l : Leaf} (e : openTarget op s = .ok l) : l ∈ s.ctr.leaves := by
  unfold openTarget byHandle at e
  split at e
  · simp at e
  · rename_i x hx
    split at hx
    · rename_i y hy
      split at hx
      · simp only [Option.some.injEq] at hx
        subst hx
        have := List.mem_of_find?_eq_some hy
        (repeat' split at e) <;> simp only [Except.ok.injEq, reduceCtorEq] at e
        exact e ▸ this
      · simp at hx
    · simp at hx

@[simp] theorem writeHost_rose {pq : List Leaf} {s : State} (a : Nat) (bs : List Byte) (h : Rose pq s) :
    Rose pq (writeHost a bs s) := h

@[simp] theorem logDecision_rose {pq : List Leaf} {s : State} (code object from_ to_ value : Nat) (h : Rose pq s) :
    Rose pq (logDecision code object from_ to_ value s) := by
  simp (maxDischargeDepth := 20) [logDecision, h]

@[simp] theorem sendMsix_rose {pq : List Leaf} {s : State} (vector : Nat) (h : Rose pq s) :
    Rose pq (sendMsix vector s) := by
  simp (maxDischargeDepth := 20) [sendMsix, h]

@[simp] theorem signalEvent_rose {pq : List Leaf} {s : State} (h : Rose pq s) :
    Rose pq (signalEvent s) := by
  simp (maxDischargeDepth := 20) [signalEvent, h]

@[simp] theorem writeEvent_rose {pq : List Leaf} {s : State} (e : Event) (h : Rose pq s) :
    Rose pq (writeEvent e s) := by
  unfold writeEvent
  split <;> simp (maxDischargeDepth := 20) [h]

@[simp] theorem loseEvent_rose {pq : List Leaf} {s : State} (e : Event) (h : Rose pq s) :
    Rose pq (loseEvent e s) := by
  simp (maxDischargeDepth := 20) [loseEvent, h]

@[simp] theorem deliverEvent_rose {pq : List Leaf} {s : State} (e : Event) (h : Rose pq s) :
    Rose pq (deliverEvent e s) := by
  simp (maxDischargeDepth := 20) [deliverEvent, h]

@[simp] theorem postEvent_rose {pq : List Leaf} {s : State} (name : EventName) (object : Nat) (details : List Byte) (h : Rose pq s) :
    Rose pq (postEvent name object details s) := by
  simp (maxDischargeDepth := 20) [postEvent, h]

@[simp] theorem drainBuffer_rose {pq : List Leaf} {s : State} (n : Nat) (h : Rose pq s) : Rose pq (drainBuffer n s) := by
  induction n generalizing s with
  | zero => exact h
  | succ n ih => unfold drainBuffer; (repeat' split) <;> simp (maxDischargeDepth := 20) [ih, h]

@[simp] theorem writeEventsLost_rose {pq : List Leaf} {s : State} (h : Rose pq s) :
    Rose pq (writeEventsLost s) := by
  simp (maxDischargeDepth := 20) [writeEventsLost, h]

@[simp] theorem drainEvents_rose {pq : List Leaf} {s : State} (h : Rose pq s) :
    Rose pq (drainEvents s) := by
  simp (maxDischargeDepth := 20) [drainEvents, h]

@[simp] theorem withReady_rose {pq : List Leaf} {s : State} {f : State → State} (hf : ∀ s, Rose pq s → Rose pq (f s))
    (h : Rose pq s) : Rose pq (withReady f s) := by
  simp [withReady, hf s h]

@[simp] theorem setReady_rose {pq : List Leaf} {s : State} (f : Ready → Ready) (h : Rose pq s) : Rose pq (setReady f s) :=
  withReady_rose (fun s h => by simp [h]) h

@[simp] theorem modQp_rose {pq : List Leaf} {s : State} (n : Nat) (f : Qp → Qp) (h : Rose pq s) :
    Rose pq (modQp n f s) := by
  simp (maxDischargeDepth := 20) [modQp, h]

@[simp] theorem modOp_rose {pq : List Leaf} {s : State} (k : Nat) (f : Op → Op) (h : Rose pq s) :
    Rose pq (modOp k f s) := by
  simp (maxDischargeDepth := 20) [modOp, h]

@[simp] theorem setOpSt_rose {pq : List Leaf} {s : State} (k : Nat) (st : OpSt) (h : Rose pq s) :
    Rose pq (setOpSt k st s) := by
  simp (maxDischargeDepth := 20) [setOpSt, h]

@[simp] theorem removeOp_rose {pq : List Leaf} {s : State} (k : Nat) (h : Rose pq s) :
    Rose pq (removeOp k s) := by
  simp (maxDischargeDepth := 20) [removeOp, h]

@[simp] theorem signalQp_rose {pq : List Leaf} {s : State} (q : Qp) (h : Rose pq s) :
    Rose pq (signalQp q s) := by
  simp (maxDischargeDepth := 20) [signalQp, h]

@[simp] theorem writeCompletion_rose {pq : List Leaf} {s : State} (op : Op) (st : Status) (resA resB : W64) (skipped : Bool) (h : Rose pq s) :
    Rose pq (writeCompletion op st resA resB skipped s) := by
  unfold writeCompletion
  (repeat' split) <;> simp (maxDischargeDepth := 20) [h]

@[simp] theorem endDelete_rose {pq : List Leaf} {s : State} (n : Nat) (h : Rose pq s) :
    Rose pq (endDelete n s) := by
  unfold endDelete
  (repeat' split) <;> simp (maxDischargeDepth := 20) [h]

@[simp] theorem complete_rose {pq : List Leaf} {s : State} (op : Op) (st : Status) (resA resB : W64) (skipped : Bool) (h : Rose pq s) :
    Rose pq (complete op st resA resB skipped s) := by
  simp (maxDischargeDepth := 20) [complete, h]

@[simp] theorem refuse_rose {pq : List Leaf} {s : State} (op : Op) (st : Status) (h : Rose pq s) :
    Rose pq (refuse op st s) := by
  simp (maxDischargeDepth := 20) [refuse, h]

@[simp] theorem queueAtEngine_rose {pq : List Leaf} {s : State} (e units : Nat) (h : Rose pq s) :
    Rose pq (queueAtEngine e units s) := by
  simp (maxDischargeDepth := 20) [queueAtEngine, h]

@[simp] theorem setCaps_rose {pq : List Leaf} {s : State} (b r capS capB : Nat) (h : Rose pq s) :
    Rose pq (setCaps b r capS capB s) := by
  simp (maxDischargeDepth := 20) [setCaps, h]

@[simp] theorem recomputeCaps_rose {pq : List Leaf} {s : State} (h : Rose pq s) : Rose pq (recomputeCaps s) :=
  setCaps_rose _ _ _ _ h

@[simp] theorem enterEnergyWait_rose {pq : List Leaf} {s : State} (op : Op) (h : Rose pq s) :
    Rose pq (enterEnergyWait op s) := by
  simp (maxDischargeDepth := 20) [enterEnergyWait, h]

@[simp] theorem owe_rose {pq : List Leaf} {s : State} (w : What) (h : Rose pq s) :
    Rose pq (owe w s) := by
  unfold owe
  split <;> simp (maxDischargeDepth := 20) [h]

@[simp] theorem oweBounded_rose {pq : List Leaf} {s : State} (n : Nat) (h : Rose pq s) :
    Rose pq (oweBounded n s) := by
  simp (maxDischargeDepth := 20) [oweBounded, h]

@[simp] theorem releaseBounded_rose {pq : List Leaf} {s : State} (n : Nat) (h : Rose pq s) :
    Rose pq (releaseBounded n s) := by
  simp (maxDischargeDepth := 20) [releaseBounded, h]

@[simp] theorem queueWrite_rose {pq : List Leaf} {s : State} (rank : Nat) (w : What) (h : Rose pq s) :
    Rose pq (queueWrite rank w s) := by
  unfold queueWrite
  split <;> simp (maxDischargeDepth := 20) [h]

@[simp] theorem awaitRecord_rose {pq : List Leaf} {s : State} (op : Op) (w : What) (resA resB : W64) (h : Rose pq s) :
    Rose pq (awaitRecord op w resA resB s) := by
  simp (maxDischargeDepth := 20) [awaitRecord, h]

@[simp] theorem releaseUntil_rose {pq : List Leaf} {s : State} (limit : Nat) (l : List Owed) (h : Rose pq s) :
    Rose pq (releaseUntil limit l s) := by
  induction l generalizing s with
  | nil => exact h
  | cons e l ih => unfold releaseUntil; (repeat' split) <;> simp (maxDischargeDepth := 20) [ih, h]

@[simp] theorem releaseStrict_rose {pq : List Leaf} {s : State} (h : Rose pq s) :
    Rose pq (releaseStrict s) := by
  simp (maxDischargeDepth := 20) [releaseStrict, h]

@[simp] theorem modLeaf_rose {pq : List Leaf} {s : State} (n : Nat) (f : Leaf → Leaf)
    (hf : ∀ l, (f l).num = l.num ∧ (f l).inc = l.inc ∧ (f l).v = l.v) (h : Rose pq s) : Rose pq (modLeaf n f s) := by
  refine roseOn_map _ (fun l _ => ?_) h
  split
  · obtain ⟨h1, h2, h3⟩ := hf l
    exact ⟨h1, h2, h3 ▸ BitVec.le_refl _⟩
  · exact ⟨rfl, rfl, BitVec.le_refl _⟩

@[simp] theorem modGroup_rose {pq : List Leaf} {s : State} (g : Nat) (f : Group → Group) (h : Rose pq s) :
    Rose pq (modGroup g f s) := by
  simp (maxDischargeDepth := 20) [modGroup, h]

@[simp] theorem modMirror_rose {pq : List Leaf} {s : State} (i : Nat) (f : Mirror → Mirror) (h : Rose pq s) :
    Rose pq (modMirror i f s) := by
  simp (maxDischargeDepth := 20) [modMirror, h]

@[simp] theorem modSector_rose {pq : List Leaf} {s : State} (bank idx : Nat) (f : Sector → Sector) (h : Rose pq s) :
    Rose pq (modSector bank idx f s) := by
  simp (maxDischargeDepth := 20) [modSector, h]

@[simp] theorem putSlot_rose {pq : List Leaf} {s : State} (bank sector slot : Nat) (bytes : Option (List Byte)) (h : Rose pq s) :
    Rose pq (putSlot bank sector slot bytes s) := by
  simp (maxDischargeDepth := 20) [putSlot, h]

@[simp] theorem takeFresh_rose {pq : List Leaf} {s : State} (x : Sector) (firstSeq : Nat) (h : Rose pq s) :
    Rose pq (takeFresh x firstSeq s) := by
  simp (maxDischargeDepth := 20) [takeFresh, h]

@[simp] theorem shutBank_rose {pq : List Leaf} {s : State} (bank : Nat) (h : Rose pq s) :
    Rose pq (shutBank bank s) := by
  simp (maxDischargeDepth := 20) [shutBank, h]

theorem placeFresh_rose {pq : List Leaf} {s t : State} {bank a b : Nat} {w : Wanted} (h : Rose pq s)
    (e : placeFresh bank w s = some (a, b, t)) : Rose pq t := by
  unfold placeFresh at e
  split at e
  · simp only [Option.map_eq_some_iff, Prod.mk.injEq] at e
    obtain ⟨x, -, -, -, rfl⟩ := e
    have hs : Rose pq (if w.fresh then s else shutBank bank s) := by split <;> simp [h]
    simp [hs]
  · simp at e

theorem placeInBank_rose {pq : List Leaf} {s t : State} {bank a b : Nat} {w : Wanted} (h : Rose pq s)
    (e : placeInBank bank w s = some (a, b, t)) : Rose pq t := by
  unfold placeInBank at e
  split at e
  · simp only [Option.some.injEq, Prod.mk.injEq] at e
    obtain ⟨-, -, rfl⟩ := e
    simp [h]
  · exact placeFresh_rose h e

theorem placeInBanks_rose {pq : List Leaf} {s t : State} {a b c : Nat} {w : Wanted} (l : List Nat) (h : Rose pq s)
    (e : placeInBanks w s l = some (a, b, c, t)) : Rose pq t := by
  induction l with
  | nil => simp [placeInBanks] at e
  | cons x l ih =>
    unfold placeInBanks at e
    split at e
    · simp only [Option.some.injEq, Prod.mk.injEq] at e
      obtain ⟨-, -, -, rfl⟩ := e
      exact placeInBank_rose h ‹_›
    · exact ih e

@[simp] theorem nextTurn_rose {pq : List Leaf} {s : State} (bank rank : Nat) (h : Rose pq s) :
    Rose pq (nextTurn bank rank s) := by
  simp (maxDischargeDepth := 20) [nextTurn, h]

theorem startProgram_rose {pq : List Leaf} {s t : State} {c : CopyWait} (h : Rose pq s) (e : startProgram c s = some t) : Rose pq t := by
  unfold startProgram at e
  split at e
  · split at e
    · simp only [Option.some.injEq] at e
      subst e
      have := placeInBanks_rose _ h ‹_›
      simp [this]
    · simp at e
  · simp at e

@[simp] theorem finishWaiting_rose {pq : List Leaf} {s : State} (id : Nat) (l : List Op) (h : Rose pq s) :
    Rose pq (finishWaiting id l s) := by
  induction l generalizing s with
  | nil => exact h
  | cons op l ih => simp only [finishWaiting]; (repeat' split) <;> simp (maxDischargeDepth := 20) [ih, h]

@[simp] theorem makeCurrent_rose {pq : List Leaf} {s : State} (r : Rec) (h : Rose pq s) :
    Rose pq (makeCurrent r s) := by
  simp (maxDischargeDepth := 20) [makeCurrent, h]

@[simp] theorem effectWritten_rose {pq : List Leaf} {s : State} (j : JWrite) (h : Rose pq s) :
    Rose pq (effectWritten j s) := by
  unfold effectWritten
  split <;> simp (maxDischargeDepth := 20) [h]

@[simp] theorem wearWritten_rose {pq : List Leaf} {s : State} (r : Rec) (h : Rose pq s) :
    Rose pq (wearWritten r s) := by
  unfold wearWritten
  split <;> simp (maxDischargeDepth := 20) [h]

@[simp] theorem recordWritten_rose {pq : List Leaf} {s : State} (one : Bool) (j : JWrite) (r : Rec) (h : Rose pq s) :
    Rose pq (recordWritten one j r s) := by
  unfold recordWritten
  extract_lets _ s1 s2 _ s3
  have h2 : Rose pq s2 := by simp (maxDischargeDepth := 20) [s2, s1, h]
  have h3 : Rose pq s3 := by simp only [s3]; split <;> simp [h2]
  exact finishWaiting_rose _ _ h3

@[simp] theorem markTaken_rose {pq : List Leaf} {s : State} (w : What) (id : Nat) (h : Rose pq s) :
    Rose pq (markTaken w id s) := by
  simp (maxDischargeDepth := 20) [markTaken, h]

theorem buildRecord_rose {pq : List Leaf} {s t : State} {j : JWrite} {single : Bool} {r : Rec} (h : Rose pq s)
    (e : buildRecord j single s = some (r, t)) : Rose pq t := by
  unfold buildRecord at e
  split at e
  · simp only [Option.map_eq_some_iff, Prod.mk.injEq] at e
    obtain ⟨_, -, -, rfl⟩ := e
    exact h
  · simp only [Option.map_eq_some_iff, Prod.mk.injEq] at e
    obtain ⟨_, -, -, rfl⟩ := e
    exact h
  · split at e
    · simp only [Option.some.injEq, Prod.mk.injEq] at e
      obtain ⟨-, rfl⟩ := e
      simp [h]
    · simp at e

theorem beginWrite_rose {pq : List Leaf} {s t : State} {j : JWrite} (h : Rose pq s) (e : beginWrite j s = some t) : Rose pq t := by
  simp only [beginWrite] at e
  split at e
  · simp at e
  · split at e
    · simp at e
    · split at e
      · simp at e
      · exact startProgram_rose (buildRecord_rose h ‹_›) e

@[simp] theorem unqueue_rose {pq : List Leaf} {s : State} (id : Nat) (h : Rose pq s) :
    Rose pq (unqueue id s) := by
  simp (maxDischargeDepth := 20) [unqueue, h]

@[simp] theorem beginFirst_rose {pq : List Leaf} {s : State} (l : List JWrite) (h : Rose pq s) : Rose pq (beginFirst l s) := by
  induction l generalizing s with
  | nil => exact h
  | cons j l ih =>
    unfold beginFirst
    split
    · simp (maxDischargeDepth := 20) [ih, h]
    · split
      next t e => simp [beginWrite_rose h e]
      next => exact ih h

@[simp] theorem beginFlushRecord_rose {pq : List Leaf} {s : State} (h : Rose pq s) : Rose pq (beginFlushRecord s) := by
  unfold beginFlushRecord
  split
  · exact h
  · extract_lets j _ s1
    have h1 : Rose pq s1 := by simp [s1, h]
    split
    · simp [h1]
    · split
      next t e => simp [beginWrite_rose h1 e]
      next => exact h

@[simp] theorem buildAgain_rose {pq : List Leaf} {s : State} (j : JWrite) (h : Rose pq s) :
    Rose pq (buildAgain j s) := by
  simp (maxDischargeDepth := 20) [buildAgain, h]

theorem beginWaiting_rose {pq : List Leaf} {s t : State} {c : CopyWait} (h : Rose pq s) (e : beginWaiting c s = some t) : Rose pq t := by
  simp only [beginWaiting] at e
  split at e
  · split at e <;> simp only [Option.some.injEq] at e <;> subst e <;> simp [h]
  · exact startProgram_rose (by simp [h]) e

@[simp] theorem beginEach_rose {pq : List Leaf} {s : State} (l : List CopyWait) (h : Rose pq s) : Rose pq (beginEach l s) := by
  induction l generalizing s with
  | nil => exact h
  | cons c l ih =>
    unfold beginEach
    split
    next t e => exact ih (beginWaiting_rose h e)
    next => exact ih h

@[simp] theorem pumpOnce_rose {pq : List Leaf} {s : State} (h : Rose pq s) : Rose pq (pumpOnce s) := by
  unfold pumpOnce
  split
  · exact h
  · extract_lets s1
    have h1 : Rose pq s1 := by simp [s1, h]
    (repeat' split) <;> simp [h1]

@[simp] theorem pump_rose {pq : List Leaf} {s : State} (h : Rose pq s) :
    Rose pq (pump s) := by
  simp (maxDischargeDepth := 20) [pump, h]

@[simp] theorem dropSector_rose {pq : List Leaf} {s : State} (bank sector : Nat) (h : Rose pq s) :
    Rose pq (dropSector bank sector s) := by
  simp (maxDischargeDepth := 20) [dropSector, h]

@[simp] theorem postRefresh_rose {pq : List Leaf} {s : State} (x : Sector) (weak corrected reason : Nat) (first : Option (Nat × Nat)) (h : Rose pq s) :
    Rose pq (postRefresh x weak corrected reason first s) := by
  simp (maxDischargeDepth := 20) [postRefresh, h]

@[simp] theorem forgetHalf_rose {pq : List Leaf} {s : State} (h : Rose pq s) :
    Rose pq (forgetHalf s) := by
  simp (maxDischargeDepth := 20) [forgetHalf, h]

@[simp] theorem takeOut_rose {pq : List Leaf} {s : State} (copyB : Bool) (h : Rose pq s) :
    Rose pq (takeOut copyB s) := by
  simp (maxDischargeDepth := 20) [takeOut, h]

@[simp] theorem noteRetired_rose {pq : List Leaf} {s : State} (copyB : Bool) (h : Rose pq s) :
    Rose pq (noteRetired copyB s) := by
  simp (maxDischargeDepth := 20) [noteRetired, h]

@[simp] theorem retireSector_rose {pq : List Leaf} {s : State} (bank sector : Nat) (h : Rose pq s) :
    Rose pq (retireSector bank sector s) := by
  simp (maxDischargeDepth := 20) [retireSector, h]

@[simp] theorem startErase_rose {pq : List Leaf} {s : State} (bank sector : Nat) (h : Rose pq s) :
    Rose pq (startErase bank sector s) := by
  simp (maxDischargeDepth := 20) [startErase, h]

@[simp] theorem countRefreshed_rose {pq : List Leaf} {s : State} (h : Rose pq s) :
    Rose pq (countRefreshed s) := by
  unfold countRefreshed
  split <;> simp (maxDischargeDepth := 20) [h]

@[simp] theorem finishEmptying_rose {pq : List Leaf} {s : State} (e : Emptying) (h : Rose pq s) : Rose pq (finishEmptying e s) := by
  unfold finishEmptying
  extract_lets _ s1 s2
  have h1 : Rose pq s1 := by simp [s1, h]
  have h2 : Rose pq s2 := by simp only [s2]; split <;> simp (maxDischargeDepth := 20) [h1]
  split <;> simp [h2]

@[simp] theorem tendOne_rose {pq : List Leaf} {s : State} (e : Emptying) (h : Rose pq s) : Rose pq (tendOne s e) := by
  unfold tendOne
  split
  · simp [h]
  · exact rose_foldl (fun _ _ h => by split <;> simp [h]) _ h

@[simp] theorem tendEmptying_rose {pq : List Leaf} {s : State} (h : Rose pq s) : Rose pq (tendEmptying s) :=
  rose_foldl (fun _ _ h => tendOne_rose _ h) _ h

@[simp] theorem abandonForward_rose {pq : List Leaf} {s : State} (h : Rose pq s) :
    Rose pq (abandonForward s) := by
  exact rose_foldl (fun _ _ h => by simp [h]) _ h

@[simp] theorem queueCatchUp_rose {pq : List Leaf} {s : State} (h : Rose pq s) : Rose pq (queueCatchUp s) :=
  rose_foldl (fun _ _ h => by simp [h]) _ h

@[simp] theorem refreshNodes_rose {pq : List Leaf} {s : State} (g : Nat) (h : Rose pq s) : Rose pq (refreshNodes g s) := h

@[simp] theorem putLive_rose {pq : List Leaf} {s : State} (g live : Nat) (h : Rose pq s) :
    Rose pq (putLive g live s) := by
  simp (maxDischargeDepth := 20) [putLive, h]

@[simp] theorem markDirty_rose {pq : List Leaf} {s : State} (g : Nat) (h : Rose pq s) :
    Rose pq (markDirty g s) := by
  simp (maxDischargeDepth := 20) [markDirty, h]

@[simp] theorem setLive_rose {pq : List Leaf} {s : State} (g live : Nat) (h : Rose pq s) :
    Rose pq (setLive g live s) := by
  simp (maxDischargeDepth := 20) [setLive, h]

@[simp] theorem recountLive_rose {pq : List Leaf} {s : State} (g : Nat) (h : Rose pq s) :
    Rose pq (recountLive g s) := by
  simp (maxDischargeDepth := 20) [recountLive, h]

@[simp] theorem queueCeiling_rose {pq : List Leaf} {s : State} (g v : Nat) (h : Rose pq s) :
    Rose pq (queueCeiling g v s) := by
  unfold queueCeiling
  (repeat' split) <;> simp (maxDischargeDepth := 20) [h]

@[simp] theorem scheduleCeiling_rose {pq : List Leaf} {s : State} (g : Nat) (h : Rose pq s) :
    Rose pq (scheduleCeiling g s) := by
  unfold scheduleCeiling
  (repeat' split) <;> simp (maxDischargeDepth := 20) [h]

@[simp] theorem queueNeededCeiling_rose {pq : List Leaf} {s : State} (g needed : Nat) (h : Rose pq s) :
    Rose pq (queueNeededCeiling g needed s) := by
  unfold queueNeededCeiling
  (repeat' split) <;> simp (maxDischargeDepth := 20) [h]

/-- A rise of a counter of the table to its value or above. -/
theorem raiseLeaf_rose {pq : List Leaf} {s : State} (l : Leaf) (v : Nat) (hm : l ∈ s.ctr.leaves) (hv : l.v.toNat ≤ v)
    (ht : v ≤ maxV) (h : Rose pq s) : Rose pq (raiseLeaf l v s) := by
  unfold Rose
  rw [raiseLeaf_leaves, (raiseLeaf_next l v s).1, (raiseLeaf_next l v s).2]
  refine roseOn_map _ (fun x hx => ?_) h
  split
  · rename_i e
    have : x = l := row_unique h.1 hx hm (by simpa using e)
    subst this
    refine ⟨rfl, rfl, ?_⟩
    simp only [maxV] at ht
    rw [BitVec.le_def, BitVec.toNat_ofNat, Nat.mod_eq_of_lt (by omega)]
    exact hv
  · exact ⟨rfl, rfl, BitVec.le_refl _⟩

@[simp] theorem countWork_rose {pq : List Leaf} {s : State} (g units : Nat) (class0 : Bool) (h : Rose pq s) :
    Rose pq (countWork g units class0 s) := by
  simp (maxDischargeDepth := 20) [countWork, h]

@[simp] theorem openGroup_rose {pq : List Leaf} {s : State} (g domain : Nat) (key : W32) (h : Rose pq s) :
    Rose pq (openGroup g domain key s) := by
  simp (maxDischargeDepth := 20) [openGroup, h]

@[simp] theorem returnIfEmpty_rose {pq : List Leaf} {s : State} (g : Nat) (h : Rose pq s) :
    Rose pq (returnIfEmpty g s) := by
  unfold returnIfEmpty
  split <;> simp (maxDischargeDepth := 20) [h]

@[simp] theorem moveLeaf_rose {pq : List Leaf} {s : State} (l : Leaf) (target code : Nat) (defn : Bool) (h : Rose pq s) :
    Rose pq (moveLeaf l target code defn s) := by
  simp (maxDischargeDepth := 20) [moveLeaf, h]

@[simp] theorem admitRepair_rose {pq : List Leaf} {s : State} (n : Nat) (h : Rose pq s) :
    Rose pq (admitRepair n s) := by
  unfold admitRepair
  split <;> simp (maxDischargeDepth := 20) [h]

@[simp] theorem admitRepairs_rose {pq : List Leaf} {s : State} (h : Rose pq s) : Rose pq (admitRepairs s) :=
  rose_foldl (fun _ _ h => by simp [h]) _ h

@[simp] theorem memRepair_rose {pq : List Leaf} {s : State} (object level action leaves value : Nat) (h : Rose pq s) :
    Rose pq (memRepair object level action leaves value s) := by
  simp (maxDischargeDepth := 20) [memRepair, h]

@[simp] theorem postDone_rose {pq : List Leaf} {s : State} (m : Maint) (started result value : Nat) (h : Rose pq s) :
    Rose pq (postDone m started result value s) := by
  simp (maxDischargeDepth := 20) [postDone, h]

@[simp] theorem maintDone_rose {pq : List Leaf} {s : State} (m : Maint) (started result value : Nat) (h : Rose pq s) :
    Rose pq (maintDone m started result value s) := by
  simp (maxDischargeDepth := 20) [maintDone, h]

@[simp] theorem modSource_rose {pq : List Leaf} {s : State} (n : Nat) (f : Source → Source) (h : Rose pq s) :
    Rose pq (modSource n f s) := by
  simp (maxDischargeDepth := 20) [modSource, h]

@[simp] theorem returnBlock_rose {pq : List Leaf} {s : State} (block early : Nat) (h : Rose pq s) :
    Rose pq (returnBlock block early s) := by
  simp (maxDischargeDepth := 20) [returnBlock, h]

@[simp] theorem releaseActivity_rose {pq : List Leaf} {s : State} (r : Running) (early : Nat) (h : Rose pq s) :
    Rose pq (releaseActivity r early s) := by
  simp (maxDischargeDepth := 20) [releaseActivity, h]

@[simp] theorem endActivity_rose {pq : List Leaf} {s : State} (result early : Nat) (h : Rose pq s) :
    Rose pq (endActivity result early s) := by
  unfold endActivity
  split <;> simp (maxDischargeDepth := 20) [h]

@[simp] theorem endCatchUp_rose {pq : List Leaf} {s : State} (h : Rose pq s) :
    Rose pq (endCatchUp s) := by
  unfold endCatchUp
  split <;> simp (maxDischargeDepth := 20) [h]

@[simp] theorem refuseWaits_rose {pq : List Leaf} {s : State} (p : Op → Bool) (st : Status) (h : Rose pq s) :
    Rose pq (refuseWaits p st s) :=
  rose_foldl (fun _ _ h => by simp [h]) _ h

@[simp] theorem setSafe_rose {pq : List Leaf} {s : State} (cause : Nat) (h : Rose pq s) :
    Rose pq (setSafe cause s) := by
  simp (maxDischargeDepth := 20) [setSafe, h]

@[simp] theorem enterSafe_rose {pq : List Leaf} {s : State} (cause : Nat) (h : Rose pq s) : Rose pq (enterSafe cause s) := by
  unfold enterSafe
  split
  · exact h
  · refine rose_foldl (fun _ _ h => by simp [h]) _ (refuseWaits_rose _ _ (endActivity_rose _ _ ?_))
    have h2 := tendEmptying_rose (abandonForward_rose (setSafe_rose cause h))
    split <;> simp [h, h2]

@[simp] theorem chargeWork_rose {pq : List Leaf} {s : State} (op : Op) (g units : Nat) (h : Rose pq s) :
    Rose pq (chargeWork op g units s) := by
  simp (maxDischargeDepth := 20) [chargeWork, h]

@[simp] theorem completeOn_rose {pq : List Leaf} {s : State} (op : Op) (n : Nat) (resA resB : W64) (h : Rose pq s) :
    Rose pq (completeOn op n resA resB s) := by
  unfold completeOn
  split <;> simp (maxDischargeDepth := 20) [h]

@[simp] theorem retireNumber_rose {pq : List Leaf} {s : State} (n : Nat) (h : Rose pq s) : Rose pq (retireNumber n s) :=
  roseOn_closed _ h

/-- What a number taken for a new counter is: not the next one, and later than any row it had. -/
def Taken (n inc : Nat) (s : State) : Prop := n ≠ s.ctr.nextNumber ∧ ∀ l ∈ s.ctr.leaves, l.num = n → l.inc < inc

theorem takeNumber_rose {pq : List Leaf} {s t : State} {n inc : Nat} (h : Rose pq s) (e : takeNumber s = some (n, inc, t)) :
    Rose pq t ∧ Taken n inc t := by
  unfold takeNumber at e
  split at e
  · simp only [Option.some.injEq, Prod.mk.injEq] at e
    obtain ⟨rfl, rfl, rfl⟩ := e
    obtain ⟨h1, h2⟩ := unused_spec s.ctr.leaves (s.ctr.nextNumber + 1) h.1
    refine ⟨⟨h.1, h2, h.2.2⟩, ?_, fun l hl e => absurd e (h.2.1 l hl)⟩
    simp only [unusedFrom]
    omega
  · split at e
    · rename_i m hm
      simp only [Option.some.injEq, Prod.mk.injEq] at e
      obtain ⟨rfl, rfl, rfl⟩ := e
      obtain ⟨y, hy, hn⟩ := h.2.2.1 m (List.mem_of_find?_eq_some hm)
      refine ⟨roseOn_closed _ h, hn ▸ h.2.1 y hy, fun x hx ex => ?_⟩
      have hf : findLeaf s m = some y := by
        cases hf : findLeaf s m with
        | none => exact absurd hn (by simpa using List.find?_eq_none.mp hf y hy)
        | some z =>
          have hz : z.num = m := by simpa using List.find?_some hf
          exact congrArg some (row_unique h.1 (List.mem_of_find?_eq_some hf) hy (hz.trans hn.symm))
      rw [row_unique h.1 hx hy (ex.trans hn.symm), incOfNext, hf]
      show y.inc < y.inc + 1 + s.ctr.u
      omega
    · simp at e

theorem placeCounter_rose {pq : List Leaf} {s : State} (op : Op) (cls : Cls) (n inc g : Nat) (hn : Taken n inc s)
    (h : Rose pq s) : Rose pq (placeCounter op cls n inc g s) := by
  unfold placeCounter
  refine complete_rose _ _ _ _ _ (chargeWork_rose _ _ _ (logDecision_rose _ _ _ _ _ (scheduleCeiling_rose _
    (queueWrite_rose _ _ (owe_rose _ (setLive_rose _ _ ?_))))))
  exact roseOn_insert _ hn.1 hn.2 h

theorem createPlan_rose {pq : List Leaf} {s t : State} {op : Op} {p : Plan} (e : createPlan op s = .ok p) (h : Rose pq t) :
    Rose pq (p.run t) := by
  simp only [createPlan] at e
  (repeat' split at e) <;> simp only [Except.ok.injEq, reduceCtorEq] at e <;> subst e <;> dsimp only <;> split
  · next n inc t e => exact placeCounter_rose _ _ _ _ _ (takeNumber_rose h e).2 (takeNumber_rose h e).1
  · exact h
  · next n inc t e =>
      have hn := (takeNumber_rose h e).2
      exact placeCounter_rose _ _ _ _ _ (by simpa [Taken] using hn) (by simp [(takeNumber_rose h e).1])
  · exact h

theorem risePlan_rose {pq : List Leaf} {t : State} {after : State → State × W64 × W64} (op : Op) (l : Leaf) (v units : Nat)
    (s : State) (ha : ∀ s, Rose pq s → Rose pq (after s).1) (hm : l ∈ t.ctr.leaves) (hv : l.v.toNat ≤ v) (ht : v ≤ maxV)
    (h : Rose pq t) : Rose pq ((risePlan op l v units after s).run t) := by
  simp (maxDischargeDepth := 20) [risePlan, ha, raiseLeaf_rose l v hm hv ht h]

theorem reservePlan_rose {pq : List Leaf} {s t : State} {op : Op} {p : Plan} (e : reservePlan op s = .ok p) (hc : t.ctr = s.ctr)
    (h : Rose pq t) : Rose pq (p.run t) := by
  simp only [reservePlan, bind, Except.bind] at e
  (repeat' split at e) <;> simp only [Except.ok.injEq, reduceCtorEq] at e
  subst e
  rename_i l hl hv
  exact risePlan_rose _ _ _ _ _ (fun _ h => h) (hc ▸ openTarget_mem hl) (by omega) (by omega) h

theorem advancePlan_rose {pq : List Leaf} {s t : State} {op : Op} {p : Plan} (e : advancePlan op s = .ok p) (hc : t.ctr = s.ctr)
    (h : Rose pq t) : Rose pq (p.run t) := by
  simp only [advancePlan, bind, Except.bind] at e
  (repeat' split at e) <;> simp only [Except.ok.injEq, reduceCtorEq] at e
  subst e
  rename_i l hl hv
  exact risePlan_rose _ _ _ _ _ (fun _ h => h) (hc ▸ openTarget_mem hl) (by omega) (by omega) h

theorem raisePlan_rose {pq : List Leaf} {s t : State} {op : Op} {p : Plan} (e : raisePlan op s = .ok p) (hc : t.ctr = s.ctr)
    (h : Rose pq t) : Rose pq (p.run t) := by
  simp only [raisePlan, bind, Except.bind] at e
  (repeat' split at e) <;> simp only [Except.ok.injEq, reduceCtorEq] at e <;> subst e
  · simp (maxDischargeDepth := 20) [freePlan, h]
  · rename_i l hl hv
    exact risePlan_rose _ _ _ _ _ (fun _ h => h) (hc ▸ openTarget_mem hl) (by omega)
      (by have := op.a.isLt; simp only [maxV]; omega) h

@[simp] theorem countReport_rose {pq : List Leaf} {s : State} (domain : Nat) (peer : W32) (cause n : Nat) (assoc : W32)
    (h : Rose pq s) : Rose pq (countReport domain peer cause n assoc s).1 := by
  simp only [countReport]
  (repeat' split) <;> simp [h]

theorem faultReportPlan_rose {pq : List Leaf} {s t : State} {op : Op} {p : Plan} (e : faultReportPlan op s = .ok p) (hc : t.ctr = s.ctr)
    (h : Rose pq t) : Rose pq (p.run t) := by
  simp only [faultReportPlan, bind, Except.bind] at e
  split at e
  · simp at e
  · rename_i l hl
    split at e
    · simp at e
    · simp only [Except.ok.injEq] at e
      subst e
      refine risePlan_rose _ _ _ _ _ (fun _ h => countReport_rose _ _ _ _ _ h) (hc ▸ openTarget_mem hl) ?_ (by omega) h
      have := l.v.isLt
      simp only [maxV]
      omega

theorem readPlan_rose {pq : List Leaf} {s t : State} {op : Op} {p : Plan} (e : readPlan op s = .ok p) (h : Rose pq t) :
    Rose pq (p.run t) := by
  simp only [readPlan] at e
  (repeat' split at e) <;> simp only [Except.ok.injEq, reduceCtorEq] at e <;> subst e <;>
    simp (maxDischargeDepth := 20) [h]

theorem groupReadPlan_rose {pq : List Leaf} {s t : State} {op : Op} {p : Plan} (e : groupReadPlan op s = .ok p)
    (h : Rose pq t) : Rose pq (p.run t) := by
  simp only [groupReadPlan, bind, Except.bind] at e
  (repeat' split at e) <;> simp only [Except.ok.injEq, reduceCtorEq] at e
  subst e
  simp (maxDischargeDepth := 20) [h]

theorem closeLeaf_rose {pq : List Leaf} {s : State} (l : Leaf) (hm : l ∈ s.ctr.leaves) (h : Rose pq s) :
    Rose pq (closeLeaf l s) := by
  have h1 : Rose pq (recountLive l.group (modLeaf l.num (fun x => { x with closed := true }) s)) := by
    simp (maxDischargeDepth := 20) [h]
  have h2 : ∃ x ∈ (recountLive l.group (modLeaf l.num (fun x => { x with closed := true }) s)).ctr.leaves, x.num = l.num := by
    refine ⟨{ l with closed := true }, ?_, rfl⟩
    rw [recountLive_leaves]
    exact List.mem_map.mpr ⟨l, hm, if_pos (by simp)⟩
  simp only [closeLeaf]
  generalize recountLive l.group (modLeaf l.num (fun x => { x with closed := true }) s) = w at *
  have h3 : RoseOn pq w.ctr.leaves w.ctr.nextNumber (w.ctr.closedOrder ++ [l.num]) :=
    ⟨h1.1, h1.2.1, fun n hn => by
      rcases List.mem_append.mp hn with hn | hn
      · exact h1.2.2.1 n hn
      · rw [List.mem_singleton.mp hn]; exact h2, h1.2.2.2⟩
  split
  · exact returnIfEmpty_rose _ (queueWrite_rose _ _ (owe_rose _ h3))
  · exact returnIfEmpty_rose _ (queueWrite_rose _ _ (owe_rose _ (retireNumber_rose _ h1)))

theorem closePlan_rose {pq : List Leaf} {s t : State} {op : Op} {p : Plan} (e : closePlan op s = .ok p) (hc : t.ctr = s.ctr)
    (h : Rose pq t) : Rose pq (p.run t) := by
  simp only [closePlan, bind, Except.bind] at e
  (repeat' split at e) <;> simp only [Except.ok.injEq, reduceCtorEq] at e
  subst e
  rename_i l hl
  refine completeOn_rose _ _ _ _ (closeLeaf_rose l ?_ (chargeWork_rose _ _ _ h))
  have : (chargeWork op l.group 8 t).ctr.leaves = t.ctr.leaves := rfl
  rw [this, hc]
  exact openTarget_mem hl

@[simp] theorem setClass_rose {pq : List Leaf} {s : State} (l : Leaf) (cls : Cls) (b : Nat) (h : Rose pq s) :
    Rose pq (setClass l cls b s) := by
  simp (maxDischargeDepth := 20) [setClass, h]

@[simp] theorem finishReclass_rose {pq : List Leaf} {s : State} (op : Op) (l : Leaf) (cls : Cls) (h : Rose pq s) :
    Rose pq (finishReclass op l cls s) := by
  simp (maxDischargeDepth := 20) [finishReclass, h]

@[simp] theorem openForMove_rose {pq : List Leaf} {s : State} (g : Nat) (l : Leaf) (h : Rose pq s) :
    Rose pq (openForMove g l s) := by
  simp (maxDischargeDepth := 20) [openForMove, h]

theorem reclassPlan_rose {pq : List Leaf} {s t : State} {op : Op} {p : Plan} (e : reclassPlan op s = .ok p) (h : Rose pq t) :
    Rose pq (p.run t) := by
  simp only [reclassPlan, bind, Except.bind] at e
  (repeat' split at e) <;> simp only [Except.ok.injEq, reduceCtorEq] at e <;> subst e <;>
    simp (maxDischargeDepth := 20) [h]

@[simp] theorem openForReclass_rose {pq : List Leaf} {s : State} (op : Op) (h : Rose pq s) :
    Rose pq (openForReclass op s) := by
  unfold openForReclass
  (repeat' split) <;> simp (maxDischargeDepth := 20) [h]

theorem ctrPlan_rose {pq : List Leaf} {s t : State} {op : Op} {p : Plan} (e : ctrPlan op s = .ok p) (hc : t.ctr = s.ctr)
    (h : Rose pq t) : Rose pq (p.run t) := by
  unfold ctrPlan at e
  split at e
  · exact createPlan_rose e h
  · exact readPlan_rose e h
  · exact advancePlan_rose e hc h
  · exact reservePlan_rose e hc h
  · exact raisePlan_rose e hc h
  · exact closePlan_rose e hc h
  · exact reclassPlan_rose e h
  · exact groupReadPlan_rose e h
  · exact faultReportPlan_rose e hc h

@[simp] theorem setKid_rose {pq : List Leaf} {s : State} (x : Kid) (h : Rose pq s) :
    Rose pq (setKid x s) := by
  simp (maxDischargeDepth := 20) [setKid, h]

theorem allocPlan_rose {pq : List Leaf} {s t : State} {op : Op} {x : Kid} {p : Plan} (e : allocPlan op x s = .ok p)
    (h : Rose pq t) : Rose pq (p.run t) := by
  simp only [allocPlan] at e
  (repeat' split at e) <;> simp only [Except.ok.injEq, reduceCtorEq] at e <;> subst e <;>
    simp (maxDischargeDepth := 20) [h]

theorem beginPlan_rose {pq : List Leaf} {s t : State} {op : Op} {x : Kid} {p : Plan} (e : beginPlan op x s = .ok p)
    (h : Rose pq t) : Rose pq (p.run t) := by
  simp only [beginPlan] at e
  (repeat' split at e) <;> simp only [Except.ok.injEq, reduceCtorEq] at e <;> subst e <;>
    simp (maxDischargeDepth := 20) [h]

theorem flushedPlan_rose {pq : List Leaf} {s t : State} {op : Op} {x : Kid} {p : Plan} (e : flushedPlan op x s = .ok p)
    (h : Rose pq t) : Rose pq (p.run t) := by
  simp only [flushedPlan] at e
  (repeat' split at e) <;> simp only [Except.ok.injEq, reduceCtorEq] at e <;> subst e <;>
    simp (maxDischargeDepth := 20) [h]

@[simp] theorem finishCommit_rose {pq : List Leaf} {s : State} (op : Op) (x : Kid) (h : Rose pq s) :
    Rose pq (finishCommit op x s) := by
  simp (maxDischargeDepth := 20) [finishCommit, h]

theorem commitPlan_rose {pq : List Leaf} {s t : State} {op : Op} {x : Kid} {p : Plan} (e : commitPlan op x s = .ok p)
    (h : Rose pq t) : Rose pq (p.run t) := by
  simp only [commitPlan] at e
  (repeat' split at e) <;> simp only [Except.ok.injEq, reduceCtorEq] at e <;> subst e <;>
    simp (maxDischargeDepth := 20) [h]

theorem kidReadPlan_rose {pq : List Leaf} {t : State} (op : Op) (x : Kid) (h : Rose pq t) :
    Rose pq ((kidReadPlan op x).run t) := by
  simp [kidReadPlan, h]

theorem kidPlan_rose {pq : List Leaf} {s t : State} {op : Op} {p : Plan} (e : kidPlan op s = .ok p) (h : Rose pq t) :
    Rose pq (p.run t) := by
  simp only [kidPlan] at e
  split at e
  · simp at e
  · split at e
    · exact allocPlan_rose e h
    · exact beginPlan_rose e h
    · exact flushedPlan_rose e h
    · exact commitPlan_rose e h
    · simp only [Except.ok.injEq] at e
      exact e ▸ kidReadPlan_rose _ _ h

@[simp] theorem setPage_rose {pq : List Leaf} {s : State} (x : Page) (h : Rose pq s) :
    Rose pq (setPage x s) := by
  simp (maxDischargeDepth := 20) [setPage, h]

theorem paramReadPlan_rose {pq : List Leaf} {s t : State} {op : Op} {p : Plan} (e : paramReadPlan op s = .ok p)
    (h : Rose pq t) : Rose pq (p.run t) := by
  simp only [paramReadPlan] at e
  split at e <;> simp only [Except.ok.injEq, reduceCtorEq] at e
  subst e
  simp [h]

theorem paramWritePlan_rose {pq : List Leaf} {s t : State} {op : Op} {p : Plan} (e : paramWritePlan op s = .ok p)
    (h : Rose pq t) : Rose pq (p.run t) := by
  simp only [paramWritePlan, Except.ok.injEq] at e
  subst e
  simp (maxDischargeDepth := 20) [h]

@[simp] theorem syncPage_rose {pq : List Leaf} {s : State} (p : Nat) (h : Rose pq s) : Rose pq (syncPage p s).2 := by
  simp only [syncPage]
  (repeat' split) <;> simp [h]

@[simp] theorem syncPages_rose {pq : List Leaf} {s : State} (l : List Nat) (h : Rose pq s) : Rose pq (syncPages l s).2 := by
  induction l generalizing s with
  | nil => exact h
  | cons p l ih => simp [syncPages, ih, h]

theorem paramSyncPlan_rose {pq : List Leaf} {t : State} (op : Op) (h : Rose pq t) : Rose pq ((paramSyncPlan op).run t) := by
  simp [paramSyncPlan, h]

theorem paramPlan_rose {pq : List Leaf} {s t : State} {op : Op} {p : Plan} (e : paramPlan op s = .ok p) (h : Rose pq t) :
    Rose pq (p.run t) := by
  unfold paramPlan at e
  split at e
  · simp at e
  · split at e
    · exact paramReadPlan_rose e h
    · exact paramWritePlan_rose e h
    · simp only [Except.ok.injEq] at e
      exact e ▸ paramSyncPlan_rose _ h

@[simp] theorem updateRandom_rose {pq : List Leaf} {s : State} (h : Rose pq s) :
    Rose pq (updateRandom s) := by
  simp (maxDischargeDepth := 20) [updateRandom, h]

@[simp] theorem giveInternal_rose {pq : List Leaf} {s : State} (d : Internal8) (e : W384) (h : Rose pq s) :
    Rose pq (giveInternal d e s) := by
  simp (maxDischargeDepth := 20) [giveInternal, h]

@[simp] theorem serveInternals_rose {pq : List Leaf} {s : State} (n : Nat) (h : Rose pq s) : Rose pq (serveInternals n s) := by
  induction n generalizing s with
  | zero => exact h
  | succ n ih => simp only [serveInternals]; (repeat' split) <;> simp [ih, h]

@[simp] theorem modDrbg_rose {pq : List Leaf} {s : State} (n : Nat) (f : Drbg → Drbg) (h : Rose pq s) :
    Rose pq (modDrbg n f s) := by
  simp (maxDischargeDepth := 20) [modDrbg, h]

theorem takeInstance_rose {pq : List Leaf} {s t : State} {n inc : Nat} (h : Rose pq s)
    (e : takeInstance s = some (n, inc, t)) : Rose pq t := by
  unfold takeInstance at e
  (repeat' split at e) <;> simp only [Option.some.injEq, Prod.mk.injEq, reduceCtorEq] at e <;> obtain ⟨-, -, rfl⟩ := e <;>
    simp [h]

@[simp] theorem generate_rose {pq : List Leaf} {s : State} (op : Op) (d : Drbg) (state : W384) (input : List Byte) (requests : Nat) (fresh : Bool) (h : Rose pq s) :
    Rose pq (generate op d state input requests fresh s) := by
  simp (maxDischargeDepth := 20) [generate, h]

@[simp] theorem drbgWithEntry_rose {pq : List Leaf} {s : State} (op : Op) (x : W384) (h : Rose pq s) :
    Rose pq (drbgWithEntry op x s) := by
  simp only [drbgWithEntry]
  split
  · split
    · simp [h]
    next e => simp [takeInstance_rose h e]
  · split
    · simp [h]
    · simp (maxDischargeDepth := 20) [h]

@[simp] theorem serveHost_rose {pq : List Leaf} {s : State} (n : Nat) (h : Rose pq s) : Rose pq (serveHost n s) := by
  induction n generalizing s with
  | zero => exact h
  | succ n ih => simp only [serveHost]; (repeat' split) <;> simp [ih, h]

@[simp] theorem modPort_rose {pq : List Leaf} {s : State} (p : Nat) (f : Port → Port) (h : Rose pq s) :
    Rose pq (modPort p f s) := by
  simp (maxDischargeDepth := 20) [modPort, h]

@[simp] theorem sendTx_rose {pq : List Leaf} {s : State} (p : Nat) (txs : List Tx) (h : Rose pq s) :
    Rose pq (sendTx p txs s) := by
  unfold sendTx
  split <;> simp (maxDischargeDepth := 20) [h]

theorem takeChallenge_rose {pq : List Leaf} {s t : State} {l : List Need} {c : W128} (h : Rose pq s)
    (e : takeChallenge l s = some (c, t)) : Rose pq t := by
  unfold takeChallenge at e
  (repeat' split at e) <;> simp only [Option.some.injEq, Prod.mk.injEq, reduceCtorEq] at e <;> obtain ⟨-, rfl⟩ := e <;>
    simp [h]

theorem objectPlan_rose {pq : List Leaf} {s t : State} {op : Op} {p : Plan} (e : objectPlan op s = .ok p) (hc : t.ctr = s.ctr)
    (h : Rose pq t) : Rose pq (p.run t) := by
  unfold objectPlan at e
  split at e
  · exact ctrPlan_rose e hc h
  · split at e
    · exact kidPlan_rose e h
    · exact paramPlan_rose e h

@[simp] theorem modPos_rose {pq : List Leaf} {s : State} (p i : Nat) (f : Pos → Pos) (h : Rose pq s) :
    Rose pq (modPos p i f s) := by
  simp (maxDischargeDepth := 20) [modPos, h]

@[simp] theorem setAct_rose {pq : List Leaf} {s : State} (p : Nat) (a : Act) (h : Rose pq s) :
    Rose pq (setAct p a s) := by
  simp (maxDischargeDepth := 20) [setAct, h]

@[simp] theorem chargePort_rose {pq : List Leaf} {s : State} (p : Nat) (h : Rose pq s) :
    Rose pq (chargePort p s) := by
  simp (maxDischargeDepth := 20) [chargePort, h]

@[simp] theorem tryCharge_rose {pq : List Leaf} {s : State} (p : Nat) (h : Rose pq s) :
    Rose pq (tryCharge p s) := by
  unfold tryCharge
  split <;> simp (maxDischargeDepth := 20) [h]

@[simp] theorem checkHalyard_rose {pq : List Leaf} {s : State} (h : Rose pq s) :
    Rose pq (checkHalyard s) := by
  simp (maxDischargeDepth := 20) [checkHalyard, h]

@[simp] theorem postUnplug_rose {pq : List Leaf} {s : State} (p : Nat) (lost : List Nat) (oldEpoch newEpoch : W32) (reason : Nat) (h : Rose pq s) :
    Rose pq (postUnplug p lost oldEpoch newEpoch reason s) := by
  unfold postUnplug
  split <;> simp (maxDischargeDepth := 20) [h]

@[simp] theorem postPlug_rose {pq : List Leaf} {s : State} (p : Nat) (y : Pos) (flags : Nat) (h : Rose pq s) :
    Rose pq (postPlug p y flags s) := by
  unfold postPlug
  split <;> simp (maxDischargeDepth := 20) [h]

@[simp] theorem putMirror_rose {pq : List Leaf} {s : State} (m : Mirror) (h : Rose pq s) :
    Rose pq (putMirror m s) := by
  simp (maxDischargeDepth := 20) [putMirror, h]

@[simp] theorem deauth_rose {pq : List Leaf} {s : State} (p i : Nat) (h : Rose pq s) :
    Rose pq (deauth p i s) := by
  simp (maxDischargeDepth := 20) [deauth, h]

@[simp] theorem keepPresent_rose {pq : List Leaf} {s : State} (idx : Nat) (h : Rose pq s) :
    Rose pq (keepPresent idx s) := by
  simp (maxDischargeDepth := 20) [keepPresent, h]

@[simp] theorem applyCount_rose {pq : List Leaf} {s : State} (p i c : Nat) (h : Rose pq s) :
    Rose pq (applyCount p i c s).2 := by
  simp only [applyCount]
  (repeat' split) <;> simp (maxDischargeDepth := 20) [h]

@[simp] theorem applyIdent_rose {pq : List Leaf} {s : State} (p i : Nat) (first inexact : Bool) (limit : Option Nat) (h : Rose pq s) :
    Rose pq (applyIdent p i first inexact limit s) := by
  unfold applyIdent
  split <;> simp (maxDischargeDepth := 20) [h]

@[simp] theorem changeMirror_rose {pq : List Leaf} {s : State} (serial : W64) (f : Mirror → Mirror) (h : Rose pq s) :
    Rose pq (changeMirror serial f s) := by
  unfold changeMirror
  split <;> simp (maxDischargeDepth := 20) [h]

@[simp] theorem clearPresent_rose {pq : List Leaf} {s : State} (idx : Nat) (h : Rose pq s) :
    Rose pq (clearPresent idx s) := by
  simp (maxDischargeDepth := 20) [clearPresent, h]

@[simp] theorem retryClearing_rose {pq : List Leaf} {s : State} (h : Rose pq s) :
    Rose pq (retryClearing s) := by
  exact rose_foldl (fun _ _ h => by simp [h]) _ h

@[simp] theorem dropPresent_rose {pq : List Leaf} {s : State} (p : Nat) (keep : List W64) (h : Rose pq s) :
    Rose pq (dropPresent p keep s) := by
  exact rose_foldl (fun _ _ h => by simp [h]) _ h

@[simp] theorem sendExch_rose {pq : List Leaf} {s : State} (p : Nat) (x : Exch) (h : Rose pq s) :
    Rose pq (sendExch p x s) := by
  simp (maxDischargeDepth := 20) [sendExch, h]

@[simp] theorem sendWith_rose {pq : List Leaf} {s : State} (p : Nat) (x : Exch) (challenge : W128) (h : Rose pq s) :
    Rose pq (sendWith p x challenge s) := by
  simp (maxDischargeDepth := 20) [sendWith, h]

@[simp] theorem beginExch_rose {pq : List Leaf} {s : State} (p : Nat) (x : Exch) (h : Rose pq s) : Rose pq (beginExch p x s) := by
  unfold beginExch
  split
  · simp [h]
  · split
    next e => simp [takeChallenge_rose h e]
    next => simp (maxDischargeDepth := 20) [h]

@[simp] theorem startTake_rose {pq : List Leaf} {s : State} (p : Nat) (h : Rose pq s) :
    Rose pq (startTake p s) := by
  simp (maxDischargeDepth := 20) [startTake, h]

@[simp] theorem beginSeries_rose {pq : List Leaf} {s : State} (p : Nat) (h : Rose pq s) :
    Rose pq (beginSeries p s) := by
  unfold beginSeries
  (repeat' split) <;> simp (maxDischargeDepth := 20) [h]

@[simp] theorem wantSeries_rose {pq : List Leaf} {s : State} (p : Nat) (why : SlateWhy) (k : Nat) (ops : List Nat) (h : Rose pq s) :
    Rose pq (wantSeries p why k ops s) := by
  simp (maxDischargeDepth := 20) [wantSeries, h]

@[simp] theorem startSweep_rose {pq : List Leaf} {s : State} (p : Nat) (earlier : List SweepRes) (h : Rose pq s) :
    Rose pq (startSweep p earlier s) := by
  simp (maxDischargeDepth := 20) [startSweep, h]

@[simp] theorem refuseOps_rose {pq : List Leaf} {s : State} (ks : List Nat) (st : Status) (h : Rose pq s) :
    Rose pq (refuseOps ks st s) := by
  exact rose_foldl (fun _ _ h => by (repeat' split) <;> simp (maxDischargeDepth := 20) [h]) _ h

@[simp] theorem clearWork_rose {pq : List Leaf} {s : State} (p : Nat) (h : Rose pq s) :
    Rose pq (clearWork p s) := by
  simp (maxDischargeDepth := 20) [clearWork, h]

@[simp] theorem losePositions_rose {pq : List Leaf} {s : State} (p reason : Nat) (h : Rose pq s) :
    Rose pq (losePositions p reason s) := by
  unfold losePositions
  split <;> simp (maxDischargeDepth := 20) [h]

@[simp] theorem endPowerOff_rose {pq : List Leaf} {s : State} (p : Nat) (h : Rose pq s) : Rose pq (endPowerOff p s) := by
  unfold endPowerOff
  split
  · exact h
  · exact rose_foldl (fun _ _ h => by simp [h]) _ h

@[simp] theorem goDown_rose {pq : List Leaf} {s : State} (p : Nat) (h : Rose pq s) :
    Rose pq (goDown p s) := by
  unfold goDown
  split <;> simp (maxDischargeDepth := 20) [h]

@[simp] theorem applyPower_rose {pq : List Leaf} {s : State} (op : Op) (p : Nat) (h : Rose pq s) :
    Rose pq (applyPower op p s) := by
  simp only [applyPower]
  (repeat' split) <;> simp (maxDischargeDepth := 20) [h]

@[simp] theorem dropHead_rose {pq : List Leaf} {s : State} (p : Nat) (h : Rose pq s) :
    Rose pq (dropHead p s) := by
  simp (maxDischargeDepth := 20) [dropHead, h]

@[simp] theorem startConsume_rose {pq : List Leaf} {s : State} (op : Op) (p : Nat) (h : Rose pq s) :
    Rose pq (startConsume op p s).2 := by
  simp only [startConsume]
  (repeat' split) <;> simp (maxDischargeDepth := 20) [h]

@[simp] theorem startHost_rose {pq : List Leaf} {s : State} (n p : Nat) (h : Rose pq s) : Rose pq (startHost n p s).2 := by
  induction n generalizing s with
  | zero => exact h
  | succ n ih => simp only [startHost]; (repeat' split) <;> simp (maxDischargeDepth := 20) [ih, h]

@[simp] theorem startAuth_rose {pq : List Leaf} {s : State} (p : Nat) (y : Pos) (h : Rose pq s) :
    Rose pq (startAuth p y s) := by
  simp (maxDischargeDepth := 20) [startAuth, h]

@[simp] theorem startNext_rose {pq : List Leaf} {s : State} (p : Nat) (h : Rose pq s) : Rose pq (startNext p s) := by
  unfold startNext
  split
  · exact h
  next x _ =>
    have hs := startHost_rose (x.queue.length + 1) p h
    generalize startHost (x.queue.length + 1) p s = r at hs
    obtain ⟨b, s1⟩ := r
    simp only at hs
    cases b <;> (repeat' split) <;> simp_all

@[simp] theorem serveAll_rose {pq : List Leaf} {s : State} (h : Rose pq s) :
    Rose pq (serveAll s) := by
  exact rose_foldl (fun _ _ h => by simp [h]) _ h

@[simp] theorem finishAct_rose {pq : List Leaf} {s : State} (p : Nat) (h : Rose pq s) :
    Rose pq (finishAct p s) := by
  simp (maxDischargeDepth := 20) [finishAct, h]

@[simp] theorem nextExch_rose {pq : List Leaf} {s : State} (p : Nat) (x : Exch) (h : Rose pq s) :
    Rose pq (nextExch p x s) := by
  simp (maxDischargeDepth := 20) [nextExch, h]

@[simp] theorem pauseAct_rose {pq : List Leaf} {s : State} (p : Nat) (a : Act) (h : Rose pq s) :
    Rose pq (pauseAct p a s) := by
  simp (maxDischargeDepth := 20) [pauseAct, h]

@[simp] theorem postPlugs_rose {pq : List Leaf} {s : State} (p : Nat) (h : Rose pq s) : Rose pq (postPlugs p s) := by
  unfold postPlugs
  split
  · exact h
  · exact modPort_rose _ _ (rose_foldl (fun _ _ h => by split <;> simp [h]) _ h)

@[simp] theorem concludeSlate_rose {pq : List Leaf} {s : State} (p : Nat) (h : Rose pq s) : Rose pq (concludeSlate p s) := by
  simp only [concludeSlate]
  split
  · exact h
  · split
    · simp [h]
    · exact finishAct_rose _ (checkHalyard_rose (rose_foldl (fun _ _ h => by split <;> simp [h]) _
        (by simp (maxDischargeDepth := 20) [h])))

@[simp] theorem identFrom_rose {pq : List Leaf} {s : State} (p i : Nat) (h : Rose pq s) :
    Rose pq (identFrom p i s) := by
  unfold identFrom
  split <;> simp (maxDischargeDepth := 20) [h]

@[simp] theorem againFrom_rose {pq : List Leaf} {s : State} (p i : Nat) (h : Rose pq s) :
    Rose pq (againFrom p i s) := by
  unfold againFrom
  (repeat' split) <;> simp (maxDischargeDepth := 20) [h]

@[simp] theorem afterPos_rose {pq : List Leaf} {s : State} (p : Nat) (x : Exch) (h : Rose pq s) :
    Rose pq (afterPos p x s) := by
  unfold afterPos
  split <;> simp (maxDischargeDepth := 20) [h]

@[simp] theorem endHost_rose {pq : List Leaf} {s : State} (p k : Nat) (st : Status) (resA resB : Nat) (h : Rose pq s) :
    Rose pq (endHost p k st resA resB s) := by
  unfold endHost
  split <;> simp (maxDischargeDepth := 20) [h]

@[simp] theorem consumeAgain_rose {pq : List Leaf} {s : State} (p : Nat) (x : Exch) (h : Rose pq s) :
    Rose pq (consumeAgain p x s) := by
  unfold consumeAgain
  split <;> simp (maxDischargeDepth := 20) [h]

@[simp] theorem consumeAuthed_rose {pq : List Leaf} {s : State} (p : Nat) (x : Exch) (k c : Nat) (before : Option Mirror) (ok : Bool) (h : Rose pq s) :
    Rose pq (consumeAuthed p x k c before ok s) := by
  unfold consumeAuthed
  split <;> simp (maxDischargeDepth := 20) [h]

@[simp] theorem gainCount_rose {pq : List Leaf} {s : State} (p : Nat) (x : Exch) (c : Nat) (h : Rose pq s) :
    Rose pq (gainCount p x c s) := by
  have hc := applyCount_rose p x.pos c h
  simp only [gainCount]
  generalize applyCount p x.pos c s = r at hc
  obtain ⟨ok, s1⟩ := r
  simp only at hc
  (repeat' split) <;> simp (maxDischargeDepth := 20) [hc]

@[simp] theorem applyGain_rose {pq : List Leaf} {s : State} (p : Nat) (x : Exch) (g : Gain) (h : Rose pq s) :
    Rose pq (applyGain p x g s) := by
  unfold applyGain
  (repeat' split) <;> simp (maxDischargeDepth := 20) [h]

@[simp] theorem retryChallenges_rose {pq : List Leaf} {s : State} (h : Rose pq s) : Rose pq (retryChallenges s) := by
  refine rose_foldl (fun s p h => ?_) _ h
  split
  · exact h
  · split
    · split
      next e => simp [takeChallenge_rose h e]
      next => exact h
    · exact h

@[simp] theorem retryPlaces_rose {pq : List Leaf} {s : State} (h : Rose pq s) :
    Rose pq (retryPlaces s) := by
  exact rose_foldl (fun _ _ h => by (repeat' split) <;> simp (maxDischargeDepth := 20) [h]) _ h

@[simp] theorem dropOrphans_rose {pq : List Leaf} {s : State} (h : Rose pq s) :
    Rose pq (dropOrphans s) := by
  exact rose_foldl (fun _ _ h => by (repeat' split) <;> simp (maxDischargeDepth := 20) [h]) _ h

@[simp] theorem leaveEnergy_rose {pq : List Leaf} {s : State} (k : Nat) (h : Rose pq s) :
    Rose pq (leaveEnergy k s) := by
  simp (maxDischargeDepth := 20) [leaveEnergy, h]

@[simp] theorem waitForPlan_rose {pq : List Leaf} {s : State} (op : Op) (p : Plan) (h : Rose pq s) :
    Rose pq (waitForPlan op p s) := by
  simp (maxDischargeDepth := 20) [waitForPlan, h]

theorem startPlan_rose {pq : List Leaf} {s : State} {r : Except Status Plan} (op : Op)
    (hr : ∀ p, r = .ok p → Rose pq (p.run s)) (h : Rose pq s) : Rose pq (startPlan op r s) := by
  unfold startPlan
  split
  · simp [h]
  · split
    · exact hr _ rfl
    · simp [h]

@[simp] theorem wakeCommits_rose {pq : List Leaf} {s : State} (h : Rose pq s) : Rose pq (wakeCommits s) := by
  refine rose_foldl (fun s op h => ?_) _ h
  split
  · dsimp only
    split
    · exact startPlan_rose _ (fun _ e => kidPlan_rose e h) h
    · exact h
  · exact h

theorem startObject_rose {pq : List Leaf} {s : State} (op : Op) (h : Rose pq s) : Rose pq (startObject op s) :=
  wakeCommits_rose (startPlan_rose op (fun _ e => objectPlan_rose e rfl h) h)

@[simp] theorem retryTag_rose {pq : List Leaf} {s : State} (op : Op) (earlier : List Need) (h : Rose pq s) :
    Rose pq (retryTag op earlier s) := by
  simp only [retryTag]
  (repeat' split) <;> simp (maxDischargeDepth := 20) [h]

@[simp] theorem retryOp_rose {pq : List Leaf} {s : State} (op : Op) (earlier : List Need) (h : Rose pq s) :
    Rose pq (retryOp op earlier s) := by
  unfold retryOp
  split
  · simp [h]
  · split
    · simp [h]
    next e =>
      split
      · exact wakeCommits_rose (objectPlan_rose e rfl (by simp [h]))
      · split <;> simp [h]

theorem retryOrder_rose {pq : List Leaf} {s : State} {activate : Op → State → State}
    (ha : ∀ op s, Rose pq s → Rose pq (activate op s)) (l : List Nat) (earlier : List Need) (h : Rose pq s) :
    Rose pq (retryOrder activate l earlier s) := by
  induction l generalizing s earlier with
  | nil => exact h
  | cons k l ih =>
    simp only [retryOrder]
    (repeat' split) <;> simp (maxDischargeDepth := 20) [ih, ha, h]

@[simp] theorem dropUnused_rose {pq : List Leaf} {s : State} (h : Rose pq s) :
    Rose pq (dropUnused s) := by
  simp (maxDischargeDepth := 20) [dropUnused, h]

@[simp] theorem serveSeeds_rose {pq : List Leaf} {s : State} (h : Rose pq s) :
    Rose pq (serveSeeds s) := by
  simp (maxDischargeDepth := 20) [serveSeeds, h]

@[simp] theorem countSeconds_rose {pq : List Leaf} {s : State} (h : Rose pq s) :
    Rose pq (countSeconds s) := by
  simp (maxDischargeDepth := 20) [countSeconds, h]

@[simp] theorem setInactive_rose {pq : List Leaf} {s : State} (x : Slot) (h : Rose pq s) :
    Rose pq (setInactive x s) := by
  simp (maxDischargeDepth := 20) [setInactive, h]

@[simp] theorem activate_rose {pq : List Leaf} {s : State} (op : Op) (h : Rose pq s) :
    Rose pq (activate op s) := by
  simp (maxDischargeDepth := 20) [activate, h]

@[simp] theorem retryWaits_rose {pq : List Leaf} {s : State} (h : Rose pq s) : Rose pq (retryWaits s) := by
  have h1 := retryOrder_rose (pq := pq) (activate := activate) (fun _ _ h => by simp [h]) (admitRepairs s).hif.energyOrder []
    (admitRepairs_rose h)
  simp (maxDischargeDepth := 20) [retryWaits, h1]

@[simp] theorem queueInternal_rose {pq : List Leaf} {s : State} (kind block : Nat) (forced : Bool) (h : Rose pq s) :
    Rose pq (queueInternal kind block forced s) := by
  unfold queueInternal
  (repeat' split) <;> simp (maxDischargeDepth := 20) [h]

@[simp] theorem checkCopy_rose {pq : List Leaf} {s : State} (block : Nat) (h : Rose pq s) :
    Rose pq (checkCopy block s) := by
  simp (maxDischargeDepth := 20) [checkCopy, h]

@[simp] theorem checkCopies_rose {pq : List Leaf} {s : State} (h : Rose pq s) :
    Rose pq (checkCopies s) := by
  simp (maxDischargeDepth := 20) [checkCopies, h]

@[simp] theorem moveGroup_rose {pq : List Leaf} {s : State} (g e gap : Nat) (h : Rose pq s) :
    Rose pq (moveGroup g e gap s) := by
  simp (maxDischargeDepth := 20) [moveGroup, h]

@[simp] theorem moveOff_rose {pq : List Leaf} {s : State} (l : List Nat) (h : Rose pq s) : Rose pq (moveOff l s) := by
  induction l generalizing s with
  | nil => exact h
  | cons g l ih =>
    unfold moveOff
    split
    · dsimp only
      split
      · exact ih (by simp (maxDischargeDepth := 20) [h])
      · exact ih h
    · exact h

@[simp] theorem tendDrain_rose {pq : List Leaf} {s : State} (h : Rose pq s) : Rose pq (tendDrain s) := by
  unfold tendDrain
  (repeat' split) <;> simp [h]

@[simp] theorem endScan_rose {pq : List Leaf} {s : State} (h : Rose pq s) :
    Rose pq (endScan s) := by
  unfold endScan
  split <;> simp (maxDischargeDepth := 20) [h]

@[simp] theorem endCompact_rose {pq : List Leaf} {s : State} (h : Rose pq s) :
    Rose pq (endCompact s) := by
  unfold endCompact
  split <;> simp (maxDischargeDepth := 20) [h]

@[simp] theorem checkJournal_rose {pq : List Leaf} {s : State} (h : Rose pq s) :
    Rose pq (checkJournal s) := by
  simp (maxDischargeDepth := 20) [checkJournal, h]

@[simp] theorem tendMaint_rose {pq : List Leaf} {s : State} (h : Rose pq s) :
    Rose pq (tendMaint s) := by
  simp (maxDischargeDepth := 20) [tendMaint, h]

@[simp] theorem background_rose {pq : List Leaf} {s : State} (h : Rose pq s) :
    Rose pq (background s) := by
  simp (maxDischargeDepth := 20) [background, h]

/-! ### Operations on objects -/

/-- An operation on an object leaves them, from its checks on. -/
theorem gatedObject_rose {pq : List Leaf} {s : State} (check : Option Status) (op : Op) (h : Rose pq s) :
    Rose pq (gated check op (startObject op) s) := by
  unfold gated
  split
  · exact refuse_rose _ _ h
  · exact startObject_rose _ h

theorem takePlace_rose {pq : List Leaf} {s : State} (op : Op) (h : Rose pq s) : Rose pq (takePlace op s) := by
  simp (maxDischargeDepth := 20) [takePlace, h]

theorem runCounter_rose {pq : List Leaf} {s : State} (op : Op) (h : Rose pq s) : Rose pq (runCounter [] op s) := by
  unfold runCounter gated
  split
  · exact refuse_rose _ _ h
  · simp only [repairOrSafe_nil]
    exact gatedObject_rose _ _ (takePlace_rose _ h)

theorem runKid_rose {pq : List Leaf} {s : State} (op : Op) (h : Rose pq s) : Rose pq (runKid op s) :=
  gatedObject_rose _ _ h

theorem runParam_rose {pq : List Leaf} {s : State} (op : Op) (h : Rose pq s) : Rose pq (runParam op s) :=
  gatedObject_rose _ _ h

/-- A dispatch leaves them where its effect does. -/
theorem dispatchAt_rose {pq : List Leaf} {p : Op → Bool} {t k : Nat} {run : Op → State → State} {s : State}
    (hr : ∀ op, Rose pq (run op (advance t s))) (h : Rose pq (advance t s)) : Rose pq (dispatchAt p t k run s) := by
  unfold dispatchAt
  (repeat' split) <;> simp [h, hr]

end Sys2Proof.Machine
end

