-- ==== Sys2Proof/Tests/Slice0.lean ====
section
/-!
SUPPORT. Small states, a witness for the hypotheses of every statement, one ill-formed term for every check of WellFormed, and tests of
the codes and the layouts against the numbers that the spec gives. `witness_<Name>` meets, clause by clause, the hypotheses of
`Obligations.<Name>` together; a hypothesis that only names a value used in the conclusion is left out.
-/
namespace Sys2Proof.Tests

open Sys2Proof Sys2Proof.Machine Sys2Proof.Safety

-- one theorem at a time: the evaluations below would else hold their memory together
set_option Elab.async false

/-! ### A part in a session -/

/-- A queue pair of domain 0, its rings of 64 entries. -/
def qpAt (n : Nat) : Qp where
  num := n
  sqBase := 0x10000 + 0x2000 * n
  cqBase := 0x11000 + 0x2000 * n
  sqSize := 64
  cqSize := 64
  limit := 8
  cls := 0
  domain := 0
  vector := n
  coalCount := 0
  coalTime := 0
  tail := 0
  head := 0
  fetched := 0
  written := 0
  stopped := false
  deleting := false
  unsignalled := 0
  oldest := 0
  deficit := 0

/-- An operation on QP 0, fetched as number 9 and READY. -/
def opOf (code : Nat) (obj : W32) (a b c : W64) : Op where
  id := 9
  qp := 0
  cls := 0
  domain := 0
  opcode := code
  flags := 0
  tag := 0x1234
  obj := obj
  a := a
  b := b
  c := c
  silent := false
  batch := false
  st := .ready

/-- A LOOSE counter of number 7 and incarnation 1 at 100 in group 3. -/
def leafA : Leaf where
  num := 7
  inc := 1
  v := 100
  shadow := 100
  cls := .loose
  bound := 0
  v0 := 0
  domain := 0
  group := 3
  closed := false
  inexact := false
  repaired := false
  lastSkip := 0
  totalSkip := 0
  skipPending := false
  defOwed := false
  rate := 0
  windowRise := 0
  slowWindows := 0
  movedAt := none

/-- Its handle. -/
def handleA : W32 := handleOf 7 1

/-- Its group, with a written ceiling of 10,000. -/
def groupA : Group where
  num := 3
  domain := 0
  engine := 0
  key := 0
  liveMax := 100
  dirty := false
  ceiling := some 10000
  ceilQueued := none
  ceilAt := 0
  step := 4096
  rate := 0
  windowRise := 0
  windowOps := 0
  windowOps0 := 0
  lastOps := 0
  lastOps0 := 0
  roseAt := none
  openedAt := 0
  moves := 0
  lastLive := 100
  forMove := none

/-- A tag at position 1 of a port. -/
def posA : Pos where
  idx := 1
  serial := 0x1122334455667788
  family := 1
  model := 2
  known := true
  authed := true
  key := 0
  authDue := 0
  attention := false
  sideBits := []
  sideWait := 0
  side := none
  plug := none
  rekeyed := false
  history := []

/-- Port 0, ON with one tag. -/
def portA : Port := { Port.reset 0 with st := .on, epoch := 1, n := 1, pos := [posA] }

/-- The ports with port 0 as given. -/
def ports (x : Port) : List Port := x :: ((List.range 47).map fun n => Port.reset (n + 1))

/-- A part in a session: every READY bit set, QP 0 and QP 5, one counter, one tag, one DRBG instance, its capacitors full. -/
def inSession : State :=
  { State.reset with
    clk := { Clk.reset with running := true, now := 2 ^ 40, refPresent := true }
    regs := { Regs.reset with portLo := 1 }
    ready := ⟨true, true, true, true, true, true, true, true, false⟩
    hif := { Hif.reset with linkUp := true, qps := [qpAt 0, qpAt 5], nextOp := 10 }
    ctr := { Ctr.reset with leaves := [leafA], groups := [groupA], nextNumber := 8 }
    int := { Internal.reset with posec := 1000, nextDue := 2 ^ 40 }
    owed := { OwedSt.reset with b := 36864, r := 32767, capS := 16383, capB := 16384 }
    hyc := { Hyc.reset with ports := ports portA }
    nsu := { Nsu.reset with powered := true, everReady := true }
    drb := { Drb.reset with instances := [⟨2, 1, 0, 0, 0, 0, false⟩], nextNum := 3 }
    pmu := { Pmu.reset with phase := .running, vin := 12000, vhold := 11000, chargerOn := true, measured := true, reached := true
                            cMeas := 1000, quickDone := true } }

/-- The same with one operation fetched. -/
def withOp (op : Op) (s : State) : State := { s with hif := { s.hif with ops := [op] } }

/-- Key identifier 8 of domain 0, as given. -/
def withKid (st : KidSt) (gen : W32) (mask : W64) : State :=
  { inSession with kit := { inSession.kit with kids := [⟨8, st, gen, 0, mask, false⟩] } }

/-- One seed in class S. -/
def withSeed : State := { inSession with nsu := { inSession.nsu with queueS := [7] } }

/-- Fourteen dailies. -/
def withDaily : State := { inSession with hmu := { inSession.hmu with dailies := (List.range 14).map fun d => (d, []) } }

/-- A scan queued under ticket 2. -/
def maintA : Maint := ⟨3, 0, 0, 2, false, none, 0, 0⟩

def withMaint : State := { inSession with mnt := { Mnt.reset with queue := [maintA] } }

/-- The bases in effect, HOIST at 0x1000. -/
def polled : State :=
  { inSession with regs := { inSession.regs with hoist := ⟨0x1000, 0, some 0x1000⟩, adminSq := ⟨0x10000, 0, some 0x10000⟩
                                                 adminCq := ⟨0x11000, 0, some 0x11000⟩, eventRing := ⟨0x20000, 0, some 0x20000⟩ } }

/-- No QP yet. -/
def beforeSetup : State := { polled with hif := { polled.hif with qps := [] } }

/-- One descriptor announced on QP 0. -/
def announcedAt : State := { inSession with hif := { inSession.hif with qps := [{ qpAt 0 with tail := 1 }], credits := [8, 4, 2, 1] } }

/-- A fault-storm window of one report, opened then. -/
def windowA (opened : Nat) : Window := ⟨0, 3, 0, opened, 1, 1, handleA, handleA, false⟩

/-- A record of one slot, of two slots, of one slot in bank 2, and of one slot copied forward, being programmed. -/
def progA : Prog := ⟨0, 3, 5, 0, ⟨1, 5, .leaf 7 false⟩, ⟨6, 0, false, 9, handleA, List.replicate 12 0, List.replicate 8 0⟩⟩
def progLong : Prog := { progA with record := { progA.record with payload := List.replicate 44 0 } }
def progQ : Prog := { progA with bank := 2 }
def progF : Prog := { progA with write := ⟨2, 5, .forward 1 4 9⟩ }
def programming (p : Prog) : State :=
  { inSession with jrn := { inSession.jrn with progs := [p], sectors := [⟨0, 3, .inUse, 10, 0, 1, 0, 6, false, 1, 0, 0⟩] } }

/-- A sector that is being erased. -/
def sectorA : Sector := ⟨0, 3, .erasing, 10, 0, 0, 0, 0, false, 0, 0, 0⟩
def erasing : State := { inSession with jrn := { inSession.jrn with sectors := [sectorA] } }

/-- A slow LOOSE counter and a slower group beside its own. -/
def leafSlow : Leaf := { leafA with slowWindows := 8 }
def groupB : Group := { groupA with num := 4, liveMax := 50 }
def slowOne : State := { inSession with ctr := { inSession.ctr with leaves := [leafSlow], groups := [groupA, groupB] } }

/-- A BOUNDED counter that its group leaves uncovered, while the BOUNDED set has no room. -/
def leafWide : Leaf := { leafA with cls := .bounded, bound := 10 }
def groupWide : Group := { groupA with liveMax := 200 }
def pressed (gs : List Group) : State :=
  { inSession with ctr := { inSession.ctr with leaves := [leafWide], groups := gs }
                   owed := { inSession.owed with capB := 1, bounded := [7] } }

/-- An activity that runs. -/
def bistReq : Maint := ⟨1, 0, 0, 2, false, none, 0, 0⟩
def runs (m : Maint) (test : Option BistStart) (drawing : Bool) (draws : Nat) : Running :=
  ⟨m, 0, test, false, 0, draws, drawing, 0, 0, 0, 0, 0, [(0, 3)]⟩
def maintains (m : Maint) (test : Option BistStart) (drawing : Bool) (draws : Nat) : State :=
  { inSession with mnt := { Mnt.reset with running := some (runs m test drawing draws) } }

/-- An activity that runs over one full sector without live records. -/
def sectorB : Sector := ⟨0, 3, .inUse, 10, 0, 1, 0, 1023, true, 0, 0, 0⟩
def maintainsOver (m : Maint) : State :=
  { maintains m none false 0 with jrn := { inSession.jrn with sectors := [sectorB] } }

/-- The part at a phase of its start, and at the end of replay with one sector that holds a passed self-test. -/
def atPhase (p : Phase) : State := { inSession with pmu := { inSession.pmu with phase := p, reached := true } }
def passedTest : List Byte := withMac (leBytes 32 0) (recordBytes 10 0 false 1 1 ([0, 1] ++ List.replicate 42 0))
def atReplay : State :=
  { atPhase .replaying with
    jrn := { inSession.jrn with
      sectors := [⟨0, 3, .inUse, 10, 0, 1, 0, 3, false, 0, 0, 0⟩]
      flash := [⟨0, 3, 0, some (withMac (leBytes 32 0) (headerFields 0 3 10 0 1 0))⟩, ⟨0, 3, 1, some (passedTest.take 32)⟩,
                ⟨0, 3, 2, some (passedTest.drop 32)⟩] } }
def shuttingDown : State :=
  withOp { opOf 0x05 0 0 0 0 with st := .shutdown }
    { inSession with hmu := { inSession.hmu with bistRuns := true, bistAt := some ⟨0, 0, 0, 0⟩ } }

/-- Every noise source in one state. -/
def withSources (st : SrcSt) : State :=
  { inSession with nsu := { inSession.nsu with sources := (List.range 10).map fun c => { Source.reset c with st := st } } }

/-- Port 0 as given. -/
def withPort (x : Port) : State := { inSession with hyc := { inSession.hyc with ports := ports x } }

/-- An AUTH with the tag at position 1 under a key and a challenge of zeros. -/
def authE : Exch := ⟨.auth, 1, .sched, 1, 0, 0, 1, 0, none⟩
def portAsks (e : Exch) : Port := { portA with act := .exch e }
def asks (e : Exch) : State := withPort (portAsks e)

/-- A bit and a byte as a tag sends it, bit 0 first: pulses of 3 mA, early for 0 and late for 1 (R214, R215, R217). -/
def sendBit (v : Bool) : List Nat :=
  List.replicate (if v then 40 else 8) 0 ++ List.replicate 16 3000 ++ List.replicate (if v then 8 else 40) 0
def sendByte (v : Byte) : List Nat := (List.range 8).flatMap fun i => sendBit (v.getLsbD i)

/-- No current for two bit times. -/
def quiet : List Nat := List.replicate 128 0

/-- An answer frame: its bytes, then their CRC, low byte first (R219); and an answer phase without one. -/
def answer (bs : List Byte) : Uplink := ⟨quiet, (bs ++ leBytes 2 (crc16 bs)).map sendByte⟩
def noAnswer : Uplink := ⟨quiet, []⟩

/-- Right answers of the tag (R225, R243). -/
def identityA : List Byte := leBytes 8 0x1122334455667788 ++ leBytes 2 1 ++ [2, 0]
def authA : List Byte := [0] ++ leBytes 4 7 ++ authMac 0 0 0x1122334455667788 7
def limitA : List Byte := [0] ++ leBytes 4 500 ++ limitMac 0 0 0x1122334455667788 500
def consumeA : List Byte := [0] ++ leBytes 4 7 ++ leBytes 4 7 ++ consumeMac 0 0 0x1122334455667788 0 7 7

/-- An event. -/
def eventA : Event := ⟨0x0101, 0, false, 0, 0, []⟩

/-- An operation that a FENCE holds. -/
def heldOp : Op := { opOf 0x04 0 0 0 64 with st := .held }


/-- An image of version 1 and no body but zeros, signed with a key of this test, and fuses that accept that key (R309). -/
def imageA : List Byte :=
  leBytes 4 0x314D4448 ++ leBytes 4 1 ++ leBytes 4 1 ++ leBytes 52 512 ++
    ofNats (beBytes 32 0xD28208058B63ADEE9E31410BCD8126ED470152B0C9D49B757EEA885E98E8825E) ++
    ofNats (beBytes 32 0x796DCD0D2FBF9986FDB5BAAEA8B93FDDD21594DFA62C64A2B74FE3FB388409FC) ++
    ofNats (beBytes 64 (0x5341E6B2646979A70E57653007A1F310169421EC9BDD9F1A5648F75ADE005AF1 * 2 ^ 256)) ++
    ofNats (beBytes 32 0xB8BED135E5D7B220EBDF6235AD2E31E7B3D00F513A75C54E367A5A84189EC7DB) ++
    ofNats (beBytes 32 0xC28E3BD4E7FE89F49E7DE9E1BC15CAAF65B5DCD2CAD4173A840317BD63E7D797) ++ List.replicate 256 0
def fuseA : Fuses :=
  { Fuses.reset with loadingKey := 0, revoked := [false, true, true, true],
                     keyHashes := [0x758C59D2D5CE69EF95644904327E25DBC77611785FDB39550B058E87E7B937B9] }
def staged : State := { inSession with fuse := fuseA, fw := { Fw.reset with slot1 := ⟨imageA, false⟩ } }

/-- The image passes the checks of R311 whatever the stepping is. -/
theorem imageA_runs : imageRuns fuseA ⟨imageA, false⟩ = true := by
  simp only [imageRuns]
  rw [show imageField ⟨imageA, false⟩ 0x10 4 = 0 by decide +kernel]
  simp only [Nat.zero_le, decide_true, Bool.and_true]; decide +kernel

/-- A family key for family 3, wrapped under the loading key of those fuses (R246). -/
def keyPlain : List Byte := List.replicate 16 0xAB ++ [3, 0, 0, 0, 0, 0, 0, 0]
def keyMemory : HostWrites := ((List.range 32).map fun i => 64 + i).zip (wrapKey (leBytes 32 0) keyPlain)

/-- Engine 0 loaded 600,000 more than the others for three windows, in class 0 or in total, and a group on it with operations (R172). -/
def groupBusy : Group := { groupA with lastOps := 5, lastOps0 := 5 }
def busyEngine (high : Bool) : State :=
  { inSession with
    ctr := { inSession.ctr with
      groups := [groupBusy], gapWindows := 3, gapWindows0 := 3
      engines := { Engine.reset with load := 600000, load0 := if high then 600000 else 0 } :: List.replicate 3 Engine.reset } }

/-- An ACTIVE source with five alarms today, and a SPARE of its kind without (R273). -/
def sourceWorn : Source := { Source.reset 0 with st := .active, today := 5 }
def sourceSpare : Source := { Source.reset 1 with st := .spare }

/-- An operation that answers something answers what it is taken for. -/
theorem some_getD {α : Type} {o : Option α} (d : α) (h : o.isSome = true) : o = some (o.getD d) := by
  cases o with
  | none => cases h
  | some x => rfl

theorem took {o : Option (Nat × Nat × State)} {n i : Nat} (d : State) (h : (o.map fun x => (x.1, x.2.1)) = some (n, i)) :
    o = some (n, i, (o.getD (0, 0, d)).2.2) := by
  cases o with
  | none => exact absurd h (by simp)
  | some x => obtain ⟨rfl, rfl⟩ := Prod.mk.inj (Option.some.inj h); rfl
theorem witness_AdminOperationsComplete :
    (∃ (s : State) (t : Nat) (k : Nat) (op : Op) (u : State), u = advance t s ∧ Dispatched 0x01 k op u ∧ Serving u ∧ u.ready.calib =
    true ∧ qpFields op u = true ∧ domainEnabled u (opBits op.c 18 6) = true) ∧
    (∃ (s : State) (t : Nat) (k : Nat) (op : Op) (u : State), u = advance t s ∧ Dispatched 0x04 k op u ∧ u.ready.calib = true ∧
    fieldsFree op 0 0 0 allBits = true ∧ op.c.toNat % 32 = 0) ∧
    (∃ (s : State) (t : Nat) (k : Nat) (op : Op) (u : State), u = advance t s ∧ Dispatched 0x06 k op u ∧ Serving u ∧ u.ready.journal
    = true ∧ fieldsFree op 0 0x000000FFFFFFFFFF 0x3FFFFFFF 0 = true ∧ (calendar u < op.a.toNat ∨ calendar u = op.a.toNat ∧
    calendarClk u ≤ op.b.toNat)) ∧
    (∃ (s : State) (t : Nat) (k : Nat) (op : Op) (u : State), u = advance t s ∧ Dispatched 0x0A k op u ∧ Serving u ∧ u.ready.journal
    = true ∧ domainFields op u = true) :=
  ⟨⟨withOp (opOf 0x01 7 0x40000 0x42000 0x800) inSession, 0, 9, opOf 0x01 7 0x40000 0x42000 0x800, _, rfl, by decide, by decide,
  by decide, by decide, by decide⟩,
   ⟨withOp (opOf 0x04 0 0 0 32) inSession, 0, 9, opOf 0x04 0 0 0 32, _, rfl, by decide, by decide, by decide, by decide⟩,
   ⟨withOp (opOf 0x06 0 2000 0 0) inSession, 0, 9, opOf 0x06 0 2000 0 0, _, rfl, by decide, by decide, by decide, by decide,
   by decide⟩,
   ⟨withOp (opOf 0x0A 3 10 0 1) inSession, 0, 9, opOf 0x0A 3 10 0 1, _, rfl, by decide, by decide, by decide, by decide⟩⟩

theorem witness_QpDeleteEndsWithTheLastOperation :
    (∃ (s : State) (t : Nat) (k : Nat) (op : Op) (q : Qp) (u : State), u = advance t s ∧ Dispatched 0x02 k op u ∧ Serving u ∧
    u.ready.calib = true ∧ fieldsFree op allObj 0 0 0 = true ∧ op.obj ≠ 0 ∧ findQp u op.obj.toNat = some q) ∧
    (∃ (n : _) (u : State), qpOps u n ≠ []) ∧
    (∃ (n : _) (op : Op) (resA : _) (resB : _) (u : State), qpOps u n = [] ∧ op ∈ u.hif.ops ∧ op.opcode = 0x02 ∧ op.obj.toNat = n ∧
    op.st = .deleting resA resB ∧ (∀ o ∈ u.hif.ops, ∀ a b, o.st = .deleting a b → o.obj.toNat = n → o = op)) :=
  ⟨⟨withOp (opOf 0x02 5 0 0 0) inSession, 0, 9, opOf 0x02 5 0 0 0, qpAt 5, _, rfl, by decide, by decide, by decide, by decide,
  by decide, by decide⟩,
   ⟨0, withOp (opOf 0x02 5 0 0 0) inSession, by decide⟩,
   ⟨5, { opOf 0x02 5 0 0 0 with st := .deleting 0 0 }, 0, 0, withOp { opOf 0x02 5 0 0 0 with st := .deleting 0 0 } inSession,
   by decide, by decide, by decide, by decide, by decide, fun _ h _ _ _ _ => List.mem_singleton.mp h⟩⟩

theorem witness_FirmwareAndFamilyKeysComplete :
    (∃ (s : State) (t : Nat) (k : Nat) (hw : _) (op : Op) (u : State), u = advance t (hostWrites hw s) ∧ Dispatched 0x07 k op u ∧
    Serving u ∧ u.ready.journal = true ∧ u.fw.pending = false ∧ stageFields op u = true) ∧
    (∃ (s : State) (t : Nat) (k : Nat) (op : Op) (u : State), u = advance t s ∧ Dispatched 0x08 k op u ∧ Serving u ∧ u.ready.journal
    = true ∧ fieldsFree op 0 0 0 0 = true ∧ imageRuns u.fuse (inactiveSlot u) = true ∧ u.int.antiRoll ≤ slotVersion (inactiveSlot u)
    ∧ Admitted ⟨slotsNeeded .antiRoll u, 0, true⟩ u) ∧
    (∃ (s : State) (t : Nat) (k : Nat) (hw : _) (op : Op) (plain : _) (u : State), u = advance t (hostWrites hw s) ∧ Dispatched 0x09
    k op u ∧ Serving u ∧ u.ready.journal = true ∧ fieldsFree op 0xF 0 0 allBits = true ∧ op.c.toNat % 32 = 0 ∧ unwrapKey (leBytes 32
    u.fuse.loadingKey.toNat) (readHost u op.c.toNat 32) = some plain ∧ keyFits op.obj.toNat plain = true) :=
  ⟨⟨withOp (opOf 0x07 0 0 4096 0) inSession, 0, 9, [], opOf 0x07 0 0 4096 0, _, rfl, by decide, by decide, by decide, by decide,
  by decide⟩,
   ⟨withOp (opOf 0x08 0 0 0 0) staged, 0, 9, opOf 0x08 0 0 0 0, _, rfl, by decide +kernel, by decide +kernel, by decide +kernel,
   by decide +kernel, imageA_runs, by decide +kernel, by decide +kernel⟩,
   ⟨withOp (opOf 0x09 3 0 0 64) { inSession with fuse := fuseA }, 0, 9, keyMemory, opOf 0x09 3 0 0 64, keyPlain, _, rfl,
   by decide +kernel, by decide +kernel, by decide +kernel, by decide +kernel, by decide +kernel, by decide +kernel,
   by decide +kernel⟩⟩

theorem witness_ShutdownAndUnknownOpcodes :
    (∃ (s : State) (t : Nat) (k : Nat) (op : Op) (u : State), u = advance t s ∧ Dispatched 0x05 k op u ∧ Serving u ∧
    u.ready.counters = true ∧ fieldsFree op 0 0 0 0 = true ∧ u.flush.why = .none) ∧
    (∃ (s : State) (t : Nat) (k : Nat) (op : Op) (u : State), u = advance t s ∧ findOp u k = some op ∧ dispatchable op u = true ∧
    isBadOpcode op = true) :=
  ⟨⟨withOp (opOf 0x05 0 0 0 0) inSession, 0, 9, opOf 0x05 0 0 0 0, _, rfl, by decide, by decide, by decide, by decide, by decide⟩,
   ⟨withOp (opOf 0x70 0 0 0 0) inSession, 0, 9, opOf 0x70 0 0 0 0, _, rfl, by decide, by decide, by decide⟩⟩

theorem witness_CounterRisesComplete :
    (∃ (s : State) (t : Nat) (k : Nat) (op : Op) (l : Leaf) (u : State) (w : State), u = advance t s ∧ w = takePlace op u ∧
    Dispatched 0x13 k op u ∧ ctrGate op u = none ∧ openTarget op w = .ok l ∧ l.v.toNat + op.a.toNat ≤ maxV ∧ Admitted (riseNeed w l
    (l.v.toNat + op.a.toNat)) w) ∧
    (∃ (s : State) (t : Nat) (k : Nat) (op : Op) (l : Leaf) (u : State) (w : State), u = advance t s ∧ w = takePlace op u ∧
    Dispatched 0x12 k op u ∧ ctrGate op u = none ∧ openTarget op w = .ok l ∧ l.v.toNat + op.a.toNat ≤ maxV ∧ Admitted (riseNeed w l
    (l.v.toNat + op.a.toNat)) w) ∧
    (∃ (s : State) (t : Nat) (k : Nat) (op : Op) (l : Leaf) (u : State) (w : State), u = advance t s ∧ w = takePlace op u ∧
    Dispatched 0x14 k op u ∧ ctrGate op u = none ∧ openTarget op w = .ok l ∧ l.v.toNat < op.a.toNat ∧ Admitted (riseNeed w l
    op.a.toNat) w) ∧
    (∃ (s : State) (t : Nat) (k : Nat) (op : Op) (l : Leaf) (u : State) (w : State), u = advance t s ∧ w = takePlace op u ∧
    Dispatched 0x14 k op u ∧ ctrGate op u = none ∧ openTarget op w = .ok l ∧ op.a.toNat ≤ l.v.toNat ∧ w.owed.frozen = false) ∧
    (∃ (s : State) (t : Nat) (k : Nat) (op : Op) (l : Leaf) (v : _) (u : State) (w : State), u = advance t s ∧ w = takePlace op u ∧
    Dispatched 0x25 k op u ∧ ctrGate op u = none ∧ openTarget op w = .ok l ∧ l.cls = .loose ∧ v = min (l.v.toNat + opBits op.a 0 32)
    maxV ∧ Admitted (riseNeed w l v) w) :=
  ⟨⟨withOp (opOf 0x13 handleA 50 0 0) inSession, 0, 9, opOf 0x13 handleA 50 0 0, leafA, _, _, rfl, rfl, by decide, by decide,
  by decide, by decide, by decide⟩,
   ⟨withOp (opOf 0x12 handleA 50 0 0) inSession, 0, 9, opOf 0x12 handleA 50 0 0, leafA, _, _, rfl, rfl, by decide, by decide,
   by decide, by decide, by decide⟩,
   ⟨withOp (opOf 0x14 handleA 150 0 0) inSession, 0, 9, opOf 0x14 handleA 150 0 0, leafA, _, _, rfl, rfl, by decide, by decide,
   by decide, by decide, by decide⟩,
   ⟨withOp (opOf 0x14 handleA 50 0 0) inSession, 0, 9, opOf 0x14 handleA 50 0 0, leafA, _, _, rfl, rfl, by decide, by decide,
   by decide, by decide, by decide⟩,
   ⟨withOp (opOf 0x25 handleA 0x300000009 3 0) inSession, 0, 9, opOf 0x25 handleA 0x300000009 3 0, leafA, _, _, _, rfl, rfl,
   by decide, by decide, by decide, by decide, rfl, by decide⟩⟩

theorem witness_CounterReadsComplete :
    (∃ (s : State) (t : Nat) (k : Nat) (op : Op) (l : Leaf) (u : State) (w : State), u = advance t s ∧ w = takePlace op u ∧
    Dispatched 0x11 k op u ∧ ctrGate op u = none ∧ byHandle w op.obj = some l ∧ foreign op l.domain = false ∧ w.owed.frozen = false)
    ∧
    (∃ (s : State) (t : Nat) (k : Nat) (op : Op) (l : Leaf) (g : Group) (u : State) (w : State), u = advance t s ∧ w = takePlace op
    u ∧ Dispatched 0x17 k op u ∧ ctrGate op u = none ∧ openTarget op w = .ok l ∧ findGroup w l.group = some g ∧ w.owed.frozen =
    false) :=
  ⟨⟨withOp (opOf 0x11 handleA 0 0 0) inSession, 0, 9, opOf 0x11 handleA 0 0 0, leafA, _, _, rfl, rfl, by decide, by decide,
  by decide, by decide, by decide⟩,
   ⟨withOp (opOf 0x17 handleA 0 0 64) inSession, 0, 9, opOf 0x17 handleA 0 0 64, leafA, groupA, _, _, rfl, rfl, by decide,
   by decide, by decide, by decide, by decide⟩⟩

theorem witness_CounterCreateCloseReclassComplete :
    (∃ (s : State) (t : Nat) (k : Nat) (op : Op) (cls : _) (n : _) (inc : _) (g : Nat) (u : State) (w : State) (x : State), u =
    advance t s ∧ w = takePlace op u ∧ Dispatched 0x10 k op u ∧ ctrGate op u = none ∧ clsOf (opBits op.c 0 2) = some cls ∧ classFull
    w op.domain cls true = false ∧ takeNumber w = some (n, inc, x) ∧ chooseGroup w op.domain cls op.a.toNat op.b.toNat (BitVec.ofNat
    32 (opBits op.c 32 32)) = .existing g ∧ Admitted ⟨2, 0, ceilingAllows w g op.a.toNat⟩ w) ∧
    (∃ (s : State) (t : Nat) (k : Nat) (op : Op) (l : Leaf) (u : State) (w : State), u = advance t s ∧ w = takePlace op u ∧
    Dispatched 0x15 k op u ∧ ctrGate op u = none ∧ openTarget op w = .ok l ∧ Admitted ⟨slotsNeeded (.leaf l.num true) w, 0, true⟩ w)
    ∧
    (∃ (s : State) (t : Nat) (k : Nat) (op : Op) (l : Leaf) (cls : _) (g : Group) (u : State) (w : State), u = advance t s ∧ w =
    takePlace op u ∧ Dispatched 0x16 k op u ∧ ctrGate op u = none ∧ openTarget op w = .ok l ∧ clsOf (opBits op.a 0 2) = some cls ∧
    reclassAllowed l cls op.b.toNat = true ∧ (classFull w op.domain cls false = false ∨ l.cls = cls) ∧ findGroup w l.group = some g
    ∧ uncoveredAt g.liveMax.toNat { l with cls := cls, bound := op.b.toNat } = false ∧ Admitted ⟨slotsNeeded (.leaf l.num true) w,
    0, true⟩ w) :=
  ⟨⟨withOp (opOf 0x10 0 5 0 0) inSession, 0, 9, opOf 0x10 0 5 0 0, .loose, 8, 1, 3, _, _, ((takeNumber (takePlace (opOf 0x10 0 5 0
  0) (advance 0 (withOp (opOf 0x10 0 5 0 0) inSession)))).getD (0, 0, inSession)).2.2, rfl, rfl, by decide +kernel,
  by decide +kernel, by decide +kernel, by decide +kernel, took _ (by decide +kernel), by decide +kernel, by decide +kernel⟩,
   ⟨withOp (opOf 0x15 handleA 0 0 0) inSession, 0, 9, opOf 0x15 handleA 0 0 0, leafA, _, _, rfl, rfl, by decide, by decide,
   by decide, by decide⟩,
   ⟨withOp (opOf 0x16 handleA 2 0 0) inSession, 0, 9, opOf 0x16 handleA 2 0 0, leafA, .strict, groupA, _, _, rfl, rfl, by decide,
   by decide, by decide, by decide, by decide, by decide, by decide, by decide, by decide⟩⟩

theorem witness_KeyIdentifierOperationsComplete :
    (∃ (s : State) (t : Nat) (k : Nat) (op : Op) (x : Kid) (u : State), u = advance t s ∧ Dispatched 0x20 k op u ∧ kidGate op u =
    none ∧ x = kidOf u (kidNumber op) ∧ x.st = .free ∧ x.retired = false ∧ kidQuotaFull u op.domain = false ∧ Admitted ⟨slotsNeeded
    (.kid x.num) u, 0, true⟩ u) ∧
    (∃ (s : State) (t : Nat) (k : Nat) (op : Op) (x : Kid) (u : State), u = advance t s ∧ Dispatched 0x21 k op u ∧ kidGate op u =
    none ∧ x = kidOf u (kidNumber op) ∧ x.st = .live ∧ foreign op x.domain = false ∧ x.gen = BitVec.truncate 32 op.b ∧ Admitted
    ⟨slotsNeeded (.kid x.num) u, 0, true⟩ u) ∧
    (∃ (s : State) (t : Nat) (k : Nat) (op : Op) (x : Kid) (u : State), u = advance t s ∧ Dispatched 0x22 k op u ∧ kidGate op u =
    none ∧ x = kidOf u (kidNumber op) ∧ x.st = .draining ∧ foreign op x.domain = false ∧ x.gen = BitVec.truncate 32 op.b ∧ x.mask
    &&& unitBit (opBits op.a 0 6) ≠ 0 ∧ Admitted ⟨slotsNeeded (.kid x.num) u, 0, true⟩ u) ∧
    (∃ (s : State) (t : Nat) (k : Nat) (op : Op) (x : Kid) (u : State), u = advance t s ∧ Dispatched 0x23 k op u ∧ kidGate op u =
    none ∧ x = kidOf u (kidNumber op) ∧ x.st = .draining ∧ foreign op x.domain = false ∧ x.gen = BitVec.truncate 32 op.b ∧ x.mask
    &&& ~~~op.a = 0 ∧ (∀ o ∈ u.hif.ops, o.opcode = 0x23 → o.id ≠ op.id → kidNumber o = x.num → isWaiting u o = false) ∧ Admitted
    ⟨slotsNeeded (.kid x.num) u, 0, true⟩ u) ∧
    (∃ (s : State) (t : Nat) (k : Nat) (op : Op) (x : Kid) (u : State), u = advance t s ∧ Dispatched 0x23 k op u ∧ kidGate op u =
    none ∧ x = kidOf u (kidNumber op) ∧ x.st = .draining ∧ foreign op x.domain = false ∧ x.gen = BitVec.truncate 32 op.b ∧ x.mask
    &&& ~~~op.a ≠ 0 ∧ (∀ o ∈ u.hif.ops, o.opcode = 0x23 → o.id ≠ op.id → kidNumber o = x.num → isWaiting u o = false) ∧
    u.owed.frozen = false) ∧
    (∃ (s : State) (t : Nat) (k : Nat) (op : Op) (x : Kid) (u : State), u = advance t s ∧ Dispatched 0x24 k op u ∧ kidGate op u =
    none ∧ x = kidOf u (kidNumber op) ∧ kidForeign op x = false ∧ u.owed.frozen = false) :=
  ⟨⟨withOp (opOf 0x20 9 1 0 0) inSession, 0, 9, opOf 0x20 9 1 0 0, _, _, rfl, by decide, by decide, rfl, by decide, by decide,
  by decide, by decide⟩,
   ⟨withOp (opOf 0x21 8 0 3 0) (withKid .live 3 1), 0, 9, opOf 0x21 8 0 3 0, _, _, rfl, by decide, by decide, rfl, by decide,
   by decide, by decide, by decide⟩,
   ⟨withOp (opOf 0x22 8 0 3 0) (withKid .draining 3 1), 0, 9, opOf 0x22 8 0 3 0, _, _, rfl, by decide, by decide, rfl, by decide,
   by decide, by decide, by decide, by decide⟩,
   ⟨withOp (opOf 0x23 8 0xF0 3 0) (withKid .draining 3 0), 0, 9, opOf 0x23 8 0xF0 3 0, _, _, rfl, by decide, by decide, rfl,
   by decide, by decide, by decide, by decide, by decide, by decide⟩,
   ⟨withOp (opOf 0x23 8 0xF0 3 0) (withKid .draining 3 1), 0, 9, opOf 0x23 8 0xF0 3 0, _, _, rfl, by decide, by decide, rfl,
   by decide, by decide, by decide, by decide, by decide, by decide⟩,
   ⟨withOp (opOf 0x24 8 0 0 0) inSession, 0, 9, opOf 0x24 8 0 0 0, _, _, rfl, by decide, by decide, rfl, by decide, by decide⟩⟩

theorem witness_HalyardOperationsComplete :
    (∃ (s : State) (t : Nat) (k : Nat) (op : Op) (x : _) (y : _) (u : State), u = advance t s ∧ Dispatched 0x33 k op u ∧ tagGate op
    u = none ∧ findPort u (opPort op) = some x ∧ staleEpoch op x = false ∧ tagAbsent op x = false ∧ findPos x (opPos op) = some y) ∧
    (∃ (s : State) (t : Nat) (k : Nat) (op : Op) (x : _) (y : _) (u : State), u = advance t s ∧ Dispatched 0x34 k op u ∧ tagGate op
    u = none ∧ findPort u (opPort op) = some x ∧ staleEpoch op x = false ∧ tagAbsent op x = false ∧ findPos x (opPos op) = some y) ∧
    (∃ (s : State) (t : Nat) (k : Nat) (op : Op) (x : _) (u : State), u = advance t s ∧ Dispatched 0x31 k op u ∧ tagGate op u = none
    ∧ findPort u (opPort op) = some x) ∧
    (∃ (s : State) (t : Nat) (k : Nat) (op : Op) (x : _) (u : State), u = advance t s ∧ Dispatched 0x32 k op u ∧ tagGate op u = none
    ∧ findPort u (opPort op) = some x) ∧
    (∃ (s : State) (t : Nat) (k : Nat) (op : Op) (x : _) (u : State), u = advance t s ∧ Dispatched 0x30 k op u ∧ tagGate op u = none
    ∧ findPort u (opPort op) = some x) ∧
    (∃ (s : State) (t : Nat) (k : Nat) (op : Op) (x : _) (u : State), u = advance t s ∧ Dispatched 0x35 k op u ∧ tagGate op u = none
    ∧ findPort u (opPort op) = some x ∧ x.queue = [] ∧ x.act = .idle ∧ x.leaving = false) :=
  ⟨⟨withOp (opOf 0x33 0x100 0 1 64) inSession, 0, 9, opOf 0x33 0x100 0 1 64, portA, posA, _, rfl, by decide, by decide, by decide,
  by decide, by decide, by decide⟩,
   ⟨withOp (opOf 0x34 0x100 0 1 0) inSession, 0, 9, opOf 0x34 0x100 0 1 0, portA, posA, _, rfl, by decide, by decide, by decide,
   by decide, by decide, by decide⟩,
   ⟨withOp (opOf 0x31 0x100 0 1 0) inSession, 0, 9, opOf 0x31 0x100 0 1 0, portA, _, rfl, by decide, by decide, by decide⟩,
   ⟨withOp (opOf 0x32 0x100 1 1 0) inSession, 0, 9, opOf 0x32 0x100 1 1 0, portA, _, rfl, by decide, by decide, by decide⟩,
   ⟨withOp (opOf 0x30 0 0 0 0) inSession, 0, 9, opOf 0x30 0 0 0 0, portA, _, rfl, by decide, by decide, by decide⟩,
   ⟨withOp (opOf 0x35 0 1 0 0) inSession, 0, 9, opOf 0x35 0 1 0 0, portA, _, rfl, by decide, by decide, by decide, by decide,
   by decide, by decide⟩⟩

theorem witness_DrbgOperationsComplete :
    (∃ (s : State) (t : Nat) (k : Nat) (hw : _) (op : Op) (n : _) (inc : _) (e : _) (rest : _) (u : State) (w : State), u = advance
    t (hostWrites hw s) ∧ Dispatched 0x41 k op u ∧ drbgGate op u = none ∧ drbgFull u op.domain = false ∧ u.nsu.waitS = [] ∧
    internalWantsS u = false ∧ u.nsu.queueS = e :: rest ∧ takeInstance
    { setOpSt op.id (.random u.clk.now) u with nsu := { u.nsu with waitS := [op.id], queueS := rest } } = some (n, inc, w)) ∧
    (∃ (s : State) (t : Nat) (k : Nat) (hw : _) (op : Op) (d : _) (u : State), u = advance t (hostWrites hw s) ∧ Dispatched 0x42 k
    op u ∧ drbgGate op u = none ∧ findDrbg u op.obj = some d ∧ d.domain = op.domain ∧ op.a.getLsbD 13 = false ∧ d.requests < 2 ^ 48)
    ∧
    (∃ (s : State) (t : Nat) (k : Nat) (hw : _) (op : Op) (d : _) (e : _) (rest : _) (u : State), u = advance t (hostWrites hw s) ∧
    Dispatched 0x43 k op u ∧ drbgGate op u = none ∧ findDrbg u op.obj = some d ∧ d.domain = op.domain ∧ u.nsu.waitS = [] ∧
    internalWantsS u = false ∧ u.nsu.queueS = e :: rest) ∧
    (∃ (s : State) (t : Nat) (k : Nat) (op : Op) (d : _) (u : State), u = advance t s ∧ Dispatched 0x44 k op u ∧ drbgGate op u =
    none ∧ findDrbg u op.obj = some d ∧ d.domain = op.domain) :=
  ⟨⟨withOp (opOf 0x41 0 0 0 0) withSeed, 0, 9, [], opOf 0x41 0 0 0 0, 3, 1, 7, [], _, _, rfl, by decide, by decide, by decide,
  by decide, by decide, by decide +kernel, rfl⟩,
   ⟨withOp (opOf 0x42 0x102 32 0 64) inSession, 0, 9, [], opOf 0x42 0x102 32 0 64, ⟨2, 1, 0, 0, 0, 0, false⟩, _, rfl,
   by decide +kernel, by decide +kernel, by decide +kernel, by decide +kernel, by decide +kernel, by decide +kernel⟩,
   ⟨withOp (opOf 0x43 0x102 0 0 0) withSeed, 0, 9, [], opOf 0x43 0x102 0 0 0, ⟨2, 1, 0, 0, 0, 0, false⟩, 7, [], _, rfl,
   by decide +kernel, by decide +kernel, by decide +kernel, by decide +kernel, by decide +kernel, by decide +kernel,
   by decide +kernel⟩,
   ⟨withOp (opOf 0x44 0x102 0 0 0) inSession, 0, 9, opOf 0x44 0x102 0 0 0, ⟨2, 1, 0, 0, 0, 0, false⟩, _, rfl, by decide +kernel,
   by decide +kernel, by decide +kernel, by decide +kernel⟩⟩

theorem witness_ParameterOperationsComplete :
    (∃ (s : State) (t : Nat) (k : Nat) (op : Op) (x : Page) (u : State), u = advance t s ∧ Dispatched 0x50 k op u ∧ paramGate op u =
    none ∧ op.domain = 0 ∧ x = pageOf u (pageNumber op) ∧ x.lost &&& groupMask (touchedGroups op) = 0 ∧ u.owed.frozen = false) ∧
    (∃ (s : State) (t : Nat) (k : Nat) (hw : _) (op : Op) (u : State), u = advance t (hostWrites hw s) ∧ Dispatched 0x51 k op u ∧
    paramGate op u = none ∧ op.domain = 0 ∧ Admitted ⟨slotsNeeded (.page (pageNumber op)) u, 0, true⟩ u) ∧
    (∃ (s : State) (t : Nat) (k : Nat) (op : Op) (u : State), u = advance t s ∧ Dispatched 0x52 k op u ∧ paramGate op u = none ∧
    op.domain = 0 ∧ (u.kit.pages.all fun x => !x.dirty) = true ∧ u.owed.frozen = false) :=
  ⟨⟨withOp (opOf 0x50 3 0x100 0 64) inSession, 0, 9, opOf 0x50 3 0x100 0 64, _, _, rfl, by decide, by decide, by decide, rfl,
  by decide, by decide⟩,
   ⟨withOp (opOf 0x51 3 0x100 0 64) inSession, 0, 9, [], opOf 0x51 3 0x100 0 64, _, rfl, by decide, by decide, by decide,
   by decide⟩,
   ⟨withOp (opOf 0x52 3 0 0 0) inSession, 0, 9, opOf 0x52 3 0 0 0, _, rfl, by decide, by decide, by decide, by decide, by decide⟩⟩

theorem witness_ReportsComplete :
    (∃ (s : State) (t : Nat) (k : Nat) (op : Op) (day : _) (payload : _) (u : State), u = advance t s ∧ Dispatched 0x60 k op u ∧
    gate op (healthServed u) u = none ∧ fieldsFree op allObj 0 0 allBits = true ∧ op.c.toNat % 32 = 0 ∧ op.obj ≠ 0xFFFFFFFF ∧
    (u.hmu.dailies.find? fun d => d.1 == op.obj.toNat) = some (day, payload)) ∧
    (∃ (s : State) (t : Nat) (k : Nat) (op : Op) (u : State), u = advance t s ∧ Dispatched 0x60 k op u ∧ gate op (healthServed u) u
    = none ∧ fieldsFree op allObj 0 0 allBits = true ∧ op.c.toNat % 32 = 0 ∧ op.obj = 0xFFFFFFFF) ∧
    (∃ (s : State) (t : Nat) (k : Nat) (op : Op) (i : _) (u : State), u = advance t s ∧ Dispatched 0x61 k op u ∧ gate op
    (healthServed u) u = none ∧ fieldsFree op allObj 0 0 allBits = true ∧ op.c.toNat % 32 = 0 ∧ op.obj ≠ 0xFFFFFFFF ∧ (indicators
    u).find? (fun i => i.code == op.obj.toNat) = some i) ∧
    (∃ (s : State) (t : Nat) (k : Nat) (op : Op) (lower : _) (code : _) (u : State), u = advance t s ∧ Dispatched 0x61 k op u ∧ gate
    op (healthServed u) u = none ∧ fieldsFree op allObj 0 0 allBits = true ∧ op.c.toNat % 32 = 0 ∧ op.obj = 0xFFFFFFFF ∧ lowestBound
    (indicators u) = some (lower, code)) ∧
    (∃ (s : State) (t : Nat) (k : Nat) (op : Op) (m : Maint) (u : State), u = advance t s ∧ Dispatched 0x62 k op u ∧ Serving u ∧
    u.ready.counters = true ∧ maintFields op = true ∧ op.domain = 0 ∧ (¬(maintKind op = 1 ∧ otherBlocks.contains (maintBlock op) =
    true)) ∧ (u.mnt.queue.filter fun m => m.ticket != 0).length < 16 ∧ m =
    { kind := maintKind op, block := if maintKind op ≤ 2 then maintBlock op else 0, mode := if maintKind op = 1 then maintMode op else 0, ticket := u.mnt.nextTicket, forced := false, turn := none, changed := u.clk.now, value := 0 })
    ∧
    (∃ (s : State) (t : Nat) (k : Nat) (op : Op) (u : State), u = advance t s ∧ Dispatched 0x63 k op u ∧ inSafe u = false ∧
    fieldsFree op allObj 0 0 0 = true ∧ op.obj = 0) ∧
    (∃ (s : State) (t : Nat) (k : Nat) (op : Op) (m : _) (u : State), u = advance t s ∧ Dispatched 0x63 k op u ∧ inSafe u = false ∧
    fieldsFree op allObj 0 0 0 = true ∧ op.obj ≠ 0 ∧ (u.mnt.queue.find? fun m => m.ticket == op.obj.toNat) = some m) ∧
    (∃ (s : State) (t : Nat) (k : Nat) (op : Op) (result : _) (time : _) (u : State), u = advance t s ∧ Dispatched 0x63 k op u ∧
    inSafe u = false ∧ fieldsFree op allObj 0 0 0 = true ∧ op.obj ≠ 0 ∧ (u.mnt.queue.find? fun m => m.ticket == op.obj.toNat) = none
    ∧ u.mnt.running = none ∧ (u.mnt.ended.find? fun e => e.1 == op.obj.toNat) = some (op.obj.toNat, result, time)) ∧
    (∃ (s : State) (t : Nat) (k : Nat) (op : Op) (u : State), u = advance t s ∧ Dispatched 0x64 k op u ∧ Serving u ∧
    u.ready.counters = true ∧ reportFields op = true ∧ op.qp = 0 ∧ op.obj.toNat % 256 = 0) ∧
    (∃ (s : State) (t : Nat) (k : Nat) (op : Op) (u : State), u = advance t s ∧ Dispatched 0x64 k op u ∧ Serving u ∧
    u.ready.counters = true ∧ reportFields op = true ∧ op.qp = 0 ∧ op.obj.toNat % 256 = 2) :=
  ⟨⟨withOp (opOf 0x60 4 0 0 64) withDaily, 0, 9, opOf 0x60 4 0 0 64, 4, [], _, rfl, by decide, by decide, by decide, by decide,
  by decide, by decide⟩,
   ⟨withOp (opOf 0x60 0xFFFFFFFF 0 0 64) inSession, 0, 9, opOf 0x60 0xFFFFFFFF 0 0 64, _, rfl, by decide, by decide, by decide,
   by decide, by decide⟩,
   ⟨withOp (opOf 0x61 0x10 0 0 64) withDaily, 0, 9, opOf 0x61 0x10 0 0 64, _, _, rfl, by decide, by decide, by decide, by decide,
   by decide, rfl⟩,
   ⟨withOp (opOf 0x61 0xFFFFFFFF 0 0 64) withDaily, 0, 9, opOf 0x61 0xFFFFFFFF 0 0 64, 0, 0x20, _, rfl, by decide, by decide,
   by decide, by decide, by decide, by decide +kernel⟩,
   ⟨withOp (opOf 0x62 3 0 0 0) inSession, 0, 9, opOf 0x62 3 0 0 0, _, _, rfl, by decide, by decide, by decide, by decide, by decide,
   by decide, by decide, rfl⟩,
   ⟨withOp (opOf 0x63 0 0 0 0) inSession, 0, 9, opOf 0x63 0 0 0 0, _, rfl, by decide, by decide, by decide, by decide⟩,
   ⟨withOp (opOf 0x63 2 0 0 0) withMaint, 0, 9, opOf 0x63 2 0 0 0, maintA, _, rfl, by decide, by decide, by decide, by decide,
   by decide⟩,
   ⟨withOp (opOf 0x63 1 0 0 0) { withMaint with mnt := { Mnt.reset with ended := [(1, 0, 77)] } }, 0, 9, opOf 0x63 1 0 0 0, 0, 77,
   _, rfl, by decide, by decide, by decide, by decide, by decide, by decide, by decide⟩,
   ⟨withOp (opOf 0x64 0 0 0 64) inSession, 0, 9, opOf 0x64 0 0 0 64, _, rfl, by decide, by decide, by decide, by decide, by decide,
   by decide⟩,
   ⟨withOp (opOf 0x64 2 0 0 64) inSession, 0, 9, opOf 0x64 2 0 0 64, _, rfl, by decide, by decide, by decide, by decide, by decide,
   by decide⟩⟩

theorem witness_PollsReadTailWords :
    (∃ (s : State) (t : Nat) (hw : _) (u : State), u = advance t (hostWrites hw s) ∧ polling u = true) ∧
    (∃ (g : Nat) (u : State), readWord u (hoistBase u + 4 * g) ≠ nthOr 0 g u.hif.groupWords ∧ wantsHeads (readTails g
    { u with hif := { u.hif with groupWords := modNth (fun _ => readWord u (hoistBase u + 4 * g)) g u.hif.groupWords } }) g = false
    ∧ (∀ q ∈ (pollGroup g u).hif.qps, q.num / 64 = g)) ∧
    (∃ (g : Nat) (u : State), readWord u (hoistBase u + 4 * g) = nthOr 0 g u.hif.groupWords ∧ wantsHeads (rereadTails g u) g =
    false) ∧
    (∃ (s : State) (t : Nat) (hw : _) (u : State), u = advance t (hostWrites hw s) ∧ polling u = true) :=
  ⟨⟨polled, 0, [], _, rfl, by decide⟩,
   ⟨0, { polled with mem := [⟨0x1000, 1⟩] }, by decide, by decide, by decide⟩,
   ⟨0, polled, by decide, by decide⟩,
   ⟨polled, 0, [], _, rfl, by decide⟩⟩

theorem witness_UnchangedGroupWordsReadNoTails :
    ∃ (s : State) (t : Nat) (hw : _) (u : State), u = advance t (hostWrites hw s) ∧ (∀ g, g < 64 → readWord u (hoistBase u + 4 * g)
    = nthOr 0 g u.hif.groupWords) ∧ (∀ q ∈ u.hif.qps, tailOut q = false) ∧ (∀ g, g < 64 → wantsHeads u g = false) ∧ u.ev.ring = none
    :=
  ⟨polled, 0, [], _, rfl, by decide, by decide, by decide, by decide⟩

theorem witness_FetchAndFenceComplete :
    (∃ (s : State) (t : Nat) (hw : _) (credits : _) (q : Qp) (u : State), u = advance t (hostWrites hw s) ∧ s.hif.linkUp = true ∧
    nextFetch u = some (credits, q)) ∧
    (∃ (s : State) (t : Nat) (q : Nat) (u : State), u = advance t s ∧ fenceDispatchable u q = true) :=
  ⟨⟨announcedAt, 0, [], [8, 4, 2, 1], { qpAt 0 with tail := 1 }, _, rfl, by decide, by decide⟩,
   ⟨withOp { opOf 0x04 0 0 0 64 with st := .held } inSession, 0, 0, _, rfl, by decide⟩⟩

theorem witness_HifHappeningsComplete :
    (∃ (s : State) (t : Nat) (credits : _) (q : Qp) (u : State), u = advance t s ∧ s.hif.linkUp = true ∧ nextFetch u = some
    (credits, q)) ∧
    (∃ (s : State) (t : Nat) (n : _) (q : Qp) (u : State), u = advance t s ∧ findQp u n = some q ∧ q.unsignalled ≠ 0 ∧ q.oldest +
    1024 * q.coalTime ≤ u.clk.now) ∧
    (∃ (s : State) (t : Nat) (u : State), u = advance t s ∧ u.ev.unsignalled ≠ 0 ∧ u.ev.oldest + 1024 * bitsOf u.regs.msixCfg.toNat
    16 16 ≤ u.clk.now) ∧
    (∃ (s : State) (t : Nat) (u : State), u = advance t s ∧ u.ready.sramInit = true) :=
  ⟨⟨announcedAt, 0, [8, 4, 2, 1], { qpAt 0 with tail := 1 }, _, rfl, by decide, by decide⟩,
   ⟨{ inSession with hif := { inSession.hif with qps := [{ qpAt 0 with unsignalled := 1 }] } }, 0, 0,
   { qpAt 0 with unsignalled := 1 }, _, rfl, by decide, by decide, by decide⟩,
   ⟨{ inSession with ev := { inSession.ev with unsignalled := 1 } }, 0, _, rfl, by decide, by decide⟩,
   ⟨inSession, 0, _, rfl, by decide⟩⟩

theorem witness_WaitsEndAtTheirLimitsOnly :
    (∃ (s : State) (t : Nat) (k : Nat) (op : Op) (since : _) (u : State), u = advance t s ∧ findOp u k = some op ∧ op.st = .energy
    since ∧ since + oneMs ≤ u.clk.now) ∧
    (∃ (s : State) (t : Nat) (k : Nat) (op : Op) (deadline : _) (u : State), u = advance t s ∧ findOp u k = some op ∧ op.st =
    .splice deadline ∧ deadline ≤ u.clk.now) ∧
    (∃ (s : State) (t : Nat) (k : Nat) (op : Op) (since : _) (u : State), u = advance t s ∧ findOp u k = some op ∧ op.st = .random
    since ∧ since + tenMs ≤ u.clk.now) ∧
    (∃ (s : State) (t : Nat) (w : Window) (rest : _) (u : State), u = advance t s ∧ u.kit.windows = w :: rest ∧ w.opened + 2 ^ 20 ≤
    u.clk.now ∧ w.overflow = false) ∧
    (∃ (s : State) (t : Nat) (k : Nat) (op : Op) (since : _) (u : State), u = advance t s ∧ findOp u k = some op ∧ op.st = .energy
    since ∧ u.clk.now < since + oneMs) ∧
    (∃ (s : State) (t : Nat) (k : Nat) (op : Op) (deadline : _) (u : State), u = advance t s ∧ findOp u k = some op ∧ op.st =
    .splice deadline ∧ u.clk.now < deadline) ∧
    (∃ (s : State) (t : Nat) (k : Nat) (op : Op) (since : _) (u : State), u = advance t s ∧ findOp u k = some op ∧ op.st = .random
    since ∧ u.clk.now < since + tenMs) ∧
    (∃ (s : State) (t : Nat) (w : Window) (rest : _) (u : State), u = advance t s ∧ u.kit.windows = w :: rest ∧ u.clk.now < w.opened
    + 2 ^ 20) :=
  ⟨⟨withOp { opOf 0x12 handleA 5 0 0 with st := .energy (2 ^ 40 - oneMs) } inSession, 0, 9,
  { opOf 0x12 handleA 5 0 0 with st := .energy (2 ^ 40 - oneMs) }, 2 ^ 40 - oneMs, _, rfl, by decide, by decide, by decide⟩,
   ⟨withOp { opOf 0x23 8 1 0 0 with st := .splice (2 ^ 40) } inSession, 0, 9, { opOf 0x23 8 1 0 0 with st := .splice (2 ^ 40) }, 2 ^
   40, _, rfl, by decide, by decide, by decide⟩,
   ⟨withOp { opOf 0x41 0 0 0 0 with st := .random (2 ^ 40 - tenMs) } inSession, 0, 9,
   { opOf 0x41 0 0 0 0 with st := .random (2 ^ 40 - tenMs) }, 2 ^ 40 - tenMs, _, rfl, by decide, by decide, by decide⟩,
   ⟨{ inSession with kit := { inSession.kit with windows := [windowA (2 ^ 40 - 2 ^ 20)] } }, 0, windowA (2 ^ 40 - 2 ^ 20), [], _,
   rfl, by decide, by decide, by decide⟩,
   ⟨withOp { opOf 0x12 handleA 5 0 0 with st := .energy (2 ^ 40 - oneMs + 1) } inSession, 0, 9,
   { opOf 0x12 handleA 5 0 0 with st := .energy (2 ^ 40 - oneMs + 1) }, 2 ^ 40 - oneMs + 1, _, rfl, by decide, by decide,
   by decide⟩,
   ⟨withOp { opOf 0x23 8 1 0 0 with st := .splice (2 ^ 40 + 1) } inSession, 0, 9,
   { opOf 0x23 8 1 0 0 with st := .splice (2 ^ 40 + 1) }, 2 ^ 40 + 1, _, rfl, by decide, by decide, by decide⟩,
   ⟨withOp { opOf 0x41 0 0 0 0 with st := .random (2 ^ 40 - tenMs + 1) } inSession, 0, 9,
   { opOf 0x41 0 0 0 0 with st := .random (2 ^ 40 - tenMs + 1) }, 2 ^ 40 - tenMs + 1, _, rfl, by decide, by decide, by decide⟩,
   ⟨{ inSession with kit := { inSession.kit with windows := [windowA (2 ^ 40 - 2 ^ 20 + 1)] } }, 0, windowA (2 ^ 40 - 2 ^ 20 + 1),
   [], _, rfl, by decide, by decide⟩⟩

theorem witness_SetupRegisterWritesComplete :
    (∃ (s : State) (t : Nat) (v : _) (u : State), u = advance t s ∧ barReachable u = true ∧ isRefused u 0x018 v = false ∧ v.getLsbD
    10 = true) ∧
    (∃ (s : State) (t : Nat) (v : W64) (u : State), u = advance t s ∧ barReachable u = true ∧ isRefused u 0x020 (BitVec.truncate 32
    v) = false ∧ isRefused u 0x024 (BitVec.truncate 32 (v >>> 32)) = false) ∧
    (∃ (s : State) (t : Nat) (v : W64) (u : State), u = advance t s ∧ barReachable u = true ∧ isRefused u 0x048 (BitVec.truncate 32
    v) = false) ∧
    (∃ (s : State) (t : Nat) (v : _) (u : State), u = advance t s ∧ barReachable u = true ∧ isRefused u 0x040 v = false) ∧
    (∃ (s : State) (t : Nat) (v : _) (u : State), u = advance t s ∧ barReachable u = true ∧ isRefused u 0x04C v = false) ∧
    (∃ (s : State) (t : Nat) (v : _) (u : State), u = advance t s ∧ barReachable u = true ∧ isRefused u 0x050 v = false) ∧
    (∃ (s : State) (t : Nat) (v : _) (u : State), u = advance t s ∧ barReachable u = true ∧ isRefused u 0x054 v = false) ∧
    (∃ (s : State) (t : Nat) (v : _) (u : State), u = advance t s ∧ barReachable u = true ∧ isRefused u 0x06C v = false) ∧
    (∃ (s : State) (t : Nat) (u : State), u = advance t s ∧ barReachable u = true) :=
  ⟨⟨inSession, 0, 0x400, _, rfl, by decide, by decide, by decide⟩,
   ⟨beforeSetup, 0, 0x1000, _, rfl, by decide, by decide, by decide⟩,
   ⟨inSession, 0, 0x5000, _, rfl, by decide, by decide⟩,
   ⟨beforeSetup, 0, 0x11, _, rfl, by decide, by decide⟩,
   ⟨polled, 0, 0x01, _, rfl, by decide, by decide⟩,
   ⟨inSession, 0, 1, _, rfl, by decide, by decide⟩,
   ⟨inSession, 0, 0x101, _, rfl, by decide, by decide⟩,
   ⟨inSession, 0, 0x0A64, _, rfl, by decide, by decide⟩,
   ⟨inSession, 0, _, rfl, by decide⟩⟩

theorem witness_ActingRegisterWritesComplete :
    (∃ (s : State) (t : Nat) (v : _) (u : State), u = advance t s ∧ barReachable u = true ∧ isRefused u 0x014 v = false ∧ v.getLsbD
    0 = true) ∧
    (∃ (s : State) (t : Nat) (u : State), u = advance t s ∧ barReachable u = true) ∧
    (∃ (s : State) (t : Nat) (u : State), u = advance t s ∧ barReachable u = true) ∧
    (∃ (s : State) (t : Nat) (u : State), u = advance t s ∧ barReachable u = true) ∧
    (∃ (s : State) (t : Nat) (v : _) (u : State), u = advance t s ∧ barReachable u = true ∧ isRefused u 0x078 v = false ∧ v.getLsbD
    1 = true) ∧
    (∃ (s : State) (t : Nat) (u : State), u = advance t s ∧ inSafe u = true ∧ u.regs.locked = true ∧ u.regs.unlockReq = false ∧
    u.flush.why = .none) :=
  ⟨⟨inSession, 0, 0xA5C30001, _, rfl, by decide, by decide, by decide⟩,
   ⟨inSession, 0, _, rfl, by decide⟩,
   ⟨inSession, 0, _, rfl, by decide⟩,
   ⟨inSession, 0, _, rfl, by decide⟩,
   ⟨inSession, 0, 0x6E1D0002, _, rfl, by decide, by decide, by decide⟩,
   ⟨{ inSession with regs := { inSession.regs with safeCause := 1, locked := true } }, 0, _, rfl, by decide, by decide, by decide,
   by decide⟩⟩

theorem witness_RefusedWritesSetSetupError :
    (∃ (s : State) (t : Nat) (offset : _) (v : W64) (u : State), u = advance t s ∧ barReachable u = true ∧ offset % 4 = 0 ∧
    isRefused u offset (BitVec.truncate 32 v) = true) ∧
    (∃ (s : State) (t : Nat) (width : _) (u : State), u = advance t s ∧ barReachable u = true ∧ 0 < width ∧ width < 4) ∧
    (∃ (s : State) (t : Nat), barReachable (advance t s) = false) :=
  ⟨⟨inSession, 0, 0x050, 0, _, rfl, by decide, by decide, by decide⟩,
   ⟨inSession, 0, 2, _, rfl, by decide, by decide, by decide⟩,
   ⟨State.reset, 0, by decide⟩⟩

theorem witness_TimeReadsComplete :
    (∃ (s : State) (t : Nat) (u : State), u = advance t s ∧ barReachable u = true) ∧
    (∃ (s : State) (t : Nat) (r : _) (word : _) (u : State), u = advance t s ∧ barReachable u = true ∧ (u.clk.captures.find? fun x
    => x.1 == r) = some (r, word)) ∧
    (∃ (s : State) (t : Nat) (r : _) (u : State), u = advance t s ∧ barReachable u = true ∧ (u.clk.captures.find? fun x => x.1 == r)
    = none) ∧
    (∃ (s : State) (t : Nat) (u : State), u = advance t s ∧ barReachable u = true) :=
  ⟨⟨inSession, 0, _, rfl, by decide⟩,
   ⟨{ inSession with clk := { inSession.clk with captures := [(1, 5)] } }, 0, 1, 5, _, rfl, by decide, by decide⟩,
   ⟨inSession, 0, 1, _, rfl, by decide, by decide⟩,
   ⟨inSession, 0, _, rfl, by decide⟩⟩

theorem witness_TimeHalvesAreOfOneInstant :
    ∃ (s : State) (t : Nat) (u : State), u = advance t s ∧ barReachable u = true :=
  ⟨inSession, 0, _, rfl, by decide⟩

theorem witness_SlotProgramsComplete :
    (∃ (s : State) (t : Nat) (bank : _) (p : _) (u : State), u = advance t s ∧ (u.jrn.progs.find? fun p => p.bank == bank) = some p
    ∧ p.done + 1 < recSlots p.record) ∧
    (∃ (s : State) (t : Nat) (bank : _) (p : _) (u : State), u = advance t s ∧ (u.jrn.progs.find? fun p => p.bank == bank) = some p
    ∧ recSlots p.record ≤ p.done + 1) ∧
    (∃ (s : State) (t : Nat) (bank : _) (p : _) (u : State) (v : _) (x : Sector), u = advance t s ∧ (u.jrn.progs.find? fun p =>
    p.bank == bank) = some p ∧ v = modSector p.bank p.sector (fun x => { x with failures := x.failures + 1 })
    { u with jrn := { u.jrn with progs := u.jrn.progs.filter fun x => x.bank != bank, flash := u.jrn.flash ++ [⟨p.bank, p.sector, p.slot + p.done, none⟩], waiting := ⟨p.write, p.record, decide (2 ≤ p.bank), true⟩ :: u.jrn.waiting } }
    ∧ findSector v p.bank p.sector = some x) :=
  ⟨⟨programming progLong, 0, 0, progLong, _, rfl, by decide, by decide⟩,
   ⟨programming progA, 0, 0, progA, _, rfl, by decide, by decide⟩,
   ⟨programming progA, 0, 0, progA, _, _, ⟨0, 3, .inUse, 10, 0, 1, 0, 6, false, 2, 0, 0⟩, rfl, by decide, rfl, by decide⟩⟩

theorem witness_SectorErasesComplete :
    (∃ (s : State) (t : Nat) (bank : _) (idx : _) (duration : _) (x : Sector) (u : State), u = advance t s ∧ findSector u bank idx =
    some x ∧ x.st = .erasing ∧ 1000 * duration ≤ 20 * second ∧ (∀ r, u.mnt.running = some r → r.req.kind ≠ 2)) ∧
    (∃ (s : State) (t : Nat) (bank : _) (idx : _) (duration : _) (x : Sector) (u : State), u = advance t s ∧ findSector u bank idx =
    some x ∧ x.st = .erasing ∧ 20 * second < 1000 * duration) ∧
    (∃ (s : State) (t : Nat) (bank : _) (idx : _) (x : Sector) (u : State), u = advance t s ∧ findSector u bank idx = some x ∧ x.st
    = .erasing) :=
  ⟨⟨erasing, 0, 0, 3, 0, sectorA, _, rfl, by decide, by decide, by decide, by decide⟩,
   ⟨erasing, 0, 0, 3, 20 * second, sectorA, _, rfl, by decide, by decide, by decide⟩,
   ⟨erasing, 0, 0, 3, sectorA, _, rfl, by decide, by decide⟩⟩

theorem witness_PlacementUpdatesComplete :
    (∃ (s : State) (t : Nat) (u : State), u = advance t s ∧ u.ready.counters = true) ∧
    (∃ (u : State) (v : _) (high : Nat) (low : Nat) (gap : Nat) (g : Group), (loadPair u fun e => e.load0) = some (high, low, gap) ∧
    524288 < gap ∧ 3 ≤ u.ctr.gapWindows0 ∧ v =
    { u with ctr := { u.ctr with gapWindows0 := u.ctr.gapWindows0 + 1, gapWindows := if farApart (loadPair u fun e => e.load) then u.ctr.gapWindows + 1 else 0 } }
    ∧ minBy (fun g => distance gap (2 * 64 * g.lastOps0)) (u.ctr.groups.filter fun g => g.engine == high && decide (g.lastOps0 ≠ 0)
    && groupQuiet v g.num) = some g) ∧
    (∃ (u : State) (v : _) (high : Nat) (low : Nat) (gap : Nat) (g : Group), farApart (loadPair u fun e => e.load0) = false ∧
    (loadPair u fun e => e.load) = some (high, low, gap) ∧ 524288 < gap ∧ 3 ≤ u.ctr.gapWindows ∧ v =
    { u with ctr := { u.ctr with gapWindows0 := 0, gapWindows := u.ctr.gapWindows + 1 } } ∧ minBy (fun g => distance gap (2 * 64 *
    g.lastOps)) (u.ctr.groups.filter fun g => g.engine == high && decide (g.lastOps ≠ 0) && groupQuiet v g.num) = some g) ∧
    (∃ (u : State), farApart (loadPair u fun e => e.load0) = false ∧ farApart (loadPair u fun e => e.load) = false) ∧
    (∃ (s : State) (t : Nat) (u : State), u = advance t s ∧ u.ready.counters = true) ∧
    (∃ (n : Nat) (u : State) (g : Group) (step : Nat), isActive u g = true ∧ step = stepFor g.rate u.plc.wear n ∧ step ≠ g.step) ∧
    (∃ (u : State) (g : Group), isActive u g = false) ∧
    (∃ (s : State) (t : Nat) (u : State), u = advance t s ∧ u.ready.counters = true) ∧
    (∃ (s : State) (t : Nat) (u : State), u = advance t s ∧ u.ready.counters = true) :=
  ⟨⟨inSession, 0, _, rfl, by decide⟩,
   ⟨busyEngine true, _, 0, 1, 600000, groupBusy, by decide, by decide, by decide, rfl, by decide⟩,
   ⟨busyEngine false, _, 0, 1, 600000, groupBusy, by decide, by decide, by decide, by decide, rfl, by decide⟩,
   ⟨inSession, by decide, by decide⟩,
   ⟨inSession, 0, _, rfl, by decide⟩,
   ⟨1, { inSession with clk := Clk.reset }, { groupA with roseAt := some 0, step := 1 }, _, by decide, rfl, by decide⟩,
   ⟨inSession, groupA, by decide⟩,
   ⟨inSession, 0, _, rfl, by decide⟩,
   ⟨inSession, 0, _, rfl, by decide⟩⟩

theorem witness_CounterMovesComplete :
    (∃ (s : State) (t : Nat) (n : _) (l : Leaf) (g : Group) (u : State), u = advance t s ∧ findLeaf u n = some l ∧ l.closed = false
    ∧ l.cls = .loose ∧ 8 ≤ l.slowWindows ∧ (∀ m, l.movedAt = some m → m + 2 ^ 36 ≤ u.clk.now) ∧ counterQuiet u n = true ∧ Admitted
    ⟨slotsNeeded (.leaf n false) u, 0, true⟩ u ∧ looseRoom u = true ∧ inSafe u = false ∧ looseTarget u l = some g) ∧
    (∃ (s : State) (t : Nat) (l : Leaf) (rest : _) (g : Group) (u : State), u = advance t s ∧ boundedPressed u = true ∧
    u.owed.frozen = false ∧ inSafe u = false ∧ uncoveredLeaves u = l :: rest ∧ counterQuiet u l.num = true ∧ moveAdmitted u l.num =
    true ∧ boundedTarget u l = some g) ∧
    (∃ (s : State) (t : Nat) (l : Leaf) (rest : _) (g : Nat) (u : State), u = advance t s ∧ boundedPressed u = true ∧ u.owed.frozen
    = false ∧ inSafe u = false ∧ uncoveredLeaves u = l :: rest ∧ counterQuiet u l.num = true ∧ moveAdmitted u l.num = true ∧
    boundedTarget u l = none ∧ waitingGroup u l.num l.v.toNat = none ∧ emptyGroup u = some g) ∧
    (∃ (l : Leaf) (u : State), (counterQuiet u l.num = false ∨ moveAdmitted u l.num = false ∨ boundedTarget u l = none ∧
    (waitingGroup u l.num l.v.toNat ≠ none ∨ emptyGroup u = none))) :=
  ⟨⟨slowOne, 0, 7, leafSlow, groupB, _, rfl, by decide, by decide, by decide, by decide, by decide, by decide, by decide, by decide,
  by decide, by decide⟩,
   ⟨pressed [groupWide, groupB], 0, leafWide, [], groupB, _, rfl, by decide, by decide, by decide, by decide, by decide, by decide,
   by decide⟩,
   ⟨pressed [groupWide], 0, leafWide, [], 0, _, rfl, by decide, by decide, by decide, by decide, by decide, by decide, by decide,
   by decide, by decide⟩,
   ⟨leafA, withOp { opOf 0x12 handleA 5 0 0 with st := .energy 0 } inSession, by decide⟩⟩

theorem witness_SecondsAndDailiesComplete :
    (∃ (s : State) (t : Nat) (u : State) (v : _), u = advance t s ∧ u.clk.running = true ∧ u.int.nextDue ≤ u.clk.now ∧
    u.pmu.shutdown = false ∧ u.pmu.phase = .running ∧ v =
    { u with int := { u.int with nextDue := u.int.nextDue + second, pending := u.int.pending + 1 } } ∧ Admitted ⟨slotsNeeded .posec
    v, 0, true⟩ v) ∧
    (∃ (s : State) (t : Nat) (u : State), u = advance t s ∧ u.ready.journal = true ∧ u.int.calRecordAt + 3600 ≤ u.int.posec) ∧
    (∃ (s : State) (t : Nat) (u : State) (v : _), u = advance t s ∧ u.pmu.phase = .running ∧ u.hmu.nextDaily ≤ u.int.posec ∧ v =
    endDay { u with hmu := { u.hmu with nextDaily := (u.int.posec / 86400 + 1) * 86400 } } ∧ v.pmu.power = .normal ∧ inSafe v =
    false ∧ v.pmu.shutdown = false) :=
  ⟨⟨inSession, 0, _, _, rfl, by decide, by decide, by decide, by decide, rfl, by decide⟩,
   ⟨{ inSession with int := { inSession.int with posec := 2 ^ 20, calRecordAt := 2 ^ 20 - 3600 } }, 0, _, rfl, by decide,
   by decide⟩,
   ⟨{ inSession with int := { inSession.int with posec := 86400 }, hmu := { inSession.hmu with nextDaily := 86400 } }, 0, _, _, rfl,
   by decide, by decide, rfl, by decide, by decide, by decide⟩⟩

theorem witness_MaintenanceStartsComplete :
    (∃ (s : State) (t : Nat) (due : _) (u : State), u = advance t s ∧ u.hmu.capFirst = some due ∧ due ≤ u.clk.now) ∧
    (∃ (s : State) (t : Nat) (m : _) (rest : _) (u : State), u = advance t s ∧ u.mnt.running = none ∧ u.flush.why = .none ∧ inSafe u
    = false ∧ u.pmu.shutdown = false ∧ u.mnt.queue = m :: rest ∧ mayRun m u = true ∧ (m.kind = 1 → drainReady u m.block = true)) ∧
    (∃ (s : State) (t : Nat) (r : _) (u : State), u = advance t s ∧ u.mnt.running = some r ∧ r.req.kind = 1 ∧ r.test = none ∧
    isDrained r.req.block u = true) ∧
    (∃ (s : State) (t : Nat) (m : _) (rest : _) (since : _) (u : State), u = advance t s ∧ u.mnt.queue = m :: rest ∧ m.kind = 1 ∧
    m.turn = some since ∧ since + 60 * second ≤ u.clk.now) :=
  ⟨⟨{ inSession with hmu := { inSession.hmu with capFirst := some (2 ^ 40) } }, 0, 2 ^ 40, _, rfl, by decide, by decide⟩,
   ⟨withMaint, 0, maintA, [], _, rfl, by decide, by decide, by decide, by decide, by decide, by decide, by decide⟩,
   ⟨{ maintains bistReq none false 0 with ctr := Ctr.reset }, 0, runs bistReq none false 0, _, rfl, by decide, by decide, by decide,
   by decide⟩,
   ⟨{ inSession with mnt := { Mnt.reset with queue := [{ bistReq with turn := some (2 ^ 40 - 60 * second) }] } }, 0,
   { bistReq with turn := some (2 ^ 40 - 60 * second) }, [], 2 ^ 40 - 60 * second, _, rfl, by decide, by decide, by decide,
   by decide⟩⟩

theorem witness_MaintenanceStepsFollow :
    (∃ (s : State) (t : Nat) (r : _) (start : _) (u : State), u = advance t s ∧ u.mnt.running = some r ∧ r.test = some start ∧
    r.req.kind = 1 ∧ r.catching = false ∧ r.req.block < 4) ∧
    (∃ (s : State) (t : Nat) (step : _) (r : _) (start : _) (u : State), u = advance t s ∧ u.mnt.running = some r ∧ r.test = some
    start ∧ r.req.kind = 1 ∧ r.catching = false ∧ r.req.block < 4 ∧ step ≠ 0) ∧
    (∃ (s : State) (t : Nat) (r : _) (u : State), u = advance t s ∧ u.mnt.running = some r ∧ r.req.kind = 4 ∧ r.drawing = true) ∧
    (∃ (s : State) (t : Nat) (r : _) (u : State), u = advance t s ∧ u.mnt.running = some r ∧ r.req.kind = 4 ∧ r.drawing = false ∧ 1
    ≤ r.draws ∧ r.draws < 4) ∧
    (∃ (s : State) (t : Nat) (r : _) (copyB : _) (x : Sector) (u : State), u = advance t s ∧ runningCompact u = some (r, copyB) ∧
    copyBusy u copyB = false ∧ compactOver u copyB = false ∧ (r.req.forced = true ∨ writesWait u = false) ∧ compactSource u copyB =
    some x) ∧
    (∃ (s : State) (t : Nat) (bank : _) (idx : _) (weak : _) (r : _) (x : Sector) (u : State), u = advance t s ∧ u.mnt.running =
    some r ∧ findSector u bank idx = some x ∧ r.req.kind = 3 ∧ (scanLeft 4 0 r.left u).head? = some (bank, idx) ∧ bankIdle u bank =
    true ∧ writesWait u = false ∧ refreshAction u x weak = none) ∧
    (∃ (s : State) (t : Nat) (bank : _) (idx : _) (weak : _) (reason : Nat) (r : _) (x : Sector) (u : State), u = advance t s ∧
    u.mnt.running = some r ∧ findSector u bank idx = some x ∧ r.req.kind = 3 ∧ (scanLeft 4 0 r.left u).head? = some (bank, idx) ∧
    bankIdle u bank = true ∧ writesWait u = false ∧ refreshAction u x weak = some reason) ∧
    (∃ (e : Emptying) (u : State), isEmptied u e.bank e.sector = true ∧ e.refresh = none ∧ e.retire = false) ∧
    (∃ (r : _) (u : State), u.mnt.running = some r ∧ r.req.kind = 3 ∧ scanLeft 4 0 r.left u = [] ∧ (u.jrn.emptying.any fun e =>
    e.refresh.isSome) = false) :=
  ⟨⟨maintains bistReq (some ⟨0, 0, 0, 0⟩) false 0, 0, runs bistReq (some ⟨0, 0, 0, 0⟩) false 0, ⟨0, 0, 0, 0⟩, _, rfl, by decide,
  by decide, by decide, by decide, by decide⟩,
   ⟨maintains bistReq (some ⟨0, 0, 0, 0⟩) false 0, 0, 4, runs bistReq (some ⟨0, 0, 0, 0⟩) false 0, ⟨0, 0, 0, 0⟩, _, rfl, by decide,
   by decide, by decide, by decide, by decide, by decide⟩,
   ⟨maintains { maintA with kind := 4 } none true 1, 0, runs { maintA with kind := 4 } none true 1, _, rfl, by decide, by decide,
   by decide⟩,
   ⟨maintains { maintA with kind := 4 } none false 1, 0, runs { maintA with kind := 4 } none false 1, _, rfl, by decide, by decide,
   by decide, by decide, by decide⟩,
   ⟨maintainsOver { maintA with kind := 2 }, 0, runs { maintA with kind := 2 } none false 0, false, sectorB, _, rfl, by decide,
   by decide, by decide, by decide, by decide⟩,
   ⟨maintainsOver maintA, 0, 0, 3, 0, runs maintA none false 0, sectorB, _, rfl, by decide, by decide, by decide, by decide,
   by decide, by decide, by decide⟩,
   ⟨maintainsOver maintA, 0, 0, 3, 100, 0, runs maintA none false 0, sectorB, _, rfl, by decide, by decide, by decide, by decide,
   by decide, by decide, by decide⟩,
   ⟨⟨0, 3, false, 6, none, none⟩, maintainsOver maintA, by decide, by decide, by decide⟩,
   ⟨{ runs maintA none false 0 with left := [] },
   { inSession with mnt := { Mnt.reset with running := some { runs maintA none false 0 with left := [] } } }, by decide, by decide,
   by decide, by decide⟩⟩

theorem witness_PowerLossComplete :
    (∃ (s : State) (t : Nat) (vin : _) (u : State), u = advance t s ∧ isAlive u = true ∧ u.pmu.power = .normal ∧ vin < 10200) ∧
    (∃ (s : State) (t : Nat) (vin : _) (vhold : _) (u : State) (v : _), u = advance t s ∧ u.pmu.phase = .running ∧ u.pmu.power =
    .warn ∧ vin < 9000 ∧ v = interruptBist (postPower .powerHoldup
    { u with pmu := { u.pmu with vin := vin, vhold := vhold, chargerOn := false, power := .holdup, warnTime := u.clk.now - u.pmu.warnAt, holdupAt := u.clk.now, vinBack := false } })
    ∧ v.flush.why = .none ∧ v.jrn.dead = false) ∧
    (∃ (s : State) (t : Nat) (vin : _) (u : State), u = advance t s ∧ u.pmu.phase ≠ .reset ∧ u.pmu.phase ≠ .running ∧ u.pmu.power ≠
    .holdup ∧ vin < 9000) ∧
    (∃ (s : State) (t : Nat) (vin : _) (u : State), u = advance t s ∧ u.pmu.phase = .reset ∧ u.pmu.power ≠ .holdup ∧ vin < 9000) ∧
    (∃ (s : State) (t : Nat) (cause : _) (u : State) (v : State), u = advance t s ∧ flushWritten u = true ∧ (u.jrn.outA &&
    u.jrn.outB) = false ∧ u.pmu.phase = .running ∧ u.flush.resetCause = some cause ∧ tryWrite 1 .marker u = some v) :=
  ⟨⟨inSession, 0, 10000, _, rfl, by decide, by decide, by decide⟩,
   ⟨{ inSession with pmu := { inSession.pmu with power := .warn, vin := 10000 } }, 0, 8999, 11000, _, _, rfl, by decide, by decide,
   by decide, rfl, by decide, by decide⟩,
   ⟨{ inSession with pmu := { inSession.pmu with phase := .testing } }, 0, 8999, _, rfl, by decide, by decide, by decide,
   by decide⟩,
   ⟨{ inSession with pmu := { inSession.pmu with phase := .reset } }, 0, 8999, _, rfl, by decide, by decide, by decide⟩,
   ⟨{ inSession with flush := { Flush.reset with why := .reset, resetCause := some 2 } }, 0, 2, _, (tryWrite 1 .marker (advance 0
   { inSession with flush := { Flush.reset with why := .reset, resetCause := some 2 } })).getD inSession, rfl, by decide +kernel,
   by decide +kernel, by decide +kernel, by decide +kernel, some_getD _ (by decide +kernel)⟩⟩

theorem witness_PowerReturnAndChargerComplete :
    (∃ (s : State) (t : Nat) (u : State), u = advance t s ∧ u.pmu.power = .warn) ∧
    (∃ (s : State) (t : Nat) (u : State), u = advance t s ∧ u.pmu.power = .holdup) ∧
    (∃ (s : State) (t : Nat) (u : State), u = advance t s ∧ u.pmu.power = .holdup) ∧
    (∃ (s : State) (t : Nat) (u : State), u = advance t s ∧ u.pmu.chargerOn = true ∧ u.pmu.full = false ∧ u.pmu.drawing = false ∧
    u.pmu.measured = true) ∧
    (∃ (s : State) (t : Nat) (u : State), u = advance t s ∧ u.pmu.full = true) ∧
    (∃ (s : State) (t : Nat) (u : State), u = advance t s) :=
  ⟨⟨{ inSession with pmu := { inSession.pmu with power := .warn } }, 0, _, rfl, by decide⟩,
   ⟨{ inSession with pmu := { inSession.pmu with power := .holdup } }, 0, _, rfl, by decide⟩,
   ⟨{ inSession with pmu := { inSession.pmu with power := .holdup } }, 0, _, rfl, by decide⟩,
   ⟨inSession, 0, _, rfl, by decide, by decide, by decide, by decide⟩,
   ⟨{ inSession with pmu := { inSession.pmu with full := true } }, 0, _, rfl, by decide⟩,
   ⟨inSession, 0, _, rfl⟩⟩

theorem witness_MonitorsComplete :
    (∃ (s : State) (t : Nat) (level : _) (field : _) (u : State), u = advance t s ∧ isAlive u = true ∧ field = bitsOf
    u.regs.monA.toNat 0 8 ∧ field ≠ 0 ∧ level < 5 * field ∧ (∀ m ∈ u.pmu.outside, m.object ≠ 0)) ∧
    (∃ (s : State) (t : Nat) (level : _) (u : State), u = advance t s ∧ isAlive u = true ∧ 760 ≤ level ∧ level ≤ 840) ∧
    (∃ (s : State) (t : Nat) (vin : _) (u : State), u = advance t s ∧ isAlive u = true ∧ 13200 < vin ∧ (∀ m ∈ u.pmu.outside,
    m.object ≠ 0x14)) ∧
    (∃ (s : State) (t : Nat) (object : _) (level : _) (u : State), u = advance t s ∧ level < resetLevel object) :=
  ⟨⟨{ inSession with regs := { inSession.regs with monA := 0xC8 } }, 0, 999, 0xC8, _, rfl, by decide, by decide, by decide,
  by decide, by decide⟩,
   ⟨inSession, 0, 800, _, rfl, by decide, by decide, by decide⟩,
   ⟨inSession, 0, 13201, _, rfl, by decide, by decide, by decide⟩,
   ⟨inSession, 0, 0x10, 719, _, rfl, by decide⟩⟩

theorem witness_ResetRequestsComplete :
    (∃ (s : State) (t : Nat) (u : State), u = advance t s ∧ u.pmu.phase ≠ .reset) ∧
    (∃ (s : State) (t : Nat) (pair : _) (u : State), u = advance t s ∧ isAlive u = true ∧ pair < 2 ∧ u.pmu.failedPairs = []) ∧
    (∃ (s : State) (t : Nat) (pair : _) (u : State), u = advance t s ∧ isAlive u = true ∧ pair < 2 ∧ u.pmu.failedPairs = []) ∧
    (∃ (s : State) (t : Nat) (pair : _) (u : State), u = advance t s ∧ isAlive u = true ∧ pair < 2 ∧ u.pmu.failedPairs = [1 - pair]
    ∧ u.flush.resetCause = none) ∧
    (∃ (u : State), u.pmu.phase = .running ∧ u.jrn.dead = false ∧ u.flush.why = .none ∧ u.pmu.power ≠ .holdup) :=
  ⟨⟨inSession, 0, _, rfl, by decide⟩,
   ⟨inSession, 0, 0, _, rfl, by decide, by decide, by decide⟩,
   ⟨inSession, 0, 1, _, rfl, by decide, by decide, by decide⟩,
   ⟨{ inSession with pmu := { inSession.pmu with failedPairs := [1] } }, 0, 0, _, rfl, by decide, by decide, by decide, by decide⟩,
   ⟨inSession, by decide, by decide, by decide, by decide⟩⟩

theorem witness_ReferenceComplete :
    (∃ (s : State) (t : Nat) (u : State), u = advance t s ∧ isAlive u = true ∧ u.clk.refPresent = true) ∧
    (∃ (s : State) (t : Nat) (u : State), u = advance t s ∧ isAlive u = true ∧ u.clk.refPresent = false) ∧
    (∃ (s : State) (t : Nat) (u : State), u = advance t s ∧ u.clk.slewing = true) :=
  ⟨⟨inSession, 0, _, rfl, by decide, by decide⟩,
   ⟨{ inSession with clk := { inSession.clk with refPresent := false } }, 0, _, rfl, by decide, by decide⟩,
   ⟨{ inSession with clk := { inSession.clk with slewing := true } }, 0, _, rfl, by decide⟩⟩

theorem witness_CapRecomputeCompletes :
    ∃ (s : State) (t : Nat) (u : State), u = advance t s ∧ isAlive u = true ∧ u.pmu.measured = true :=
  ⟨inSession, 0, _, rfl, by decide, by decide⟩

theorem witness_CapsFollowTheCertificate :
    ∃ (u : State) (k : Nat), k = certifiedWrites u :=
  ⟨inSession, _, rfl⟩

theorem witness_StartBeforeReplayCompletes :
    (∃ (s : State) (t : Nat) (vin : _) (vhold : _) (u : State), u = advance t s ∧ u.pmu.phase = .reset ∧ 10500 < vin ∧ vhold <
    10900) ∧
    (∃ (s : State) (t : Nat) (u : State), u = advance t s ∧ u.pmu.phase = .clocking) ∧
    (∃ (s : State) (t : Nat) (u : State), u = advance t s ∧ u.pmu.phase = .clocking) ∧
    (∃ (s : State) (t : Nat) (u : State) (w : State), u = advance t s ∧ u.pmu.phase = .calibrating ∧ w = startNsu (setReady (fun y
    => { y with calib := true }) u) ∧ inSafe w = false) ∧
    (∃ (s : State) (t : Nat) (vhold : _) (u : State), u = advance t s ∧ u.ready.calib = true ∧ 2000 ≤ vhold ∧ u.pmu.quickDone =
    false ∧ u.pmu.drawing = false) ∧
    (∃ (s : State) (t : Nat) (fall : _) (u : State), u = advance t s ∧ u.pmu.drawing = true ∧ u.pmu.quickDone = false ∧ 0 < fall) :=
  ⟨⟨atPhase .reset, 0, 12000, 0, _, rfl, by decide, by decide, by decide⟩,
   ⟨atPhase .clocking, 0, _, rfl, by decide⟩,
   ⟨atPhase .clocking, 0, _, rfl, by decide⟩,
   ⟨atPhase .calibrating, 0, _, _, rfl, by decide, rfl, by decide⟩,
   ⟨{ inSession with pmu := { inSession.pmu with quickDone := false } }, 0, 11000, _, rfl, by decide, by decide, by decide,
   by decide⟩,
   ⟨{ inSession with pmu := { inSession.pmu with quickDone := false, drawing := true } }, 0, 5, _, rfl, by decide, by decide,
   by decide⟩⟩

theorem witness_StartFromReplayCompletesAndSelfTestsEnd :
    (∃ (s : State) (t : Nat) (reads : _) (found : List Inst) (u : State) (v : _) (w : State) (x : _), u = advance t s ∧ u.pmu.phase
    = .replaying ∧ found = foundRecords reads u ∧ v = (keysOf found).foldl (chooseCurrent reads found)
    { u with jrn := { u.jrn with insts := found, current := [], nextSeq := found.foldl (fun n i => max n (i.record.seq + 1)) u.jrn.nextSeq, session := highestSession found } }
    ∧ w = eraseInvalid (countCorrected reads (takeSectors reads v)) ∧ x = restoreUnits reads
    { w with jrn := { w.jrn with outA := copyRetired w false, outB := copyRetired w true } } ∧ journalLost x = false ∧ (bistDecision
    x).1 ≠ 1) ∧
    (∃ (s : State) (t : Nat) (o : _) (b : _) (u : State), u = advance t s ∧ u.pmu.phase = .testing ∧ u.pmu.bistFrom = some b ∧
    bistResult o = 0) ∧
    (∃ (s : State) (t : Nat) (u : State), u = advance t s ∧ u.pmu.phase = .rebuilding) ∧
    (∃ (s : State) (t : Nat) (u : State) (v : _) (w : State), u = advance t s ∧ u.pmu.phase = .waiting ∧ u.ready.holdup = true ∧
    coverFits u = true ∧ writeQueued (admitCover u) = some v ∧ tryWrite 1 .session
    { v with jrn := { v.jrn with session := v.jrn.session + 1 } } = some w) ∧
    (∃ (s : State) (t : Nat) (u : State), u = advance t s ∧ isAlive u = true ∧ u.pmu.reached = false ∧ u.pmu.checkKind = none) ∧
    (∃ (s : State) (t : Nat) (vhold : _) (u : State) (v : _), u = advance t s ∧ u.pmu.phase = .waiting ∧ u.pmu.measured = true ∧ v =
    recomputeCaps { u with pmu := { u.pmu with vhold := vhold } } ∧ v.ready.holdup = false ∧ v.pmu.reached = false) ∧
    (∃ (s : State) (t : Nat) (o : _) (b : _) (u : State) (v : _) (w : State) (op : Op), u = advance t s ∧ u.hmu.bistRuns = true ∧
    u.hmu.bistAt = some b ∧ w = reinitSram u ∧ v = setReady (fun y => { y with shutdownDone := true }) (writeNow 4 (.bist
    w.jrn.session (wholeBist 0 o b)) { w with hmu := { w.hmu with bistRuns := false, bistAt := none } }) ∧ (v.hif.ops.find? fun op
    => decide (op.st = .shutdown)) = some op) :=
  ⟨⟨atReplay, 0, [], _, _, _, _, _, rfl, by decide +kernel, rfl, rfl, rfl, rfl, by decide +kernel, by decide +kernel⟩,
   ⟨{ atPhase .testing with pmu := { (atPhase .testing).pmu with bistFrom := some ⟨0, 0, 0, 0⟩ } }, 0, ⟨[16], 0, 0, 0, 0⟩, ⟨0, 0, 0,
   0⟩, _, rfl, by decide, by decide, by decide⟩,
   ⟨atPhase .rebuilding, 0, _, rfl, by decide⟩,
   ⟨atPhase .waiting, 0, _, (writeQueued (admitCover (advance 0 (atPhase .waiting)))).getD inSession, (tryWrite 1 .session
   { (writeQueued (admitCover (advance 0 (atPhase .waiting)))).getD inSession with jrn := { ((writeQueued (admitCover (advance 0 (atPhase .waiting)))).getD inSession).jrn with session := 1 } }).getD
   inSession, rfl, by decide +kernel, by decide +kernel, by decide +kernel, some_getD _ (by decide +kernel),
   some_getD _ (by decide +kernel)⟩,
   ⟨{ inSession with pmu := { inSession.pmu with reached := false } }, 0, _, rfl, by decide, by decide, by decide⟩,
   ⟨{ atPhase .waiting with ready := { inSession.ready with holdup := false }, pmu := { (atPhase .waiting).pmu with reached := false } },
   0, 10000, _, _, rfl, by decide, by decide, rfl, by decide, by decide⟩,
   ⟨shuttingDown, 0, ⟨[], 0, 0, 0, 0⟩, ⟨0, 0, 0, 0⟩, _, _, _, { opOf 0x05 0 0 0 0 with st := .shutdown }, rfl, by decide +kernel,
   by decide +kernel, rfl, rfl, by decide +kernel⟩⟩

theorem witness_NoiseSourcesComplete :
    (∃ (s : State) (t : Nat) (since : _) (u : State), u = advance t s ∧ u.nsu.settling = some since ∧ since + 1572864 ≤ u.clk.now) ∧
    (∃ (s : State) (t : Nat) (since : _) (u : State), u = advance t s ∧ u.nsu.settling = some since ∧ u.clk.now < since + 1572864) ∧
    (∃ (s : State) (t : Nat) (src : _) (x : _) (u : State), u = advance t s ∧ u.nsu.powered = true ∧ findSource u src = some x ∧
    x.st = .starting ∧ x.passed = false ∧ u.nsu.settling = none ∧ (u.nsu.heldS && isClassS src) = false) ∧
    (∃ (s : State) (t : Nat) (src : _) (x : _) (u : State), u = advance t s ∧ u.nsu.powered = true ∧ findSource u src = some x ∧
    x.st = .starting ∧ x.passed = false ∧ u.nsu.settling = none ∧ u.nsu.heldS = true ∧ isClassS src = true) ∧
    (∃ (s : State) (t : Nat) (src : _) (alarms : List Nat) (x : _) (u : State), u = advance t s ∧ u.nsu.powered = true ∧ findSource
    u src = some x ∧ x.st = .starting ∧ x.passed = false ∧ u.nsu.settling = none ∧ x.second = false ∧ alarms ≠ []) ∧
    (∃ (s : State) (t : Nat) (src : _) (alarms : List Nat) (x : _) (u : State), u = advance t s ∧ u.nsu.powered = true ∧ findSource
    u src = some x ∧ x.st = .starting ∧ x.passed = false ∧ u.nsu.settling = none ∧ x.second = true ∧ alarms ≠ []) ∧
    (∃ (s : State) (t : Nat) (src : _) (test : HealthTest) (count : _) (sample : _) (cost : Nat) (x : _) (y : Source) (u : State)
    (recent : Nat), u = advance t s ∧ u.nsu.powered = true ∧ findSource u src = some x ∧ (x.st = .active ∨ x.st = .spare) ∧ (test =
    .rct ∧ rctCutoff src ≤ count ∨ test = .apt ∧ aptCutoff src ≤ count) ∧ recent = (x.alarms.filter fun a => decide (sample < a.1 +
    2 ^ 20)).length + 1 ∧ cost = (u.nsu.pending.filter fun p => holdsUntested x p).length + (if 18 ≤ recent ∧ x.st = .active ∧
    x.from_ ≤ u.clk.now / entryWindow (isClassS x.code) * entryWindow (isClassS x.code) then 1 else 0) ∧ y =
    { countAlarms [sample] cost x with badEnds := ((u.clk.now / aptWindow x.code + 1) * aptWindow x.code :: x.badEnds.filter fun e => e != (u.clk.now / aptWindow x.code + 1) * aptWindow x.code).take 4 })
    ∧
    (∃ (s : State) (t : Nat) (x : _) (y : _) (u : State), u = advance t s ∧ u.nsu.powered = true ∧ u.nsu.exchangeDay ≤ u.int.posec /
    86400 ∧ maxBy (fun x => x.today) (u.nsu.sources.filter fun x => decide (x.st = .active) && x.switchDue.isNone &&
    !(u.nsu.sources.any fun y => sameRole y.code x.code && decide (y.st = .drained)) &&
    (match spareFor u x.code with | some y => decide (y.today < x.today) | none => false)) = some x ∧ spareFor u x.code = some y) ∧
    (∃ (s : State) (t : Nat) (u : State), u = advance t s ∧ u.nsu.powered = true ∧ u.int.posec / 86400 < u.nsu.exchangeDay) :=
  ⟨⟨{ inSession with nsu := { inSession.nsu with settling := some 0 } }, 0, 0, _, rfl, by decide, by decide⟩,
   ⟨{ inSession with nsu := { inSession.nsu with settling := some (2 ^ 40) } }, 0, 2 ^ 40, _, rfl, by decide, by decide⟩,
   ⟨withSources .starting, 0, 0, { Source.reset 0 with st := .starting }, _, rfl, by decide, by decide, by decide, by decide,
   by decide, by decide⟩,
   ⟨{ withSources .starting with nsu := { (withSources .starting).nsu with heldS := true } }, 0, 4,
   { Source.reset 4 with st := .starting }, _, rfl, by decide, by decide, by decide, by decide, by decide, by decide, by decide⟩,
   ⟨withSources .starting, 0, 0, [5], { Source.reset 0 with st := .starting }, _, rfl, by decide, by decide, by decide, by decide,
   by decide, by decide, by decide⟩,
   ⟨{ inSession with nsu := { inSession.nsu with sources := [{ Source.reset 0 with st := .starting, second := true }] } }, 0, 0,
   [5], { Source.reset 0 with st := .starting, second := true }, _, rfl, by decide, by decide, by decide, by decide, by decide,
   by decide, by decide⟩,
   ⟨withSources .active, 0, 0, .rct, 41, 5, _, { Source.reset 0 with st := .active }, _, _, _, rfl, by decide +kernel,
   by decide +kernel, by decide +kernel, by decide +kernel, rfl, rfl, rfl⟩,
   ⟨{ inSession with nsu := { inSession.nsu with sources := [sourceWorn, sourceSpare] } }, 0, sourceWorn, sourceSpare, _, rfl,
   by decide +kernel, by decide +kernel, by decide +kernel, by decide +kernel⟩,
   ⟨{ inSession with nsu := { inSession.nsu with exchangeDay := 1 } }, 0, _, rfl, by decide, by decide⟩⟩

theorem witness_EntropyComplete :
    (∃ (s : State) (t : Nat) (src : _) (x : _) (u : State), u = advance t s ∧ u.nsu.powered = true ∧ findSource u src = some x ∧
    (x.st = .active ∨ x.st = .spare ∨ x.st = .drained) ∧ x.badEnds.contains (u.clk.now / aptWindow src * aptWindow src) = false) ∧
    (∃ (s : State) (t : Nat) (src : _) (x : _) (u : State), u = advance t s ∧ u.nsu.powered = true ∧ findSource u src = some x ∧
    x.badEnds.contains (u.clk.now / aptWindow src * aptWindow src) = true) ∧
    (∃ (s : State) (t : Nat) (classS : _) (stop : Nat) (xs : List Source) (u : State), u = advance t s ∧ u.nsu.powered = true ∧ stop
    = u.clk.now / entryWindow classS * entryWindow classS ∧ entryWindow classS ≤ stop ∧ xs = windowSources u classS (stop -
    entryWindow classS) ∧ windowLost (stop - entryWindow classS) xs = false) ∧
    (∃ (s : State) (t : Nat) (i : _) (u : State), u = advance t s ∧ (u.nsu.internals.any fun d => d.num == i && d.state.isSome) =
    true ∧ u.nsu.waitI.contains i = false) ∧
    (∃ (s : State) (t : Nat) (n : _) (rest : _) (e : _) (more : _) (u : State), u = advance t s ∧ u.drb.autoOrder = n :: rest ∧
    u.nsu.queueS = e :: more ∧ u.nsu.waitS = [] ∧ internalWantsS u = false ∧ 32 < u.nsu.queueS.length) :=
  ⟨⟨withSources .active, 0, 0, { Source.reset 0 with st := .active }, _, rfl, by decide, by decide, by decide, by decide⟩,
   ⟨{ inSession with nsu := { inSession.nsu with sources := [{ Source.reset 0 with badEnds := [2 ^ 40 / aptWindow 0 * aptWindow 0] }] } },
   0, 0, { Source.reset 0 with badEnds := [2 ^ 40 / aptWindow 0 * aptWindow 0] }, _, rfl, by decide, by decide, by decide⟩,
   ⟨withSources .active, 0, true, _, _, _, rfl, by decide +kernel, rfl, by decide +kernel, rfl, by decide +kernel⟩,
   ⟨{ inSession with nsu := { inSession.nsu with internals := [⟨0, some 7, 0⟩] } }, 0, 0, _, rfl, by decide, by decide⟩,
   ⟨{ inSession with drb := { inSession.drb with autoOrder := [2] }, nsu := { inSession.nsu with queueS := List.replicate 33 7 } },
   0, 2, [], 7, List.replicate 32 7, _, rfl, by decide +kernel, by decide +kernel, by decide +kernel, by decide +kernel,
   by decide +kernel⟩⟩

theorem witness_PortTimersAndOvercurrentComplete :
    (∃ (s : State) (t : Nat) (p : _) (x : Port) (u : State), u = advance t s ∧ findPort u p = some x ∧ x.st = .charging ∧ x.since +
    twentyFiveMs ≤ u.clk.now ∧ x.held = false ∧ portEnabled u p = true) ∧
    (∃ (s : State) (t : Nat) (p : _) (x : Port) (u : State), u = advance t s ∧ findPort u p = some x ∧ x.st = .fault ∧ x.since +
    hundredMs ≤ u.clk.now ∧ x.held = false ∧ portEnabled u p = true) ∧
    (∃ (s : State) (t : Nat) (p : _) (x : Port) (u : State), u = advance t s ∧ findPort u p = some x ∧ (x.held = true ∨ portEnabled
    u p = false)) ∧
    (∃ (s : State) (t : Nat) (p : _) (x : _) (u : State), u = advance t s ∧ findPort u p = some x ∧ x.st = .on ∧ x.stale = false ∧
    x.sweepDue ≤ u.clk.now) ∧
    (∃ (s : State) (t : Nat) (p : _) (i : _) (x : _) (y : _) (u : State), u = advance t s ∧ findPort u p = some x ∧ posAt u p i =
    some y ∧ x.st = .on ∧ x.stale = false ∧ y.authed = true ∧ y.authDue ≤ u.clk.now ∧ x.authWants = [] ∧ (∀ z ∈ u.hyc.ports, z.num =
    p → z = x)) ∧
    (∃ (s : State) (t : Nat) (p : _) (x : Port) (u : State), u = advance t s ∧ findPort u p = some x ∧ x.st = .on ∧ x.stale = true ∧
    x.series = none ∧ x.staleAt + second ≤ u.clk.now) ∧
    (∃ (s : State) (t : Nat) (p : _) (x : Port) (since : _) (u : State), u = advance t s ∧ findPort u p = some x ∧ x.act =
    .pauseTake since ∧ since + fiveMs ≤ u.clk.now) ∧
    (∃ (s : State) (t : Nat) (p : _) (x : Port) (e : _) (since : _) (u : State), u = advance t s ∧ findPort u p = some x ∧ x.act =
    .pauseExch e since ∧ since + fiveMs ≤ u.clk.now) ∧
    (∃ (s : State) (t : Nat) (p : _) (x : Port) (earlier : _) (since : _) (u : State), u = advance t s ∧ findPort u p = some x ∧
    x.act = .pauseSweep earlier since ∧ since + fiveMs ≤ u.clk.now) ∧
    (∃ (s : State) (t : Nat) (p : _) (x : _) (u : State), u = advance t s ∧ findPort u p = some x ∧ x.st = .on ∧ x.held = false ∧
    portEnabled u p = true ∧ (x.shorts.filter fun t => decide (u.clk.now < t + 10 * second)).length < 2) :=
  ⟨⟨withPort { portA with st := .charging, since := 2 ^ 40 - twentyFiveMs }, 0, 0,
  { portA with st := .charging, since := 2 ^ 40 - twentyFiveMs }, _, rfl, by decide, by decide, by decide, by decide, by decide⟩,
   ⟨withPort { portA with st := .fault, since := 2 ^ 40 - hundredMs }, 0, 0,
   { portA with st := .fault, since := 2 ^ 40 - hundredMs }, _, rfl, by decide, by decide, by decide, by decide, by decide⟩,
   ⟨withPort { portA with held := true }, 0, 0, { portA with held := true }, _, rfl, by decide, by decide⟩,
   ⟨inSession, 0, 0, portA, _, rfl, by decide, by decide, by decide, by decide⟩,
   ⟨inSession, 0, 0, 1, portA, posA, _, rfl, by decide, by decide, by decide, by decide, by decide, by decide, by decide,
   by decide⟩,
   ⟨withPort { portA with stale := true }, 0, 0, { portA with stale := true }, _, rfl, by decide, by decide, by decide, by decide,
   by decide⟩,
   ⟨withPort { portA with act := .pauseTake 0 }, 0, 0, { portA with act := .pauseTake 0 }, 0, _, rfl, by decide, by decide,
   by decide⟩,
   ⟨withPort { portA with act := .pauseExch authE 0 }, 0, 0, { portA with act := .pauseExch authE 0 }, authE, 0, _, rfl, by decide,
   by decide, by decide⟩,
   ⟨withPort { portA with act := .pauseSweep [] 0 }, 0, 0, { portA with act := .pauseSweep [] 0 }, [], 0, _, rfl, by decide,
   by decide, by decide⟩,
   ⟨inSession, 0, 0, portA, _, rfl, by decide, by decide, by decide, by decide, by decide⟩⟩

theorem witness_SlatesAndSweepsComplete :
    (∃ (s : State) (t : Nat) (p : _) (up : _) (x : Port) (n : _) (bs : _) (u : State), u = advance t s ∧ findPort u p = some x ∧
    x.act = .assign n ∧ readAnswer 3 up = .ok bs ∧ fieldAt bs 0 1 = 0 ∧ n + 1 < 16) ∧
    (∃ (s : State) (t : Nat) (p : _) (up : _) (x : Port) (n : _) (u : State), u = advance t s ∧ findPort u p = some x ∧ x.act =
    .assign n ∧ readAnswer 3 up = .error .silent) ∧
    (∃ (s : State) (t : Nat) (p : _) (up : _) (presence : _) (x : Port) (n : _) (u : State) (v : _), u = advance t s ∧ findPort u p
    = some x ∧ x.act = .confirm n ∧ v = noteSlots p n up (sendMarks p 3 n true u) ∧ confirmError n up = none ∧ (readSweep n up
    presence).presence = 1 ∧ isLeaving v p = false) ∧
    (∃ (s : State) (t : Nat) (p : _) (up : _) (presence : _) (x : Port) (earlier : _) (r : SweepRes) (u : State) (v : _), u =
    advance t s ∧ findPort u p = some x ∧ x.act = .sweep earlier ∧ r = readSweep x.n up presence ∧ v = noteAgain p r (noteSlots p
    x.n up (sendMarks p 3 x.n true u)) ∧ isLeaving v p = false ∧ (r.slots.all fun c => c == 0) = true ∧ r.presence = 1 ∧ (earlier =
    [] ∨ ∃ older, earlier = r :: older)) ∧
    (∃ (s : State) (t : Nat) (p : _) (up : _) (presence : _) (x : Port) (earlier : _) (r : SweepRes) (u : State) (v : _), u =
    advance t s ∧ findPort u p = some x ∧ x.act = .sweep earlier ∧ r = readSweep x.n up presence ∧ v = noteAgain p r (noteSlots p
    x.n up (sendMarks p 3 x.n true u)) ∧ isLeaving v p = false ∧ ((r.slots.all fun c => c == 0) = true → r.presence ≠ 0) ∧ (earlier
    = [] ∧ quietSweep r = false ∨ ∃ last, earlier = [last] ∧ r ≠ last)) :=
  ⟨⟨withPort { portA with act := .assign 0 }, 0, 0, answer [0], { portA with act := .assign 0 }, 0, [0], _, rfl, by decide +kernel,
  by decide +kernel, by decide +kernel, by decide +kernel, by decide +kernel⟩,
   ⟨withPort { portA with act := .assign 0 }, 0, 0, noAnswer, { portA with act := .assign 0 }, 0, _, rfl, by decide +kernel,
   by decide +kernel, by decide +kernel⟩,
   ⟨withPort { portA with act := .confirm 1 }, 0, 0, ⟨quiet, [sendByte 0xA8]⟩, [], { portA with act := .confirm 1 }, 1, _, _, rfl,
   by decide +kernel, by decide +kernel, rfl, by decide +kernel, by decide +kernel, by decide +kernel⟩,
   ⟨withPort { portA with act := .sweep [] }, 0, 0, ⟨quiet, [sendByte 0xA8]⟩, [], { portA with act := .sweep [] }, [], _, _, _, rfl,
   by decide +kernel, by decide +kernel, rfl, rfl, by decide +kernel, by decide +kernel, by decide +kernel, .inl rfl⟩,
   ⟨withPort { portA with act := .sweep [] }, 0, 0, ⟨quiet, [[]]⟩, [], { portA with act := .sweep [] }, [], _, _, _, rfl,
   by decide +kernel, by decide +kernel, rfl, rfl, by decide +kernel, by decide +kernel, .inl ⟨rfl, by decide +kernel⟩⟩⟩

theorem witness_ExchangesCompleteOrAreRepeated_1 :
    ∃ (s : State) (t : Nat) (p : _) (up : _) (x : _) (e : _) (y : _) (bs : _) (u : State) (v : _), u = advance t s ∧ findPort u p =
    some x ∧ x.act = .exch e ∧ e.kind = .select ∧ v = markAnswer p (answerGap e.kind) (answerLength e.kind) up u ∧ readAnswer 3 up =
    .ok bs ∧ fieldAt bs 0 1 = 0 ∧ posAt v p e.pos = some y :=
  ⟨asks { authE with kind := .select }, 0, 0, answer [0], portAsks { authE with kind := .select }, { authE with kind := .select },
  posA, [0], _, _, rfl, by decide +kernel, by decide +kernel, by decide +kernel, rfl, by decide +kernel, by decide +kernel,
  by decide +kernel⟩

theorem witness_ExchangesCompleteOrAreRepeated_2 :
    ∃ (s : State) (t : Nat) (p : _) (up : _) (x : _) (e : _) (bs : _) (fk : _) (u : State) (family : W16), u = advance t s ∧
    findPort u p = some x ∧ x.act = .exch e ∧ e.kind = .identity ∧ readAnswer 14 up = .ok bs ∧ family = BitVec.ofNat 16 (fieldAt bs
    8 2) ∧ fieldAt bs 10 1 = 2 ∧ (u.hyc.families.find? fun f => f.1 == family.toNat) = some (family.toNat, fk) :=
  ⟨{ asks { authE with kind := .identity } with hyc := { (asks { authE with kind := .identity }).hyc with families := [(1, 0)] } },
  0, 0, answer identityA, portAsks { authE with kind := .identity }, { authE with kind := .identity }, identityA, 0, _, 1, rfl,
  by decide +kernel, by decide +kernel, by decide +kernel, by decide +kernel, by decide, by decide +kernel, by decide +kernel⟩

theorem witness_ExchangesCompleteOrAreRepeated_3 :
    ∃ (s : State) (t : Nat) (p : _) (up : _) (x : _) (e : _) (y : _) (bs : _) (c : _) (u : State) (v : _), u = advance t s ∧
    findPort u p = some x ∧ x.act = .exch e ∧ e.kind = .auth ∧ v = markAnswer p (answerGap e.kind) (answerLength e.kind) up u ∧
    readAnswer 15 up = .ok bs ∧ fieldAt bs 0 1 = 0 ∧ posAt v p e.pos = some y ∧ c = fieldAt bs 1 4 ∧ (bs.drop 5).take 8 = authMac
    e.key e.challenge y.serial c :=
  ⟨asks authE, 0, 0, answer authA, portAsks authE, authE, posA, authA, _, _, _, rfl, by decide +kernel, by decide +kernel,
  by decide +kernel, rfl, by decide +kernel, by decide +kernel, by decide +kernel, rfl, by decide +kernel⟩

theorem witness_ExchangesCompleteOrAreRepeated_4 :
    ∃ (s : State) (t : Nat) (p : _) (up : _) (x : _) (e : _) (y : _) (bs : _) (lim : _) (u : State) (v : _), u = advance t s ∧
    findPort u p = some x ∧ x.act = .exch e ∧ e.kind = .readLimit ∧ v = markAnswer p (answerGap e.kind) (answerLength e.kind) up u ∧
    readAnswer 15 up = .ok bs ∧ fieldAt bs 0 1 = 0 ∧ posAt v p e.pos = some y ∧ lim = fieldAt bs 1 4 ∧ (bs.drop 5).take 8 = limitMac
    e.key e.challenge y.serial lim ∧ e.proved = none :=
  ⟨asks { authE with kind := .readLimit }, 0, 0, answer limitA, portAsks { authE with kind := .readLimit },
  { authE with kind := .readLimit }, posA, limitA, 500, _, _, rfl, by decide +kernel, by decide +kernel, by decide +kernel, rfl,
  by decide +kernel, by decide +kernel, by decide +kernel, by decide +kernel, by decide +kernel, by decide +kernel⟩

theorem witness_ExchangesCompleteOrAreRepeated_5 :
    ∃ (s : State) (t : Nat) (p : _) (up : _) (x : _) (e : _) (y : _) (bs : _) (n : _) (old : _) (u : State) (v : _), u = advance t s
    ∧ findPort u p = some x ∧ x.act = .exch e ∧ e.kind = .consume ∧ v = markAnswer p (answerGap e.kind) (answerLength e.kind) up u ∧
    readAnswer 19 up = .ok bs ∧ fieldAt bs 0 1 = 0 ∧ posAt v p e.pos = some y ∧ n = consumeN v e ∧ old = fieldAt bs 1 4 ∧ fieldAt bs
    5 4 = old + n ∧ (bs.drop 9).take 8 = consumeMac e.key e.challenge y.serial n old (old + n) :=
  ⟨asks { authE with kind := .consume }, 0, 0, answer consumeA, portAsks { authE with kind := .consume },
  { authE with kind := .consume }, posA, consumeA, _, _, _, _, rfl, by decide +kernel, by decide +kernel, by decide +kernel, rfl,
  by decide +kernel, by decide +kernel, by decide +kernel, rfl, rfl, by decide +kernel, by decide +kernel⟩

theorem witness_ExchangesCompleteOrAreRepeated_6 :
    ∃ (s : State) (t : Nat) (p : _) (up : _) (x : _) (e : _) (err : _) (u : State) (v : _), u = advance t s ∧ findPort u p = some x
    ∧ x.act = .exch e ∧ e.kind = .auth ∧ v = markAnswer p (answerGap e.kind) (answerLength e.kind) up u ∧ e.why = .slate ∧
    readAnswer 15 up = .error err ∧ e.take < 4 ∧ isLeaving v p = false :=
  ⟨asks { authE with why := .slate }, 0, 0, noAnswer, portAsks { authE with why := .slate }, { authE with why := .slate }, .silent,
  _, _, rfl, by decide +kernel, by decide +kernel, by decide +kernel, rfl, by decide +kernel, by decide +kernel, by decide +kernel,
  by decide +kernel⟩

theorem witness_ExchangesCompleteOrAreRepeated_7 :
    ∃ (s : State) (t : Nat) (p : _) (up : _) (x : _) (e : _) (y : _) (bs : _) (u : State) (v : _), u = advance t s ∧ findPort u p =
    some x ∧ x.act = .exch e ∧ e.kind = .auth ∧ v = markAnswer p (answerGap e.kind) (answerLength e.kind) up u ∧ readAnswer 15 up =
    .ok bs ∧ fieldAt bs 0 1 = 0 ∧ posAt v p e.pos = some y ∧ (bs.drop 5).take 8 ≠ authMac e.key e.challenge y.serial (fieldAt bs 1
    4) ∧ e.fails = 0 :=
  ⟨asks authE, 0, 0, answer (List.replicate 13 0), portAsks authE, authE, posA, List.replicate 13 0, _, _, rfl, by decide +kernel,
  by decide +kernel, by decide +kernel, rfl, by decide +kernel, by decide +kernel, by decide +kernel, by decide +kernel,
  by decide +kernel⟩

theorem witness_StepRunsTheFrontCommand :
    ∃ (c : Instr) (rest : List Instr) (s : State), s.pending = c :: rest :=
  ⟨.identify 0 9, [], { inSession with pending := [.identify 0 9] }, by decide⟩

theorem witness_IdleStepCountsOneClk :
    (∃ (s : State), s.pending = [] ∧ s.clk.running = true) ∧
    (∃ (s : State), s.pending = [] ∧ s.clk.running = false) :=
  ⟨⟨inSession, by decide, by decide⟩,
   ⟨State.reset, by decide, by decide⟩⟩

theorem witness_StepTakesOneCommand :
    ∃ (s : State) (t : State), Invariant s ∧ step s = .next t :=
  ⟨inSession, _, by decide, rfl⟩

theorem witness_StepKeepsTheInvariant :
    ∃ (s : State) (t : State), Invariant s ∧ step s = .next t :=
  ⟨inSession, _, by decide, rfl⟩

theorem witness_ResetsReturnTheirRegisters :
    (∃ (cause : _) (s : State) (t : State), cause < 8 ∧ (t = State.reset ∨ t = doReset cause s)) ∧
    (∃ cause, cause < 8) :=
  ⟨⟨2, inSession, State.reset, by decide, .inl rfl⟩,
   ⟨7, by decide⟩⟩

theorem witness_DeviceTimeNeverGoesBack :
    ∃ (c : _) (s : State) (t : State), Invariant s ∧ (∀ at_ fuses reads, c ≠ .pllLock at_ fuses reads) ∧ exec c s = .next t :=
  ⟨.identify 0 9, withOp (opOf 0x04 0 0 0 64) inSession, _, by decide, by simp, rfl⟩

theorem witness_ObjectOperationsLeaveTheSetup :
    ∃ (c : _) (s : State) (s' : State) (code : _) (t : Nat) (k : Nat) (hw : _), dispatchOf c = some (code, t, k, hw) ∧ (0x10 ≤ code
    ∧ code ≤ 0x17 ∨ 0x20 ≤ code ∧ code ≤ 0x25 ∨ code = 0x51 ∨ code = 0x52) ∧ (∀ bad, c = .ctrRead t k bad ∨ c = .ctrAdvance t k bad
    ∨ c = .ctrReserve t k bad ∨ c = .ctrRaise t k bad ∨ c = .ctrGroupRead t k bad → bad = []) ∧ s.nsu.waitS = [] ∧ exec c s = .next
    s' :=
  ⟨.kidAlloc 0 9, withOp (opOf 0x20 9 1 0 0) inSession, _, 0x20, 0, 9, [], by decide, by decide, by simp, by decide, rfl⟩

theorem witness_ClosedOperationsAreRefused :
    ∃ (c : _) (s : State) (code : _) (t : Nat) (k : Nat) (hw : _) (op : Op) (u : State), dispatchOf c = some (code, t, k, hw) ∧ u =
    advance t (hostWrites hw s) ∧ Dispatched code k op u :=
  ⟨.identify 0 9, withOp (opOf 0x04 0 0 0 64) inSession, 4, 0, 9, [], opOf 0x04 0 0 0 64, _, by decide, rfl, by decide⟩

theorem witness_NothingIsDispatchedBeforeItsTurn :
    ∃ (c : _) (s : State) (code : _) (t : Nat) (k : Nat) (hw : _) (u : State), dispatchOf c = some (code, t, k, hw) ∧ u = advance t
    (hostWrites hw s) ∧ (∀ op, findOp u k = some op → op.opcode = code → dispatchable op u = false) :=
  ⟨.identify 0 9, withOp heldOp inSession, 4, 0, 9, [], _, by decide, rfl,
  fun _ h _ => by cases (show some heldOp = some _ from h); decide⟩

theorem witness_CompletionsGoToTheNextEntry :
    (∃ (op : Op) (q : Qp) (u : State), memWf u.mem = true ∧ op.silent = false ∧ findQp u op.qp = some q ∧ (∀ o ∈ u.hif.ops, ∀ a b,
    o.st ≠ .deleting a b)) ∧
    (∃ (op : Op) (q : Qp) (u : State) (a : _), op.silent = false ∧ findQp u op.qp = some q ∧ (∀ o ∈ u.hif.ops, ∀ a b, o.st ≠
    .deleting a b) ∧ (a < completionEntry q ∨ completionEntry q + 32 ≤ a)) ∧
    (∃ (u : State), (∀ o ∈ u.hif.ops, ∀ a b, o.st ≠ .deleting a b)) ∧
    (∃ (op : Op) (u : State), op.silent = true ∧ (∀ o ∈ u.hif.ops, ∀ a b, o.st ≠ .deleting a b)) :=
  ⟨⟨opOf 0x04 0 0 0 64, qpAt 0, withOp (opOf 0x04 0 0 0 64) inSession, by decide, by decide, by decide,
  fun _ h _ _ => by cases List.mem_singleton.mp h; simp [opOf]⟩,
   ⟨opOf 0x04 0 0 0 64, qpAt 0, withOp (opOf 0x04 0 0 0 64) inSession, 0x11020, by decide, by decide,
   fun _ h _ _ => by cases List.mem_singleton.mp h; simp [opOf], by decide⟩,
   ⟨withOp (opOf 0x04 0 0 0 64) inSession, fun _ h _ _ => by cases List.mem_singleton.mp h; simp [opOf]⟩,
   ⟨{ opOf 0x04 0 0 0 64 with silent := true }, withOp (opOf 0x04 0 0 0 64) inSession, by decide,
   fun _ h _ _ => by cases List.mem_singleton.mp h; simp [opOf]⟩⟩

theorem witness_ReadsChangeOnlyHostMemoryAndHif :
    ∃ (c : _) (t : Nat) (k : Nat) (m : _) (s : State) (s' : State), c ∈ [Instr.identify t k, .tagRead t k, .tagSide t k, .healthRead
    t k m, .eolRead t k, .maintStatus t k, .placementReport t k] ∧ exec c s = .next s' :=
  ⟨.identify 0 9, 0, 9, ⟨[], 0, 0, 0⟩, withOp (opOf 0x04 0 0 0 64) inSession, _, by simp, rfl⟩

theorem witness_EventsAreWrittenBufferedOrCounted :
    (∃ (base : _) (size : _) (u : State), memWf u.mem = true ∧ u.ev.ring = some (base, size) ∧ u.hif.linkUp = true ∧ u.ev.buffer =
    [] ∧ u.ev.lost = 0 ∧ (u.ev.next - u.ev.consumed).toNat + 1 < size) ∧
    (∃ (u : State), u.ev.buffer.length < 64 ∧ (u.ev.buffer ≠ [] ∨ u.ev.ring = none ∨ u.hif.linkUp = false)) ∧
    (∃ (u : State), 64 ≤ u.ev.buffer.length) ∧
    (∃ (base : _) (size : _) (u : State), u.ev.ring = some (base, size) ∧ u.hif.linkUp = true ∧ u.ev.buffer = [] ∧ size ≤ (u.ev.next
    - u.ev.consumed).toNat + 1) :=
  ⟨⟨0x20000, 64, { inSession with ev := { inSession.ev with ring := some (0x20000, 64) } }, by decide, by decide, by decide,
  by decide, by decide, by decide⟩,
   ⟨{ inSession with ev := { inSession.ev with buffer := [eventA] } }, by decide, by decide⟩,
   ⟨{ inSession with ev := { inSession.ev with buffer := List.replicate 64 eventA } }, by decide⟩,
   ⟨0x20000, 64, { inSession with ev := { inSession.ev with ring := some (0x20000, 64), next := 63 } }, by decide, by decide,
   by decide, by decide⟩⟩

theorem witness_RisesLeaveOtherCounters :
    (∃ (l : Leaf) (u : State), findLeaf u l.num = some l) ∧
    (∃ (l : Leaf) (n : _), n ≠ l.num) :=
  ⟨⟨leafA, inSession, by decide⟩,
   ⟨leafA, 8, by decide⟩⟩

theorem witness_NoOperationLowersACounter :
    ∃ (c : _) (s : State) (s' : State) (code : _) (t : Nat) (k : Nat) (hw : _), dispatchOf c = some (code, t, k, hw) ∧ (0x10 ≤ code
    ∧ code ≤ 0x17 ∨ 0x20 ≤ code ∧ code ≤ 0x25 ∨ code = 0x51 ∨ code = 0x52) ∧ (∀ bad, c = .ctrRead t k bad ∨ c = .ctrAdvance t k bad
    ∨ c = .ctrReserve t k bad ∨ c = .ctrRaise t k bad ∨ c = .ctrGroupRead t k bad → bad = []) ∧ TableWhole s ∧ exec c s = .next s'
    :=
  ⟨.ctrAdvance 0 9 [], withOp (opOf 0x12 handleA 5 0 0) inSession, _, 0x12, 0, 9, [], by decide, by decide, by simp, by decide, rfl⟩

theorem witness_AdminSizesMakesQpZero :
    (∃ (s : State) (t : Nat) (v : _) (u : State), u = advance t s ∧ barReachable u = true ∧ isRefused u 0x040 v = false ∧ findQp u 0
    = none) ∧
    (∃ (u : State) (q : Qp) (x : _), findQp u 0 = some q ∧ findQp (readTails 0 u) 0 = some x) ∧
    (∃ (u : State) (q : Qp) (x : _), findQp u 0 = some q ∧ findQp (readHeads 0 u) 0 = some x) ∧
    (∃ (q : Qp), q.coalCount ≤ 1) :=
  ⟨⟨beforeSetup, 0, 0x11, _, rfl, by decide, by decide, by decide⟩,
   ⟨inSession, qpAt 0, qpAt 0, by decide, by decide⟩,
   ⟨inSession, qpAt 0, qpAt 0, by decide, by decide⟩,
   ⟨qpAt 0, by decide⟩⟩

/-! ### Witnesses of the premises inside a conclusion -/

/-- The three ends of a write: its first copy, its second, and a copy forward (`Obligations.theJournalWritesSlotsInOrder`). -/
theorem witness_write_ends :
    (isCopying progA.write.what = false ∧ progA.bank < 2 ∧ progA.record.single = false ∧ recSlots progA.record ≤ progA.done + 1 ∧
      (programming progA).jrn.progs.find? (fun p => p.bank == 0) = some progA) ∧
    (isCopying progQ.write.what = false ∧ 2 ≤ progQ.bank ∧ recSlots progQ.record ≤ progQ.done + 1 ∧
      (programming progQ).jrn.progs.find? (fun p => p.bank == 2) = some progQ) ∧
    (isCopying progF.write.what = true ∧ recSlots progF.record ≤ progF.done + 1 ∧
      (programming progF).jrn.progs.find? (fun p => p.bank == 0) = some progF) := by decide

/-- Both sides of the 2,048 slots that R141 asks for. -/
theorem witness_caps_sides :
    ((recomputeCaps { inSession with pmu := { inSession.pmu with cMeas := 0 } }).owed.r < 2048) ∧
      2048 ≤ (recomputeCaps { inSession with pmu := { inSession.pmu with cMeas := 4700, esrMeas := 40 } }).owed.r := by
  decide +kernel

/-- A held port whose charge time, and one whose fault time, is over. -/
def heldPort (st : PortSt) : Port := { portA with held := true, st := st, since := 0 }
theorem witness_held_timers :
    (findPort (advance 0 (withPort (heldPort .charging))) 0 = some (heldPort .charging) ∧
        (heldPort .charging).since + twentyFiveMs ≤ (advance 0 (withPort (heldPort .charging))).clk.now) ∧
      findPort (advance 0 (withPort (heldPort .fault))) 0 = some (heldPort .fault) ∧
        (heldPort .fault).since + hundredMs ≤ (advance 0 (withPort (heldPort .fault))).clk.now := by decide

/-- SAFE, and the time after SHUTDOWN_PREPARE, meet an operation that they do not serve. -/
theorem witness_not_served :
    (inSafe { inSession with regs := { inSession.regs with safeCause := 1 } } = true ∧ servedInSafe (opOf 0x12 handleA 5 0 0) = false) ∧
      inSafe { inSession with pmu := { inSession.pmu with shutdown := true } } = false ∧ servedAfterShutdown 0x12 = false := by decide

/-! ### Every check of WellFormed refuses an ill-formed term -/

theorem refused_times : (Instr.identify (2 ^ 64) 9).wf = false ∧ (Instr.timeLoRead (2 ^ 64) 0 true).wf = false := by decide

theorem refused_host_writes : (Instr.poll 0 [(2 ^ 64, 1)]).wf = false ∧ (Instr.paramWrite 0 9 [(2 ^ 64, 1)]).wf = false := by decide

theorem refused_counter_words :
    (Instr.ctrRead 0 9 [.leaf 262144]).wf = false ∧ (Instr.ctrAdvance 0 9 [.shadow 262144]).wf = false ∧
      (Instr.ctrReserve 0 9 [.group 4096]).wf = false ∧ (Instr.ctrRaise 0 9 [.sect 64]).wf = false ∧
      (Instr.ctrGroupRead 0 9 [.root 0]).wf = false ∧ (Instr.cttScrub 0 1 [.root 4]).wf = false ∧
      (Instr.cttScrub 0 1 [.indirection 3 3]).wf = false := by decide

theorem refused_units :
    (Instr.fenceDispatch 0 4096).wf = false ∧ (Instr.coalescingTime 0 (some 4096)).wf = false ∧
      (Instr.slotProgramVerify 0 4 true).wf = false ∧ (Instr.sectorEraseDone 0 4 0 true 1).wf = false ∧
      (Instr.sectorEraseDone 0 0 64 true 1).wf = false ∧ (Instr.looseMove 0 262144).wf = false ∧
      (Instr.watchdog 0 2).wf = false ∧ (Instr.lockstepMismatch 0 2).wf = false ∧ (Instr.aptWindowClose 0 10).wf = false ∧
      (Instr.sourceStartupTestDone 0 10 []).wf = false ∧ (Instr.internalDrbgReseed 0 8).wf = false := by decide

theorem refused_measures :
    (Instr.dailyCollection 0 ⟨[], 0, 0, 0⟩).wf = false ∧ (Instr.startBistDone 0 ⟨[17], 0, 0, 0, 0⟩).wf = false ∧
      (Instr.shutdownBistDone 0 ⟨[], 1024, 0, 0, 0⟩).wf = false ∧ (Instr.bistBlockDone 0 17 0 0).wf = false ∧
      (Instr.refreshScanSector 0 4 0 0 []).wf = false ∧ (Instr.refreshScanSector 0 0 64 0 []).wf = false ∧
      (Instr.paramRead 0 9 [8] []).wf = false ∧ (Instr.paramRead 0 9 [] [8]).wf = false ∧
      (Instr.entryWindowBoundary 0 true [(10, 1)]).wf = false := by decide +kernel

theorem refused_reads :
    (Instr.refreshScanSector 0 0 0 0 [⟨0, 0, 1024, [], .same⟩]).wf = false ∧ (Instr.compactSlice 0 [⟨4, 0, 0, [], .same⟩]).wf = false ∧
      (Instr.journalReplayDone 0 [⟨0, 64, 0, [], .same⟩]).wf = false ∧ (Instr.pllLock 0 true [⟨0, 0, 0, [4], .same⟩]).wf = false ∧
      (Instr.journalReplayDone 0 [⟨0, 0, 0, [], .other [0]⟩]).wf = false := by decide +kernel

theorem refused_monitors :
    (Instr.monitorCrossing 0 4 0).wf = false ∧ (Instr.internalRailReset 0 0x13 0).wf = false ∧
      (Instr.monThreshWrite 0 true 0 [1]).wf = false := by decide

theorem refused_ports :
    (Instr.statusSweepDue 0 48).wf = false ∧ (Instr.authDue 0 48 1).wf = false ∧ (Instr.authDue 0 0 0).wf = false ∧
      (Instr.authDue 0 0 17).wf = false ∧ (Instr.takeRetry 0 48).wf = false ∧ (Instr.sweepRepeat 0 48).wf = false ∧
      (Instr.staleSlateRetry 0 48).wf = false ∧ (Instr.portCharged 0 48).wf = false ∧ (Instr.portFaultTimer 0 48).wf = false ∧
      (Instr.overcurrent 0 48).wf = false := by decide

theorem refused_answers :
    (Instr.statusAnswer 0 48 noAnswer (sendByte 0x96)).wf = false ∧ (Instr.statusAnswer 0 0 noAnswer []).wf = false ∧
      (Instr.statusAnswer 0 0 ⟨quiet, [[]]⟩ (sendByte 0x96)).wf = false ∧ (Instr.assignAnswer 0 48 noAnswer).wf = false ∧
      (Instr.selectAnswer 0 0 ⟨quiet, [[]]⟩).wf = false ∧ (Instr.identityAnswer 0 48 noAnswer).wf = false ∧
      (Instr.authAnswer 0 0 ⟨[], []⟩).wf = false ∧ (Instr.consumeAnswer 0 0 ⟨quiet, [quiet]⟩).wf = false ∧
      (Instr.readLimitAnswer 0 48 noAnswer).wf = false := by decide +kernel

theorem refused_register_writes :
    (Instr.basePairWrite 0 0x022 true 0).wf = false ∧ (Instr.basePairWrite 0 4096 true 0).wf = false ∧
      (Instr.registerWrite 0 65536 4 0).wf = false ∧ (Instr.registerWrite 0 0 3 0).wf = false := by decide

/-- Terms that the checks admit. -/
theorem admitted_terms :
    (Instr.poll (2 ^ 64 - 1) [(2 ^ 64 - 1, 1)]).wf = true ∧ (Instr.cttScrub 0 1 [.leaf 262143, .root 3, .sect 63]).wf = true ∧
      (Instr.authDue 0 47 16).wf = true ∧ (Instr.authAnswer 0 47 (answer [0])).wf = true ∧
      (Instr.registerWrite 0 0x014 4 0).wf = true ∧ (Instr.startBistDone 0 ⟨[1, 16], 1023, 0, 0, 0⟩).wf = true := by decide +kernel

/-! ### Codes and layouts, with the numbers that the spec gives -/

/-- R219: the CRC of the bytes 0x31 to 0x39. -/
theorem test_crc16 : crc16 [0x31, 0x32, 0x33, 0x34, 0x35, 0x36, 0x37, 0x38, 0x39] = 0x29B1 := by decide +kernel

/-- R253: the CRC-8 of the same bytes. -/
theorem test_crc8 : crc8 [0x31, 0x32, 0x33, 0x34, 0x35, 0x36, 0x37, 0x38, 0x39] = 0xF4 := by decide +kernel

/-- R103, the worked slot of spec/04_journal_flash.md: counter 0x0004_A31C of group 652 and domain 3. -/
theorem test_worked_slot :
    leafPayload { leafA with v := 0x160000, cls := .bounded, domain := 3, group := 652 } false =
      [0x00, 0x00, 0x16, 0x00, 0x00, 0x00, 0x00, 0x00, 0x61, 0x60, 0x14, 0x00] := by decide

/-- R140, R141: the certificate at 4.7 mF and 40 mΩ, and what follows from k at both banks. -/
theorem test_certificate :
    slotWritesAt 4700 40 11000 = 62386 ∧ capsOf 62386 = (31193, 27096, 13548, 13548) ∧
      capsOf 137722 = (36864, 32767, 16383, 16384) := by decide

/-- R174: the step of the collector-site group. -/
theorem test_step : stepFor 3333333 1 1100 = 0x20000000 := by decide +kernel

/-- R133: 12 bytes written at offset 58 of page 0x2A wrap to its start. -/
theorem test_page_wrap :
    writePageBytes (opOf 0x51 0x2A 0xC3A 0 0) ((List.range 12).map fun i => BitVec.ofNat 8 (0xA0 + i))
        ((List.range 64).map fun i => BitVec.ofNat 8 i) =
      [0xA6, 0xA7, 0xA8, 0xA9, 0xAA, 0xAB] ++ ((List.range 52).map fun i => BitVec.ofNat 8 (6 + i)) ++
        [0xA0, 0xA1, 0xA2, 0xA3, 0xA4, 0xA5] := by decide +kernel

/-- R41: the PHASE of the completions 60 to 67 of a ring of 64. -/
theorem test_phase : ((List.range 8).map fun i => phaseOf (60 + i) 64) = [1, 1, 1, 1, 0, 0, 0, 0] := by decide

/-- R215, R224: the byte 0xA8 of tag 1, 0x29 of tag 2 and one of even parity in one sweep; the presence byte, and any other. -/
theorem test_status_slots :
    sweepBytes 4 ⟨quiet, [sendByte 0xA8, sendByte 0x29, sendByte 0x28]⟩ = [.ok 0xA8, .ok 0x29, .error .parity, .error .silent] ∧
      checkPresence (readByte false (sendByte 0x96) (baselineOf quiet)).1 = .good ∧
      checkPresence (readByte false (sendByte 0x97) (baselineOf quiet)).1 = .pattern := by decide +kernel

/-- R217: a slot above the limit, a pulse in both halves, one that is too short, and a byte that stops after a bit. -/
theorem test_bad_slots :
    (readByte false (List.replicate 32 5000) (baselineOf quiet)).1 = .error .collision ∧
      (readByte false (List.replicate 8 0 ++ List.replicate 48 3000) (baselineOf quiet)).1 = .error .symbol ∧
      (readByte false (List.replicate 5 3000) (baselineOf quiet)).1 = .error .symbol ∧
      (readByte false (sendBit true) (baselineOf quiet)).1 = .error .truncated := by decide +kernel

/-- R217: halves without a pulse at 1.4 mA move the baseline by 0.175, 0.328 and 0.462 mA; the third bit is a baseline step. -/
theorem test_baseline_step :
    let slot := List.replicate 8 0 ++ List.replicate 16 3000 ++ List.replicate 8 0 ++ List.replicate 32 1400
    (readByte false (slot ++ slot) (baselineOf quiet)).1 = .error .truncated ∧
      (readByte false (slot ++ slot ++ slot) (baselineOf quiet)).1 = .error .baselineStep := by decide +kernel

/-- FIPS 197, appendices C.1 and C.3 (PRESUMED: R243 and R245 name AES only). -/
theorem test_aes :
    aes (List.range 16) ((List.range 16).map fun i => 17 * i) = beBytes 16 0x69C4E0D86A7B0430D8CDB78070B4C55A ∧
      aes (List.range 32) ((List.range 16).map fun i => 17 * i) = beBytes 16 0x8EA2B7CA516745BFEAFC49904B496089 := by decide +kernel

/-- SP 800-38B, example 2 of AES-256; RFC 3394, 4.3; FIPS 180-4's "abc" (PRESUMED: R99, R246 and R309 name the standards only). -/
theorem test_standards :
    cmac (beBytes 32 0x603DEB1015CA71BE2B73AEF0857D77811F352C073B6108D72D9810A30914DFF4) (beBytes 16 0x6BC1BEE22E409F96E93D7E117393172A) =
        beBytes 16 0x28A7023F452E8F82BD4BF28D8C37C35C ∧
      unwrapKey (ofNats (List.range 32)) (ofNats (beBytes 24 0x64E8C3F9CE0F5BA263E9777905818A2A93C8191E7D6E8AE7)) =
        some (ofNats ((List.range 16).map fun i => 17 * i)) ∧
      sha256 [0x61, 0x62, 0x63] = 0xBA7816BF8F01CFEA414140DE5DAE2223B00361A396177A9CB410FF61F20015AD := by decide +kernel

/-- R246: the wrapped family key unwraps to what was wrapped. -/
theorem test_family_key : unwrapKey (leBytes 32 0) (wrapKey (leBytes 32 0) keyPlain) = some keyPlain := by decide +kernel

/-- R64: number and incarnation of a handle. -/
theorem test_handle : handleOf 0xA31C 1 = 0x0004A31C := by decide

/-- R15: TIME_LO and TIME_HI of 3,600.5 s come from one capture. -/
theorem test_time_read :
    (match exec (.timeLoRead 0x0000038420000000 1 false) { inSession with clk := { inSession.clk with now := 0x0000038420000000 } } with
      | .next t => some t.clk.captures
      | _ => none) = some [(1, 0x0000038420000000)] := by decide +kernel

/-! ### One step -/

/-- R77: an advance of 50 from 100, and of more than remains. -/
theorem test_advance :
    (match exec (.ctrAdvance 0 9 []) (withOp (opOf 0x12 handleA 50 0 0) inSession) with
      | .next t => (findLeaf t 7).map fun l => l.v
      | _ => none) = some 150 := by decide +kernel

/-- R88: above the written ceiling a rise waits for its ceiling record and changes nothing. -/
theorem test_advance_waits :
    (match exec (.ctrAdvance 0 9 []) (withOp (opOf 0x12 handleA 20000 0 0) inSession) with
      | .next t => (findLeaf t 7).map fun l => l.v
      | _ => none) = some 100 := by decide +kernel

/-- R79: a raise to a lower target leaves V. -/
theorem test_raise_below :
    (match exec (.ctrRaise 0 9 []) (withOp (opOf 0x14 handleA 50 0 0) inSession) with
      | .next t => (findLeaf t 7).map fun l => l.v
      | _ => none) = some 100 := by decide +kernel

/-- R353, R355: EVENT_RING_SIZE of the bring-up example sets EVENTS_UP beside ADMIN_UP. -/
theorem test_bring_up :
    (match exec (.eventRingSizeWrite 0 0x14) polled with
      | .next t => some (t.ev.ring, statusWord t)
      | _ => none) = some (some (0x20000, 1024), 0x300) := by decide +kernel

/-- The front command goes, the rest stays. -/
theorem test_queue :
    (match step { inSession with pending := [.watchdog 0 0, .looseMove 0 1] } with
      | .next t => some t.pending
      | _ => none) = some [.looseMove 0 1] := by decide +kernel

end Sys2Proof.Tests
end

section
/-!
PROOFS. The statements of spec/01_architecture.md: what every step keeps, device time, and the two halves in which BAR0 reads it.
-/
namespace Sys2Proof.Machine

open Sys2Proof.Safety

/-! ### What every step keeps -/

/-- A state that meets the invariant keeps, of its own queue and of any device time up to its own, all that `Kept` names. -/
theorem kept_of_invariant {s : State} {n : Nat} (h : Invariant s) (hn : n ≤ s.clk.now) : Kept ⟨s.pending, n⟩ s :=
  ⟨rfl, h.1, .inl hn, h.2⟩

/-- Whatever queue and device time it is counted from, `Kept` has the invariant in it. -/
theorem invariant_of_kept {k : Before} {s : State} (h : Kept k s) : Invariant s := by
  obtain ⟨-, hmem, -, hunits⟩ := h
  exact ⟨hmem, hunits⟩

theorem tick_invariant {s : State} (h : Invariant s) : Invariant (tick s) :=
  invariant_of_kept (tick_kept (kept_of_invariant h le_rfl))

/-- Every command keeps the invariant. Device time is counted from 0 here, since PLL_LOCK begins it again (R299). -/
theorem exec_invariant {c : Instr} {s t : State} (h : Invariant s) (e : exec c s = .next t) : Invariant t :=
  invariant_of_kept (exec_kept c (.inr rfl) (kept_of_invariant h (Nat.zero_le _)) e)

theorem step_idle {s : State} (hq : s.pending = []) : step s = .next (tick s) := by simp [step, hq]

theorem step_front {c : Instr} {rest : List Instr} {s : State} (hq : s.pending = c :: rest) :
    step s = exec c { s with pending := rest } := by simp [step, hq]

/-- Settles O48: a step is one CLK of an idle F840 or the front command with the rest of the queue behind it, and both keep the
invariant, which does not speak of the queue. -/
theorem stepKeepsTheInvariant : Obligations.StepKeepsTheInvariant := by
  intro s t h e
  cases hq : s.pending with
  | nil =>
    rw [step_idle hq, Host.Outcome.next.injEq] at e
    exact e ▸ tick_invariant h
  | cons c rest =>
    rw [step_front hq] at e
    exact exec_invariant (s := { s with pending := rest }) h e

/-! ### Device time -/

/-- Settles O50: of all commands PLL_LOCK alone begins device time again, and what any other keeps is counted from the time that it
found. -/
theorem deviceTimeNeverGoesBack : Obligations.DeviceTimeNeverGoesBack := by
  intro c s t h hc e
  obtain ⟨-, -, htime, -⟩ := exec_kept c (.inl hc) (kept_of_invariant h le_rfl) e
  exact htime

/-- Settles O45: an idle step is a tick, and no word decodes to a command. -/
theorem idleStepCountsOneClk : Obligations.IdleStepCountsOneClk := by
  refine ⟨fun s hq hr => ?running, fun s hq hr => ?stopped, fun s nbits w => ?word⟩
  case running => simp [step_idle hq, tick, hr]
  case stopped => simp [step_idle hq, tick, hr]
  case word => rfl

/-! ### TIME_LO and TIME_HI (R15, R365) -/

/-- Whether BAR0 can be reached does not hang on the time. -/
@[simp] theorem barReachable_advance (t : Nat) (s : State) : barReachable (advance t s) = barReachable s := by simp [barReachable]

/-- Time that passes leaves the captures of the requesters. -/
@[simp] theorem advance_captures (t : Nat) (s : State) : (advance t s).clk.captures = s.clk.captures := by
  unfold advance; split <;> rfl

theorem exec_timeLoRead (t r : Nat) (wide : Bool) (s : State) :
    exec (.timeLoRead t r wide) s = .next (readTimeLo r wide (advance t s)) := rfl

theorem exec_timeHiRead (t r : Nat) (between : Bool) (s : State) :
    exec (.timeHiRead t r between) s = .next (readTimeHi r between (advance t s)) := rfl

/-- A read of TIME_LO captures all of device time for its requester. -/
theorem readTimeLo_reachable {u : State} (r : Nat) (wide : Bool) (hb : barReachable u = true) :
    readTimeLo r wide u = { u with clk := { u.clk with
      captures := (r, timeWord u) :: u.clk.captures.filter (fun x => x.1 != r)
      readData := if wide then timeWord u else timeWord u &&& 0xFFFFFFFF } } := by
  simp [readTimeLo, hb, returnData, setCapture]

/-- A read of TIME_HI right after one of TIME_LO returns the upper half of what that one captured, and drops the capture. -/
theorem readTimeHi_captured {u : State} {r : Nat} {word : W64} (hb : barReachable u = true)
    (hc : (u.clk.captures.find? fun x => x.1 == r) = some (r, word)) :
    readTimeHi r false u = { u with clk := { u.clk with
      captures := u.clk.captures.filter (fun x => x.1 != r), readData := word >>> 32 } } := by
  simp [readTimeHi, hb, hc, returnData, setCapture]

/-- Without a capture of the last read, for want of one or for a read between, TIME_HI returns the upper half of the time as it is. -/
theorem readTimeHi_current {u : State} {r : Nat} {between : Bool} (hb : barReachable u = true)
    (hc : between = true ∨ (u.clk.captures.find? fun x => x.1 == r) = none) :
    readTimeHi r between u = { u with clk := { u.clk with
      captures := u.clk.captures.filter (fun x => x.1 != r), readData := timeWord u >>> 32 } } := by
  rcases hc with rfl | hc
  · cases hf : u.clk.captures.find? fun x => x.1 == r <;> simp [readTimeHi, hb, hf, returnData, setCapture]
  · simp [readTimeHi, hb, hc, returnData, setCapture]

/-- Settles O21: one clause per kind of read, TIME_LO, and TIME_HI with a capture, with none, and after a read between. -/
theorem timeReadsComplete : Obligations.TimeReadsComplete := by
  refine ⟨?lo, ?captured, ?uncaptured, ?between⟩
  case lo =>
    rintro s t r wide u rfl hb
    rw [exec_timeLoRead, readTimeLo_reachable r wide hb]
  case captured =>
    rintro s t r word u rfl hb hc
    rw [exec_timeHiRead, readTimeHi_captured hb hc]
  case uncaptured =>
    rintro s t r u rfl hb hc
    rw [exec_timeHiRead, readTimeHi_current hb (.inr hc)]
  case between =>
    rintro s t r u rfl hb
    rw [exec_timeHiRead, readTimeHi_current hb (.inl rfl)]

/-- Settles O22: the capture that TIME_LO makes is the requester's first, it outlives the time that passes, and BAR0 stays reachable. -/
theorem timeHalvesAreOfOneInstant : Obligations.TimeHalvesAreOfOneInstant := by
  rintro s t r u t' rfl hb
  have hlo := readTimeLo_reachable r false hb
  set u := advance t s
  set v := readTimeLo r false u
  have hreach : barReachable (advance t' v) = true := by rw [barReachable_advance, hlo]; exact hb
  have hcapture : ((advance t' v).clk.captures.find? fun x => x.1 == r) = some (r, timeWord u) := by simp [hlo]
  refine ⟨v, _, exec_timeLoRead t r false s, exec_timeHiRead t' r false v, ?_, ?_⟩
  · simp [hlo]
  · rw [readTimeHi_captured hreach hcapture]

end Sys2Proof.Machine
end

section
/-!
PROOFS. The statements of spec/02_host_rings.md: what HIF writes into its rings, and what it reads from them.
-/
namespace Sys2Proof.Machine

open Sys2Proof.Safety

/-! ### The sizes of what is written -/

@[simp] theorem length_leBytes (n v : Nat) : (leBytes n v).length = n := by
  induction n generalizing v with
  | zero => rfl
  | succ n ih => simp [leBytes, ih]

@[simp] theorem length_padTo (n : Nat) (bs : List Byte) : (padTo n bs).length = n := by simp [padTo]

@[simp] theorem length_completionBytes (op : Op) (q : Qp) (st : Status) (resA resB : W64) (skipped : Bool) (s : State) :
    (completionBytes op q st resA resB skipped s).length = 32 := by
  simp [completionBytes]

@[simp] theorem length_eventBytes (e : Event) (phase : Nat) : (eventBytes e phase).length = 32 := by simp [eventBytes]

/-! ### Completions (R39-R42, R49, R55) -/

/-- No QP_DELETE waits for the end of a queue pair's operations. -/
abbrev NoDeleteWaits (s : State) : Prop := ∀ o ∈ s.hif.ops, ∀ a b, o.st ≠ .deleting a b

/-- Where no QP_DELETE waits, the end of an operation is its completion and its places freed. -/
theorem complete_of_noDeleteWaits {s : State} (h : NoDeleteWaits s) (op : Op) (st : Status) (resA resB : W64) (skipped : Bool) :
    complete op st resA resB skipped s = removeOp op.id (writeCompletion op st resA resB skipped s) := by
  refine endDelete_none _ _ fun o ho => h o ?_
  rw [removeOp, writeCompletion_ops] at ho
  exact List.mem_of_mem_filter ho

theorem writeCompletion_mem {op : Op} {q : Qp} {s : State} (hs : op.silent = false) (hq : findQp s op.qp = some q) (st : Status)
    (resA resB : W64) (skipped : Bool) :
    (writeCompletion op st resA resB skipped s).mem =
      memPutBytes s.mem (completionEntry q) (completionBytes op q st resA resB skipped s) := by
  simp [writeCompletion, hs, hq, writeHost, completionEntry]

theorem writeCompletion_silent {op : Op} (hs : op.silent = true) (st : Status) (resA resB : W64) (skipped : Bool) (s : State) :
    writeCompletion op st resA resB skipped s = s := by
  simp [writeCompletion, hs]

/-- The memory that an operation's completion leaves, where no QP_DELETE waits. -/
theorem complete_mem {op : Op} {q : Qp} {s : State} (hs : op.silent = false) (hq : findQp s op.qp = some q) (hd : NoDeleteWaits s)
    (st : Status) (resA resB : W64) (skipped : Bool) :
    (complete op st resA resB skipped s).mem =
      memPutBytes s.mem (completionEntry q) (completionBytes op q st resA resB skipped s) := by
  rw [complete_of_noDeleteWaits hd, removeOp_mem, writeCompletion_mem hs hq]

/-- Settles O54: where no QP_DELETE waits, a completion is one write of 32 bytes, and the operation is taken out. -/
theorem completionsGoToTheNextEntry : Obligations.CompletionsGoToTheNextEntry := by
  refine ⟨?entry, ?elsewhere, ?ended, ?silent⟩
  case entry =>
    intro op st resA resB skipped q u hmem hs hq hd
    rw [readHost, complete_mem hs hq hd]
    have hread := memGetBytes_memPutBytes (completionBytes op q st resA resB skipped u) u.mem (completionEntry q) hmem
    rwa [length_completionBytes] at hread
  case elsewhere =>
    intro op st resA resB skipped q u a hs hq hd ha
    rw [complete_mem hs hq hd]
    exact memByte_memPutBytes_other _ _ (by rwa [length_completionBytes])
  case ended =>
    intro op st resA resB skipped u hd
    rw [complete_of_noDeleteWaits hd, findOp_removeOp]
  case silent =>
    intro op st resA resB skipped u hs hd
    rw [complete_of_noDeleteWaits hd, removeOp_mem, writeCompletion_silent hs]

/-! ### Events (R51-R54) -/

/-- An event is written into the ring's next entry, with the phase of its number. -/
theorem writeEvent_mem {e : Event} {base size : Nat} {s : State} (hr : s.ev.ring = some (base, size)) :
    (writeEvent e s).mem =
      memPutBytes s.mem (base + 32 * (s.ev.next.toNat % size)) (eventBytes e (phaseOf s.ev.next.toNat size)) := by
  simp [writeEvent, hr, writeHost]

theorem writeEvent_next {e : Event} {base size : Nat} {s : State} (hr : s.ev.ring = some (base, size)) :
    (writeEvent e s).ev.next = s.ev.next + 1 := by
  simp [writeEvent, hr]

/-- The ring is set up and the link is up: HIF can write into it. -/
theorem eventRingLive_iff (s : State) : eventRingLive s = true ↔ s.ev.ring ≠ none ∧ s.hif.linkUp = true := by
  simp [eventRingLive, eventsUp, Option.isSome_iff_ne_none]

theorem ringFull_iff {base size : Nat} {s : State} (hr : s.ev.ring = some (base, size)) :
    ringFull s = true ↔ size ≤ (s.ev.next - s.ev.consumed).toNat + 1 := by
  simp [ringFull, eventSize, eventsUsed, hr]

/-- With nothing in the buffer or among the lost, and room in the ring, an event is written. -/
theorem deliverEvent_room {e : Event} {s : State} (hb : s.ev.buffer = []) (hlive : eventRingLive s = true) (hl : s.ev.lost = 0)
    (hroom : ¬ringFull s = true) : deliverEvent e s = writeEvent e s := by
  rw [deliverEvent, if_pos ⟨hb, hlive⟩, if_neg (by simp [hl, hroom])]

theorem deliverEvent_full {e : Event} {s : State} (hb : s.ev.buffer = []) (hlive : eventRingLive s = true)
    (hfull : ringFull s = true) : deliverEvent e s = loseEvent e s := by
  rw [deliverEvent, if_pos ⟨hb, hlive⟩, if_pos (.inr hfull)]

/-- While the ring cannot take it, or others wait before it, an event joins the buffer, if that has a place. -/
theorem deliverEvent_buffered {e : Event} {s : State} (hw : ¬(s.ev.buffer = [] ∧ eventRingLive s = true))
    (hlen : s.ev.buffer.length < 64) :
    deliverEvent e s = { s with ev := { s.ev with buffer := s.ev.buffer ++ [e] } } := by
  rw [deliverEvent, if_neg hw, if_pos hlen]

theorem deliverEvent_bufferFull {e : Event} {s : State} (hlen : 64 ≤ s.ev.buffer.length) : deliverEvent e s = loseEvent e s := by
  have hne : s.ev.buffer ≠ [] := fun h => by simp [h] at hlen
  rw [deliverEvent, if_neg fun h => hne h.1, if_neg (by omega)]

/-- Settles O56: one clause per place an event can take: the ring, the buffer, and the lost of a full buffer and of a full ring. -/
theorem eventsAreWrittenBufferedOrCounted : Obligations.EventsAreWrittenBufferedOrCounted := by
  refine ⟨?written, ?buffered, ?bufferFull, ?ringFull⟩
  case written =>
    intro e base size u hmem hr hlink hb hl hroom
    have hlive : eventRingLive u = true := (eventRingLive_iff u).mpr ⟨by simp [hr], hlink⟩
    have hfull : ¬ringFull u = true := by rw [ringFull_iff hr]; omega
    rw [deliverEvent_room hb hlive hl hfull, readHost, writeEvent_mem hr]
    refine ⟨?_, writeEvent_next hr, fun a ha => memByte_memPutBytes_other _ _ (by rwa [length_eventBytes])⟩
    have hread := memGetBytes_memPutBytes (eventBytes e (phaseOf u.ev.next.toNat size)) u.mem
      (base + 32 * (u.ev.next.toNat % size)) hmem
    rwa [length_eventBytes] at hread
  case buffered =>
    intro e u hlen hwait
    refine deliverEvent_buffered (fun ⟨hb, hlive⟩ => ?_) hlen
    obtain ⟨hr, hlink⟩ := (eventRingLive_iff u).mp hlive
    simp [hb, hr, hlink] at hwait
  case bufferFull =>
    intro e u hlen
    rw [deliverEvent_bufferFull hlen]
    exact ⟨rfl, rfl, rfl⟩
  case ringFull =>
    intro e base size u hr hlink hb hfull
    have hlive : eventRingLive u = true := (eventRingLive_iff u).mpr ⟨by simp [hr], hlink⟩
    rw [deliverEvent_full hb hlive ((ringFull_iff hr).mpr hfull)]
    exact ⟨rfl, rfl, rfl⟩

/-! ### Polls (R31, R32, R43, R52) -/

/-- A change of the members that satisfy a condition none satisfies leaves the list. -/
theorem modWhere_none {α : Type} {p : α → Bool} (f : α → α) {l : List α} (h : ∀ x ∈ l, p x = false) : modWhere p f l = l :=
  (List.map_congr_left fun x hx => by simp [h x hx]).trans (List.map_id' l)

theorem rereadTails_inRange {s : State} (g : Nat) (h : ∀ q ∈ s.hif.qps, tailOut q = false) : rereadTails g s = s := by
  rw [rereadTails, modWhere_none _ fun q hq => by simp [h q hq]]

/-- A group whose word has not changed: only its tails that lie out of range are read again. -/
theorem pollGroup_unchanged {g : Nat} {s : State} (hword : readWord s (hoistBase s + 4 * g) = nthOr 0 g s.hif.groupWords)
    (hheads : wantsHeads (rereadTails g s) g = false) : pollGroup g s = rereadTails g s := by
  simp [pollGroup, hword, hheads]

/-- A group whose word has changed: the word is kept and the group's tails are read. -/
theorem pollGroup_changed {g : Nat} {s : State} (hword : readWord s (hoistBase s + 4 * g) ≠ nthOr 0 g s.hif.groupWords)
    (hheads : wantsHeads (readTails g { s with hif := { s.hif with
      groupWords := modNth (fun _ => readWord s (hoistBase s + 4 * g)) g s.hif.groupWords } }) g = false) :
    pollGroup g s = readTails g { s with hif := { s.hif with
      groupWords := modNth (fun _ => readWord s (hoistBase s + 4 * g)) g s.hif.groupWords } } := by
  simp only [pollGroup, if_neg hword]
  exact if_neg (Bool.eq_false_iff.mp hheads)

/-- Groups that a poll would leave as they are, one after the other. -/
theorem pollGroups_unchanged {s : State} (n g : Nat) (h : ∀ j, g ≤ j → j < g + n → pollGroup j s = s) : pollGroups n g s = s := by
  induction n generalizing g with
  | zero => rfl
  | succ n ih =>
    rw [pollGroups, h g le_rfl (by omega)]
    exact ih (g + 1) fun j h1 h2 => h j (by omega) (by omega)

theorem pollEvents_noRing {s : State} (h : s.ev.ring = none) : pollEvents s = s := by
  simp [pollEvents, eventRingLive, eventsUp, h]

theorem exec_poll (t : Nat) (hw : HostWrites) (s : State) : exec (.poll t hw) s = .next (pollAll (advance t (hostWrites hw s))) := rfl

/-- Settles O14: no group's turn changes anything, and there is no event ring to serve. -/
theorem unchangedGroupWordsReadNoTails : Obligations.UnchangedGroupWordsReadNoTails := by
  rintro s t hw u rfl hwords htails hheads hring
  set u := advance t (hostWrites hw s)
  have hgroup : ∀ g, 0 ≤ g → g < 0 + 64 → pollGroup g u = u := by
    intro g _ hg
    have hsame : rereadTails g u = u := rereadTails_inRange g htails
    have hlt : g < 64 := by omega
    exact (pollGroup_unchanged (hwords g hlt) (by rw [hsame]; exact hheads g hlt)).trans hsame
  rw [exec_poll, pollAll, pollGroups_unchanged 64 0 hgroup, pollEvents_noRing hring, ite_self]

/-- A member that satisfies the condition of a change is one that has been changed. -/
theorem exists_of_mem_modWhere {α : Type} {p : α → Bool} {f : α → α} {l : List α} {x : α} (hx : x ∈ modWhere p f l)
    (hp : p x = true) : ∃ y, x = f y := by
  obtain ⟨y, -, rfl⟩ := List.mem_map.mp hx
  by_cases hy : p y = true
  · exact ⟨y, if_pos hy⟩
  · simp [hy] at hp

/-- After the tail words of a group are read, each of its QPs holds the one at its place in the hoist. -/
theorem tail_of_mem_readTails {g : Nat} {s : State} {q : Qp} (hq : q ∈ (readTails g s).hif.qps) (hg : q.num / 64 = g) :
    q.tail = readWord s (hoistBase s + 0x400 + 4 * q.num) := by
  obtain ⟨x, rfl⟩ := exists_of_mem_modWhere hq (beq_iff_eq.mpr hg)
  rfl

/-- After the head words of a group are read, each of its QPs holds the one at its place in the hoist. -/
theorem head_of_mem_readHeads {g : Nat} {s : State} {q : Qp} (hq : q ∈ (readHeads g s).hif.qps) (hg : q.num / 64 = g) :
    q.head = readWord s (hoistBase s + 0x4400 + 4 * q.num) := by
  obtain ⟨x, rfl⟩ := exists_of_mem_modWhere hq (beq_iff_eq.mpr hg)
  rfl

theorem exec_tailWordScan (t : Nat) (hw : HostWrites) (s : State) :
    exec (.tailWordScan t hw) s = .next (scanTails (advance t (hostWrites hw s))) := rfl

/-- Settles O13: a poll's two parts; a group whose word has changed and one whose word has not; and one group's turn of the scan. -/
theorem pollsReadTailWords : Obligations.PollsReadTailWords := by
  refine ⟨?poll, ?changed, ?unchanged, ?scan⟩
  case poll =>
    rintro s t hw u rfl hp
    rw [exec_poll, pollAll, if_pos hp]
  case changed =>
    intro g u hword hheads q hq hg
    rw [pollGroup_changed hword hheads] at hq
    exact tail_of_mem_readTails hq hg
  case unchanged =>
    intro g u hword hheads
    exact pollGroup_unchanged hword hheads
  case scan =>
    rintro s t hw u rfl hp
    rw [exec_tailWordScan, scanTails, if_pos hp]

/-! ### Fetching and FENCE (R42, R45, R47) -/

theorem exec_descriptorFetch (t : Nat) (hw : HostWrites) (s : State) : exec (.descriptorFetch t hw) s =
    .next (if s.hif.linkUp then fetchOnce (advance t (hostWrites hw s)) else advance t (hostWrites hw s)) := rfl

theorem exec_fenceDispatch (t q : Nat) (s : State) : exec (.fenceDispatch t q) s = .next (dispatchFence q (advance t s)) := rfl

/-- Settles O15: the read request that `nextFetch` names, and the release of what its FENCE held. -/
theorem fetchAndFenceComplete : Obligations.FetchAndFenceComplete := by
  refine ⟨?fetch, ?fence⟩
  case fetch =>
    rintro s t hw credits q u w rfl hlink hnext rfl
    rw [exec_descriptorFetch, if_pos hlink, fetchOnce, hnext]
    rfl
  case fence =>
    rintro s t q u ids rfl hq rfl
    rw [exec_fenceDispatch, dispatchFence, if_pos hq]

/-! ### Read failures, coalescing, reset and link (R50, R55, R58, R305) -/

theorem exec_descriptorReadFail (t : Nat) (s : State) : exec (.descriptorReadFail t) s =
    .next (if s.hif.linkUp then failFetch (advance t s) else advance t s) := rfl

theorem exec_coalescingTime_qp (t n : Nat) (s : State) :
    exec (.coalescingTime t (some n)) s = .next (coalesceQp n (advance t s)) := rfl

theorem exec_coalescingTime_events (t : Nat) (s : State) :
    exec (.coalescingTime t none) s = .next (coalesceEvents (advance t s)) := rfl

theorem exec_linkUp (t : Nat) (s : State) : exec (.linkUp t) s = .next (linkUp (advance t s)) := rfl

/-- Settles O16: one clause per happening of HIF. -/
theorem hifHappeningsComplete : Obligations.HifHappeningsComplete := by
  refine ⟨?readFail, fun s t => rfl, ?coalesceQp, ?coalesceEvents, fun s t down => rfl, ?link⟩
  case readFail =>
    rintro s t credits q u rfl hlink hnext
    rw [exec_descriptorReadFail, if_pos hlink, failFetch, hnext]
  case coalesceQp =>
    rintro s t n q u rfl hq hwait hover
    rw [exec_coalescingTime_qp, coalesceQp, hq]
    exact congrArg _ (if_pos ⟨hwait, hover⟩)
  case coalesceEvents =>
    rintro s t u rfl hwait hover
    rw [exec_coalescingTime_events]
    exact congrArg _ (if_pos ⟨hwait, hover⟩)
  case link =>
    rintro s t u rfl hready
    rw [exec_linkUp, linkUp, if_pos hready]

/-! ### QP 0 (R33) -/

/-- A member whose number no other has is found where it has been put. -/
theorem find_insertBy {α : Type} {num : α → Nat} {x : α} {l : List α} (h : ∀ y ∈ l, num y ≠ num x) :
    (insertBy num x l).find? (fun y => num y == num x) = some x := by
  induction l with
  | nil => simp [insertBy]
  | cons y l ih =>
    obtain ⟨hy, hl⟩ := List.forall_mem_cons.mp h
    by_cases hlt : num x < num y <;> simp [insertBy, hlt, hy, ih hl]

/-- Where no QP of its number exists, a QP that is put in is found. -/
theorem findQp_insertBy {s : State} {q : Qp} (h : findQp s q.num = none) :
    (insertBy (fun q => q.num) q s.hif.qps).find? (fun x => x.num == q.num) = some q :=
  find_insertBy fun y hy => by simpa using List.find?_eq_none.mp h y hy

theorem exec_adminSizesWrite (t : Nat) (v : W32) (s : State) :
    exec (.adminSizesWrite t v) s = .next (write32 0x040 v (advance t s)) := rfl

/-- A write of ADMIN_SIZES that is not refused. -/
theorem write32_adminSizes {v : W32} {s : State} (hb : barReachable s = true) (hr : isRefused s 0x040 v = false) :
    write32 0x040 v s = putAdminSizes v s := by
  simp [write32, hb, hr, putRegister]

/-- A QP that is found is among those there are, under its number. -/
theorem mem_of_findQp {s : State} {n : Nat} {q : Qp} (h : findQp s n = some q) : q ∈ s.hif.qps ∧ q.num = n :=
  ⟨List.mem_of_find?_eq_some h, by simpa using List.find?_some h⟩

/-- Settles O60: QP 0 is found where ADMIN_SIZES puts it, its words stand first of their group, and a count of at most 1 signals each completion. -/
theorem adminSizesMakesQpZero : Obligations.AdminSizesMakesQpZero := by
  refine ⟨?made, ?tail, ?head, ?signal⟩
  case made =>
    rintro s t v u rfl hb hr hnone
    refine ⟨_, adminQp (advance t s) v, exec_adminSizesWrite t v s, ?_, rfl, rfl, rfl, rfl, rfl, rfl, rfl, rfl, Nat.zero_le 1⟩
    rw [write32_adminSizes hb hr]
    exact findQp_insertBy (q := adminQp (advance t s) v) hnone
  case tail =>
    intro u _ _ x hx
    obtain ⟨hmem, hnum⟩ := mem_of_findQp hx
    simpa [hnum] using tail_of_mem_readTails hmem (by simp [hnum])
  case head =>
    intro u _ _ x hx
    obtain ⟨hmem, hnum⟩ := mem_of_findQp hx
    simpa [hnum] using head_of_mem_readHeads hmem (by simp [hnum])
  case signal =>
    intro q u hq
    exact if_pos (.inl hq)

end Sys2Proof.Machine
end

section
/-!
PROOFS. The statements of spec/02_host_rings.md: the dispatch of an operation, its refusals, what it leaves as it is, and the admin
operations.
-/
namespace Sys2Proof.Machine

open Sys2Proof.Safety

/-! ### Every dispatch of an operation of R60 -/

/-- What the command that dispatches an operation does to it, once it stands at its dispatch: its meaning, and for those after which
what waits is looked at again, that. -/
def effectOf : Instr → Op → State → State
  | .qpCreate _ _, op, s => qpCreate op s
  | .qpDelete _ _, op, s => background (qpDelete op s)
  | .identify _ _, op, s => identify op s
  | .shutdownPrepare _ _, op, s => shutdownPrepare op s
  | .timeSet _ _, op, s => background (timeSet op s)
  | .fwStage _ _ _, op, s => background (fwStage op s)
  | .fwActivate _ _ readable, op, s => background (fwActivate readable op s)
  | .familyKeyLoad _ _ _, op, s => background (familyKeyLoad op s)
  | .domainSet _ _, op, s => background (domainSet op s)
  | .ctrCreate _ _, op, s => background (runCounter [] op s)
  | .ctrRead _ _ bad, op, s => if bad = [] then runCounter [] op s else background (runCounter bad op s)
  | .ctrAdvance _ _ bad, op, s => background (runCounter bad op s)
  | .ctrReserve _ _ bad, op, s => background (runCounter bad op s)
  | .ctrRaise _ _ bad, op, s => background (runCounter bad op s)
  | .ctrClose _ _, op, s => background (runCounter [] op s)
  | .ctrReclass _ _, op, s => background (runCounter [] op s)
  | .ctrGroupRead _ _ bad, op, s => if bad = [] then runCounter [] op s else background (runCounter bad op s)
  | .kidAlloc _ _, op, s => background (runKid op s)
  | .kidSpliceBegin _ _, op, s => background (runKid op s)
  | .kidFlushed _ _, op, s => background (runKid op s)
  | .kidSpliceCommit _ _, op, s => background (runKid op s)
  | .kidRead _ _, op, s => runKid op s
  | .faultReport _ _, op, s => background (runCounter [] op s)
  | .hySlate _ _, op, s => background (runPort op s)
  | .tagAuth _ _, op, s => background (runPort op s)
  | .tagConsume _ _, op, s => background (runPort op s)
  | .tagRead _ _, op, s => runTagRead op s
  | .tagSide _ _, op, s => runTagRead op s
  | .portPower _ _, op, s => background (runPort op s)
  | .drbgInstantiate _ _ _, op, s => runDrbg op s
  | .drbgGenerate _ _ _, op, s => runDrbg op s
  | .drbgReseed _ _ _, op, s => runDrbg op s
  | .drbgUninstantiate _ _, op, s => runDrbg op s
  | .paramRead _ _ corrected uncorrectable, op, s => runParamRead corrected uncorrectable op s
  | .paramWrite _ _ _, op, s => background (runParam op s)
  | .paramSync _ _, op, s => background (runParam op s)
  | .healthRead _ _ m, op, s => healthRead m op s
  | .eolRead _ _, op, s => eolRead op s
  | .maintStart _ _, op, s => background (maintStart op s)
  | .maintStatus _ _, op, s => maintStatus op s
  | .placementReport _ _, op, s => placementReport op s
  | _, _, s => s

/-- Every command that dispatches an operation of R60 is the dispatch of its effect, after what the host has written by then. -/
theorem exec_of_dispatchOf {c : Instr} {code t k : Nat} {hw : HostWrites} (hd : dispatchOf c = some (code, t, k, hw)) (s : State) :
    exec c s = .next (dispatchAt (hasCode code) t k (effectOf c) (hostWrites hw s)) := by
  cases c <;> cases hd <;> rfl

/-- At its dispatch an operation of R60 has its effect. -/
theorem exec_of_dispatched {c : Instr} {code t k : Nat} {hw : HostWrites} {op : Op} {s : State}
    (hd : dispatchOf c = some (code, t, k, hw)) (h : Dispatched code k op (advance t (hostWrites hw s))) :
    exec c s = .next (effectOf c op (advance t (hostWrites hw s))) := by
  rw [exec_of_dispatchOf hd, dispatchAt_dispatched h]

/-- The same for the commands that bring nothing that the host has written. -/
theorem exec_dispatched {c : Instr} {code t k : Nat} {op : Op} {s : State} (hd : dispatchOf c = some (code, t, k, []))
    (h : Dispatched code k op (advance t s)) : exec c s = .next (effectOf c op (advance t s)) :=
  exec_of_dispatched (hw := []) hd h

/-- Settles O53: without an operation at its dispatch, a dispatch is the advance of the clock. -/
theorem nothingIsDispatchedBeforeItsTurn : Obligations.NothingIsDispatchedBeforeItsTurn := by
  rintro c s code t k hw u hd rfl hnone
  rw [exec_of_dispatchOf hd, dispatchAt_none hnone]

/-! ### Refusals for the state of the part (R60, R324, R389) -/

/-- An operation that its checks refuse. -/
theorem gated_refused {check : Option Status} {st : Status} {op : Op} {run : State → State} {s : State} (h : check = some st) :
    gated check op run s = refuse op st s := by
  rw [h, gated]

/-- An operation that passes its checks. -/
theorem gated_passed {check : Option Status} {op : Op} {run : State → State} {s : State} (h : check = none) :
    gated check op run s = run s := by
  rw [h, gated]

section
variable {op : Op} {st : Status} {s : State}

theorem ctrGate_of_gate (h : ∀ ready, gate op ready s = some st) : ctrGate op s = some st := by rw [ctrGate, h]

theorem kidGate_of_gate (h : ∀ ready, gate op ready s = some st) : kidGate op s = some st := by rw [kidGate, h]

theorem paramGate_of_gate (h : ∀ ready, gate op ready s = some st) : paramGate op s = some st := by rw [paramGate, h]

theorem drbgGate_of_gate (h : ∀ ready, gate op ready s = some st) : drbgGate op s = some st := by rw [drbgGate, h]

theorem tagGate_of_gate (h : ∀ ready, gate op ready s = some st) : tagGate op s = some st := by rw [tagGate, h]

/-- Whatever the readiness rule of its family, an operation that the state of the part refuses is refused at its dispatch, and has no
other effect. -/
theorem effectOf_refused {c : Instr} {code t k : Nat} {hw : HostWrites} (hd : dispatchOf c = some (code, t, k, hw))
    (h : ∀ ready, gate op ready s = some st) :
    effectOf c op s = refuse op st s ∨ effectOf c op s = background (refuse op st s) := by
  have hctr (bad : List BadWord) : runCounter bad op s = refuse op st s := gated_refused (ctrGate_of_gate h)
  have hkid : runKid op s = refuse op st s := gated_refused (kidGate_of_gate h)
  have hport : runPort op s = refuse op st s := gated_refused (tagGate_of_gate h)
  have htag : runTagRead op s = refuse op st s := gated_refused (tagGate_of_gate h)
  have hdrbg : runDrbg op s = refuse op st s := gated_refused (drbgGate_of_gate h)
  have hparam : runParam op s = refuse op st s := gated_refused (paramGate_of_gate h)
  cases c with
  | qpCreate => exact .inl (show qpCreate op s = _ from gated_refused (h _))
  | identify => exact .inl (show identify op s = _ from gated_refused (h _))
  | shutdownPrepare => exact .inl (show shutdownPrepare op s = _ from gated_refused (h _))
  | paramRead _ _ corrected uncorrectable =>
    exact .inl (show runParamRead corrected uncorrectable op s = _ from gated_refused (paramGate_of_gate h))
  | healthRead _ _ m => exact .inl (show healthRead m op s = _ from gated_refused (h _))
  | eolRead => exact .inl (show eolRead op s = _ from gated_refused (h _))
  | maintStatus => exact .inl (show maintStatus op s = _ from gated_refused (h _))
  | placementReport => exact .inl (show placementReport op s = _ from gated_refused (h _))
  | kidRead => exact .inl hkid
  | tagRead => exact .inl htag
  | tagSide => exact .inl htag
  | drbgInstantiate => exact .inl hdrbg
  | drbgGenerate => exact .inl hdrbg
  | drbgReseed => exact .inl hdrbg
  | drbgUninstantiate => exact .inl hdrbg
  | qpDelete => exact .inr (congrArg background (gated_refused (h _)))
  | timeSet => exact .inr (congrArg background (gated_refused (h _)))
  | fwStage => exact .inr (congrArg background (gated_refused (h _)))
  | fwActivate => exact .inr (congrArg background (gated_refused (h _)))
  | familyKeyLoad => exact .inr (congrArg background (gated_refused (h _)))
  | domainSet => exact .inr (congrArg background (gated_refused (h _)))
  | maintStart => exact .inr (congrArg background (gated_refused (h _)))
  | ctrRead t k bad => by_cases hb : bad = [] <;> simp [effectOf, hb, hctr]
  | ctrGroupRead t k bad => by_cases hb : bad = [] <;> simp [effectOf, hb, hctr]
  | ctrCreate => exact .inr (congrArg background (hctr _))
  | ctrAdvance => exact .inr (congrArg background (hctr _))
  | ctrReserve => exact .inr (congrArg background (hctr _))
  | ctrRaise => exact .inr (congrArg background (hctr _))
  | ctrClose => exact .inr (congrArg background (hctr _))
  | ctrReclass => exact .inr (congrArg background (hctr _))
  | faultReport => exact .inr (congrArg background (hctr _))
  | kidAlloc => exact .inr (congrArg background hkid)
  | kidSpliceBegin => exact .inr (congrArg background hkid)
  | kidFlushed => exact .inr (congrArg background hkid)
  | kidSpliceCommit => exact .inr (congrArg background hkid)
  | hySlate => exact .inr (congrArg background hport)
  | tagAuth => exact .inr (congrArg background hport)
  | tagConsume => exact .inr (congrArg background hport)
  | portPower => exact .inr (congrArg background hport)
  | paramWrite => exact .inr (congrArg background hparam)
  | paramSync => exact .inr (congrArg background hparam)
  | _ => cases hd

end

/-- Settles O52: both checks stand first in every family, whatever its readiness rule. -/
theorem closedOperationsAreRefused : Obligations.ClosedOperationsAreRefused := by
  rintro c s code t k hw op u hd rfl hdisp
  rw [exec_of_dispatched hd hdisp, Host.Outcome.next.injEq, Host.Outcome.next.injEq, Host.Outcome.next.injEq,
    Host.Outcome.next.injEq]
  refine ⟨fun hsafe hserved => ?safe, fun hsafe hshut hserved => ?shutdown⟩
  case safe => exact effectOf_refused hd fun _ => gate_safe hsafe hserved
  case shutdown =>
    have hcode : op.opcode = code := hasCode_opcode hdisp.2.1
    exact effectOf_refused hd fun _ => gate_shutdown hsafe hshut (by rwa [hcode])

/-! ### What operations on objects leave -/

/-- While no host operation waits for entropy, the operations on counters that find no bad word, on key identifiers and on the
parameter store, and fault reports, leave what `Fixed` names. -/
theorem effectOf_fixed {c : Instr} {code t k : Nat} {hw : HostWrites} {op : Op} {s : State} {x : Setup}
    (hd : dispatchOf c = some (code, t, k, hw))
    (hcode : 0x10 ≤ code ∧ code ≤ 0x17 ∨ 0x20 ≤ code ∧ code ≤ 0x25 ∨ code = 0x51 ∨ code = 0x52)
    (hbad : ∀ bad, c = .ctrRead t k bad ∨ c = .ctrAdvance t k bad ∨ c = .ctrReserve t k bad ∨ c = .ctrRaise t k bad ∨
      c = .ctrGroupRead t k bad → bad = [])
    (h : Fixed x s) : Fixed x (effectOf c op s) := by
  have hctr : Fixed x (runCounter [] op s) := runCounter_fixed op h
  have hkid : Fixed x (background (runKid op s)) := background_fixed (runKid_fixed op h)
  have hparam : Fixed x (background (runParam op s)) := background_fixed (runParam_fixed op h)
  cases c with
  | ctrCreate => exact background_fixed hctr
  | ctrClose => exact background_fixed hctr
  | ctrReclass => exact background_fixed hctr
  | faultReport => exact background_fixed hctr
  | ctrRead t k bad =>
    cases hd
    obtain rfl := hbad bad (by simp)
    exact hctr
  | ctrGroupRead t k bad =>
    cases hd
    obtain rfl := hbad bad (by simp)
    exact hctr
  | ctrAdvance t k bad =>
    cases hd
    obtain rfl := hbad bad (by simp)
    exact background_fixed hctr
  | ctrReserve t k bad =>
    cases hd
    obtain rfl := hbad bad (by simp)
    exact background_fixed hctr
  | ctrRaise t k bad =>
    cases hd
    obtain rfl := hbad bad (by simp)
    exact background_fixed hctr
  | kidAlloc => exact hkid
  | kidSpliceBegin => exact hkid
  | kidFlushed => exact hkid
  | kidSpliceCommit => exact hkid
  | kidRead => exact runKid_fixed op h
  | paramWrite => exact hparam
  | paramSync => exact hparam
  | _ => cases hd <;> omega

/-- What stays of a state, in `Fixed`'s terms. -/
def setupOf (s : State) : Setup :=
  (s.clk, { s.regs with safeCause := 0 }, s.drb, { s.pmu with vTopCap := none, drawing := false })

/-- With no host operation waiting for entropy, every state keeps its own setup. -/
theorem fixed_setupOf {s : State} (h : s.nsu.waitS = []) : Fixed (setupOf s) s := ⟨rfl, rfl, rfl, h, rfl⟩

/-- What a state that keeps another's setup shares with it. -/
theorem Fixed.frame {u v : State} (h : Fixed (setupOf u) v) :
    v.clk = u.clk ∧ { v.regs with safeCause := u.regs.safeCause } = u.regs ∧ v.drb = u.drb ∧
      { v.pmu with vTopCap := u.pmu.vTopCap, drawing := u.pmu.drawing } = u.pmu := by
  obtain ⟨hclk, hregs, hdrb, -, hpmu⟩ := h
  exact ⟨hclk, congrArg (fun r : Regs => { r with safeCause := u.regs.safeCause }) hregs, hdrb,
    congrArg (fun p : Pmu => { p with vTopCap := u.pmu.vTopCap, drawing := u.pmu.drawing }) hpmu⟩

/-- Settles O51: the frame of `Fixed`, from the dispatch of an object operation on. -/
theorem objectOperationsLeaveTheSetup : Obligations.ObjectOperationsLeaveTheSetup := by
  intro c s s' code t k hw hd hcode hbad hwait e
  rw [exec_of_dispatchOf hd, Host.Outcome.next.injEq] at e
  have h0 : Fixed (setupOf (advance t s)) (advance t (hostWrites hw s)) := by
    rw [advance_hostWrites]
    exact fixed_setupOf (s := advance t s) (by simpa using hwait)
  have h1 : Fixed (setupOf (advance t s)) s' :=
    e ▸ dispatchAt_fixed (fun _ => effectOf_fixed hd hcode hbad h0) h0
  simpa using h1.frame

/-! ### Operations that only read (R59, R61, R178, R255, R321, R322, R334) -/

/-- Whatever its status, an operation leaves all but HIF, host memory, what leaves the part, and who waits for entropy. -/
abbrev LeavesHostRest (run : Op → State → State) : Prop := ∀ op s, hostRest (run op s) = hostRest s

@[simp] theorem writeHost_hostRest (a : Nat) (bs : List Byte) (s : State) : hostRest (writeHost a bs s) = hostRest s := rfl

theorem gated_hostRest {check : Option Status} {op : Op} {run : State → State} {s : State} (h : hostRest (run s) = hostRest s) :
    hostRest (gated check op run s) = hostRest s := by
  unfold gated
  split
  · exact refuse_hostRest _ _ _
  · exact h

theorem identify_hostRest : LeavesHostRest identify := by
  refine fun op s => gated_hostRest ?_
  split
  · exact refuse_hostRest _ _ _
  · rw [complete_hostRest, writeHost_hostRest]

theorem runTagRead_hostRest : LeavesHostRest runTagRead := by
  refine fun op s => gated_hostRest ?_
  unfold tagReadRun
  (repeat' split) <;> simp

theorem healthRead_hostRest (m : Measures) : LeavesHostRest (healthRead m) := by
  refine fun op s => gated_hostRest ?_
  (repeat' split) <;> simp

theorem eolRead_hostRest : LeavesHostRest eolRead := by
  refine fun op s => gated_hostRest ?_
  (repeat' split) <;> simp

theorem maintStatus_hostRest : LeavesHostRest maintStatus := by
  refine fun op s => gated_hostRest ?_
  by_cases hfields : (!fieldsFree op allObj 0 0 0) = true
  · rw [if_pos hfields, refuse_hostRest]
  by_cases hticket : op.obj.toNat = 0
  · rw [if_neg hfields, if_pos hticket]
    split <;> simp
  · rw [if_neg hfields, if_neg hticket]
    (repeat' split) <;> simp

theorem placementReport_hostRest : LeavesHostRest placementReport := by
  refine fun op s => gated_hostRest ?_
  (repeat' split) <;> simp

theorem dispatchAt_hostRest {run : Op → State → State} (h : LeavesHostRest run) (p : Op → Bool) (t k : Nat) (s : State) :
    hostRest (dispatchAt p t k run s) = hostRest (advance t s) := by
  unfold dispatchAt
  split
  · split
    · exact h _ _
    · rfl
  · rfl

/-- Settles O55: a refusal is a completion, and so is each read's end, behind what it writes into the host's buffer. -/
theorem readsChangeOnlyHostMemoryAndHif : Obligations.ReadsChangeOnlyHostMemoryAndHif := by
  refine ⟨fun op st u => eq_of_hostRest (refuse_hostRest op st u), ?_⟩
  intro c t k m s s' hc e
  refine eq_of_hostRest ?_
  simp only [List.mem_cons, List.not_mem_nil, or_false] at hc
  rcases hc with rfl | rfl | rfl | rfl | rfl | rfl | rfl <;> cases e
  · exact dispatchAt_hostRest identify_hostRest _ _ _ _
  · exact dispatchAt_hostRest runTagRead_hostRest _ _ _ _
  · exact dispatchAt_hostRest runTagRead_hostRest _ _ _ _
  · exact dispatchAt_hostRest (healthRead_hostRest m) _ _ _ _
  · exact dispatchAt_hostRest eolRead_hostRest _ _ _ _
  · exact dispatchAt_hostRest maintStatus_hostRest _ _ _ _
  · exact dispatchAt_hostRest placementReport_hostRest _ _ _ _

/-! ### Admin operations (R35, R38, R59, R307, R323) -/

/-- An operation of an admin opcode that a QP may carry is on QP 0. -/
theorem qp_zero_of_hasCode {code : Nat} {op : Op} (h : hasCode code op = true) (ha : isAdminCode code = true) : op.qp = 0 := by
  have hcode := hasCode_opcode h
  simp [hasCode, isBadOpcode, hcode, ha] at h
  exact h.2

/-- IDENTIFY is carried out in SAFE and after SHUTDOWN_PREPARE (R60, R324). -/
theorem gate_identify {op : Op} {s : State} (h : hasCode 0x04 op = true) (hr : s.ready.calib = true) :
    gate op s.ready.calib s = none := by
  have hcode := hasCode_opcode h
  have hqp := qp_zero_of_hasCode h rfl
  simp [gate, servedInSafe, servedAfterShutdown, hcode, hqp, hr]

section
variable {op : Op} {s : State}

theorem qpCreate_passed (hg : gate op s.ready.calib s = none) (hf : qpFields op s = true)
    (hd : domainEnabled s (newQp op).domain = true) :
    qpCreate op s = complete op .ok (BitVec.zeroExtend 64 op.obj) 0 false
      { s with hif := { s.hif with qps := insertBy (fun q => q.num) (newQp op) s.hif.qps } } := by
  simp [qpCreate, gated_passed hg, hf, hd]

theorem identify_passed (hg : gate op s.ready.calib s = none) (hf : fieldsFree op 0 0 0 allBits = true)
    (ha : bufferAligned op.c = true) :
    identify op s = complete op .ok 0 0 false (writeHost op.c.toNat (identifyBytes s) s) := by
  unfold identify
  rw [gated_passed hg, if_neg (by rw [hf, ha]; decide)]

theorem timeSet_passed (hg : gate op s.ready.journal s = none)
    (hf : fieldsFree op 0 0x000000FFFFFFFFFF 0x3FFFFFFF 0 = true)
    (hlater : ¬(op.a.toNat < calendar s ∨ (op.a.toNat = calendar s ∧ op.b.toNat < calendarClk s))) :
    timeSet op s = awaitRecord op (.config 0x300) (BitVec.ofNat 64 (calendar s)) 0
      { s with clk := { s.clk with
          calBase := op.a.toNat, calClk := op.b.toNat, calAt := s.clk.now, calNotSet := false, calImprecise := false } } := by
  unfold timeSet
  rw [gated_passed hg, if_neg (by rw [hf]; decide), if_neg hlater]

theorem domainSet_passed (hg : gate op s.ready.journal s = none) (hf : domainFields op s = true) :
    domainSet op s = awaitRecord op (.config op.obj.toNat) 0 0
      { s with kit := { s.kit with
          domains := insertBy (fun d => d.num) (newDomain op) (s.kit.domains.filter fun d => d.num != op.obj.toNat) } } := by
  simp [domainSet, gated_passed hg, hf]

theorem shutdownPrepare_passed (hg : gate op s.ready.counters s = none) (hf : fieldsFree op 0 0 0 0 = true)
    (hflush : s.flush.why = .none) :
    shutdownPrepare op s =
      let v := setOpSt op.id .shutdown s
      let w := runReady (v.hif.ops.map fun o => o.id) v
      beginFlush .shutdown none { w with pmu := { w.pmu with shutdown := true } } := by
  unfold shutdownPrepare
  rw [gated_passed hg, if_neg (by rw [hf]; decide), if_neg (not_not_intro hflush)]

theorem qpDelete_passed {q : Qp} (hg : gate op s.ready.calib s = none) (hf : fieldsFree op allObj 0 0 0 = true)
    (hobj : op.obj ≠ 0) (hq : findQp s op.obj.toNat = some q) :
    qpDelete op s = endDelete q.num (refuseWaits (fun o => o.qp == q.num) .aborted
      (setOpSt op.id (.deleting (BitVec.ofNat 64 (announced q)) (BitVec.ofNat 64 (q.fetched.toNat + 2 ^ 32 * bit (tailOut q))))
        (modQp q.num (fun q => { q with deleting := true }) s))) := by
  unfold qpDelete
  rw [gated_passed hg, if_neg (by rw [hf, decide_eq_false hobj]; decide), hq]

end

/-- Settles O1: each operation passes its checks, and the fields it is given describe what it makes. -/
theorem adminOperationsComplete : Obligations.AdminOperationsComplete := by
  refine ⟨?qpCreate, ?identify, ?timeSet, ?domainSet⟩
  case qpCreate =>
    rintro s t k op q u rfl hd hs hr hfields hdomain rfl
    rw [exec_dispatched (c := .qpCreate t k) rfl hd, effectOf, qpCreate_passed (gate_none hs hr) hfields hdomain]
    rfl
  case identify =>
    rintro s t k op u rfl hd hr hfields halign
    rw [exec_dispatched (c := .identify t k) rfl hd, effectOf,
      identify_passed (gate_identify hd.2.1 hr) hfields (decide_eq_true halign)]
  case timeSet =>
    rintro s t k op u rfl hd hs hr hfields hlater
    rw [exec_dispatched (c := .timeSet t k) rfl hd, effectOf, timeSet_passed (gate_none hs hr) hfields (by omega)]
  case domainSet =>
    rintro s t k op d u rfl hd hs hr hfields rfl
    rw [exec_dispatched (c := .domainSet t k) rfl hd, effectOf, domainSet_passed (gate_none hs hr) hfields]
    rfl

theorem exec_unknownOpcode (t k : Nat) (s : State) :
    exec (.unknownOpcode t k) s = .next (dispatchAt isBadOpcode t k (fun op => refuse op .badOpcode) s) := rfl

/-- Settles O4: SHUTDOWN_PREPARE past its checks, and the dispatch of what R60 does not know. -/
theorem shutdownAndUnknownOpcodes : Obligations.ShutdownAndUnknownOpcodes := by
  refine ⟨?shutdown, ?unknown⟩
  case shutdown =>
    rintro s t k op u v w rfl hd hs hr hfields hflush rfl rfl
    rw [exec_dispatched (c := .shutdownPrepare t k) rfl hd, effectOf, shutdownPrepare_passed (gate_none hs hr) hfields hflush]
  case unknown =>
    rintro s t k op u rfl hop hready hbad
    rw [exec_unknownOpcode, dispatchAt_run hop hbad hready]
    rfl

/-! ### QP_DELETE (R55, R57) -/

/-- While operations hold places of the QP, nothing ends its QP_DELETE. -/
theorem endDelete_of_qpOps {n : Nat} {s : State} (h : qpOps s n ≠ []) : endDelete n s = s := by rw [endDelete, if_pos h]

/-- With no place held, the one QP_DELETE that waits for the QP completes with its results, and the QP is gone. -/
theorem endDelete_last {n : Nat} {op : Op} {resA resB : W64} {s : State} (hq : qpOps s n = []) (hop : op ∈ s.hif.ops)
    (hcode : op.opcode = 0x02) (hobj : op.obj.toNat = n) (hst : op.st = .deleting resA resB)
    (hone : ∀ o ∈ s.hif.ops, ∀ a b, o.st = .deleting a b → o.obj.toNat = n → o = op) :
    endDelete n s = removeOp op.id (writeCompletion op .ok resA resB false
      { s with hif := { s.hif with qps := s.hif.qps.filter fun q => q.num != n } }) := by
  unfold endDelete
  rw [if_neg (not_not_intro hq)]
  split
  next o ho =>
    obtain rfl : o = op := by
      have hp := List.find?_some ho
      simp only [Bool.and_eq_true, beq_iff_eq] at hp
      obtain ⟨⟨hn, -⟩, hwaits⟩ := hp
      split at hwaits
      next a b hab => exact hone o (List.mem_of_find?_eq_some ho) a b hab hn
      next => cases hwaits
    rw [hst]
  next hnone =>
    have hfalse := List.find?_eq_none.mp hnone op hop
    simp [hcode, hobj, hst] at hfalse

/-- Settles O2: QP_DELETE's dispatch past its checks, and the two ways in which its wait is looked at. -/
theorem qpDeleteEndsWithTheLastOperation : Obligations.QpDeleteEndsWithTheLastOperation := by
  refine ⟨?dispatch, fun n u h => endDelete_of_qpOps h, ?last⟩
  case dispatch =>
    rintro s t k op q u rfl hd hs hr hfields hobj hq
    rw [exec_dispatched (c := .qpDelete t k) rfl hd, effectOf, qpDelete_passed (gate_none hs hr) hfields hobj hq]
  case last =>
    intro n op resA resB u hq hop hcode hobj hst hone
    exact endDelete_last hq hop hcode hobj hst hone

/-! ### One step -/

/-- Settles O44: `step`'s equation on a queue with a front. -/
theorem stepRunsTheFrontCommand : Obligations.StepRunsTheFrontCommand := fun _ _ _ hq => step_front hq

/-- Settles O46: the meaning of every command is a next state. -/
theorem noCommandStops : Obligations.NoCommandStops := by
  intro c s
  cases c <;> exact ⟨_, rfl⟩

/-- Settles O47: an idle step leaves the empty queue, and every command keeps the queue that it finds behind it. -/
theorem stepTakesOneCommand : Obligations.StepTakesOneCommand := by
  intro s t h e
  cases hq : s.pending with
  | nil =>
    rw [step_idle hq, Host.Outcome.next.injEq] at e
    rw [← e, tick_pending, hq, List.tail_nil]
  | cons c rest =>
    rw [step_front hq] at e
    obtain ⟨hqueue, -⟩ := exec_kept c (.inr rfl) (kept_of_invariant (s := { s with pending := rest }) h (Nat.zero_le _)) e
    exact hqueue

end Sys2Proof.Machine
end

section
/-!
PROOFS. The statements of spec/03_counters.md: rises, reads, creation, close and reclass of a counter, what a rise and what any
operation on an object leaves of the table, the limits of waits, and powered-on seconds.
-/
namespace Sys2Proof.Machine

open Sys2Proof.Safety

/-! ### The table of counters (R63, R65-R67, R77-R79, R89) -/

/-- An operation on a counter that finds no bad word, on a key identifier or on the parameter store, or a fault report, runs as one of
three families, and for most of them what waits is looked at again. -/
theorem effectOf_objectOperation {c : Instr} {code t k : Nat} {hw : HostWrites} (hd : dispatchOf c = some (code, t, k, hw))
    (hcode : 0x10 ≤ code ∧ code ≤ 0x17 ∨ 0x20 ≤ code ∧ code ≤ 0x25 ∨ code = 0x51 ∨ code = 0x52)
    (hbad : ∀ bad, c = .ctrRead t k bad ∨ c = .ctrAdvance t k bad ∨ c = .ctrReserve t k bad ∨ c = .ctrRaise t k bad ∨
      c = .ctrGroupRead t k bad → bad = []) :
    ∃ run ∈ [runCounter [], runKid, runParam], effectOf c = run ∨ effectOf c = fun op s => background (run op s) := by
  cases c with
  | ctrCreate | ctrClose | ctrReclass | faultReport => exact ⟨runCounter [], by simp, .inr rfl⟩
  | ctrRead t k bad | ctrGroupRead t k bad =>
    cases hd
    obtain rfl := hbad bad (by simp)
    exact ⟨runCounter [], by simp, .inl rfl⟩
  | ctrAdvance t k bad | ctrReserve t k bad | ctrRaise t k bad =>
    cases hd
    obtain rfl := hbad bad (by simp)
    exact ⟨runCounter [], by simp, .inr rfl⟩
  | kidRead => exact ⟨runKid, by simp, .inl rfl⟩
  | kidAlloc | kidSpliceBegin | kidFlushed | kidSpliceCommit => exact ⟨runKid, by simp, .inr rfl⟩
  | paramWrite | paramSync => exact ⟨runParam, by simp, .inr rfl⟩
  | _ => cases hd <;> omega

/-- Each of the three families lowers no counter. -/
theorem objectFamily_rose {pq : List Leaf} {run : Op → State → State} {s : State} (hr : run ∈ [runCounter [], runKid, runParam])
    (op : Op) (h : Rose pq s) : Rose pq (run op s) := by
  simp only [List.mem_cons, List.not_mem_nil, or_false] at hr
  rcases hr with rfl | rfl | rfl
  · exact runCounter_rose op h
  · exact runKid_rose op h
  · exact runParam_rose op h

/-- A table in order has each of its own counters with its value. -/
theorem rose_of_tableWhole {s : State} (h : TableWhole s) : Rose s.ctr.leaves s := by
  obtain ⟨horder, hnext, hclosed⟩ := h
  exact ⟨horder, hnext, hclosed, fun l hl => ⟨l, hl, rfl, .inr ⟨rfl, BitVec.le_refl _⟩⟩⟩

/-- What `Rose` says beside the counters it keeps is that the table is in order. -/
theorem Rose.tableWhole {pq : List Leaf} {s : State} (h : Rose pq s) : TableWhole s := by
  obtain ⟨horder, hnext, hclosed, -⟩ := h
  exact ⟨horder, hnext, hclosed⟩

/-- Settles O58: a dispatch has the effect of one of the families, and neither that nor what follows at once lowers a counter. -/
theorem noOperationLowersACounter : Obligations.NoOperationLowersACounter := by
  intro c s s' code t k hw hd hcode hbad htable e
  rw [exec_of_dispatchOf hd, Host.Outcome.next.injEq] at e
  obtain ⟨run, hrun, heffect⟩ := effectOf_objectOperation hd hcode hbad
  have hbefore : Rose s.ctr.leaves (advance t (hostWrites hw s)) := by
    have h := rose_of_tableWhole htable
    unfold Rose at h ⊢
    rwa [advance_ctr, hostWrites_ctr]
  have heach (op : Op) : Rose s.ctr.leaves (effectOf c op (advance t (hostWrites hw s))) := by
    have hfamily := objectFamily_rose hrun op hbefore
    rcases heffect with h | h <;> rw [h]
    · exact hfamily
    · exact background_rose hfamily
  have hafter : Rose s.ctr.leaves s' := e ▸ dispatchAt_rose heach hbefore
  have ⟨_, _, _, hkept⟩ := hafter
  exact ⟨hafter.tableWhole, hkept⟩

/-- The table after a rise, by number: the risen counter's row has its new value, and every other row is as it was. -/
theorem findLeaf_raiseLeaf (l : Leaf) (v n : Nat) (s : State) :
    findLeaf (raiseLeaf l v s) n = (findLeaf s n).map fun x => if l.num = n then { x with
      v := BitVec.ofNat 64 v, windowRise := x.windowRise + (v - x.v.toNat)
      shadow := if x.cls = .strict then BitVec.ofNat 64 v else x.shadow } else x := by
  rw [findLeaf, raiseLeaf_leaves]
  exact find_modWhere (fun x : Leaf => x.num) _ _ _ _ fun _ => rfl

/-- Settles O57: the row of the counter, and the rows of other numbers. -/
theorem risesLeaveOtherCounters : Obligations.RisesLeaveOtherCounters := by
  refine ⟨fun l v u hl => ?risen, fun l v u n hn => ?other⟩
  case risen =>
    rw [findLeaf_raiseLeaf, hl, Option.map_some, if_pos rfl]
    exact ⟨_, rfl, rfl, rfl, rfl, rfl, rfl, rfl, rfl, rfl⟩
  case other => simp [findLeaf_raiseLeaf, hn.symm]

/-! ### The plan of a counter operation (R72, R87) -/

/-- An operation that needs nothing is admitted unless the sets are frozen. -/
theorem admitted_noNeed {s : State} (h : s.owed.frozen = false) : Admitted noNeed s := by simp [Admitted, admits, noNeed, h]

section
variable {op : Op} {s : State} {l : Leaf}

/-- A counter operation that passes its checks and whose plan is admitted takes its place at its engine and does as planned. -/
theorem runCounter_admitted {code : Nat} {p : Plan} (hop : hasCode code op = true) (hg : ctrGate op s = none)
    (hp : ctrPlan op (takePlace op s) = .ok p) (ha : Admitted p.need (takePlace op s)) (hcode : code < 0x20 ∨ code = 0x25) :
    runCounter [] op s = wakeCommits (p.run (takePlace op s)) := by
  rw [runCounter_start hg hp (hasCode_opcode hop ▸ hcode), startPlan, if_pos ha]

theorem ctrPlan_reserve (hop : hasCode 0x13 op = true) (hl : openTarget op s = .ok l) (hv : l.v.toNat + op.a.toNat ≤ maxV) :
    ctrPlan op s = .ok (risePlan op l (l.v.toNat + op.a.toNat) 1
      (fun s => (s, l.v + 1, BitVec.ofNat 64 (l.v.toNat + op.a.toNat))) s) := by
  rw [ctrPlan, hasCode_opcode hop]
  simp [reservePlan, hl, bind, Except.bind, Nat.not_lt.mpr hv]

theorem ctrPlan_advance (hop : hasCode 0x12 op = true) (hl : openTarget op s = .ok l) (hv : l.v.toNat + op.a.toNat ≤ maxV) :
    ctrPlan op s = .ok (risePlan op l (l.v.toNat + op.a.toNat) 1
      (fun s => (s, BitVec.ofNat 64 (l.v.toNat + op.a.toNat), l.v)) s) := by
  rw [ctrPlan, hasCode_opcode hop]
  simp [advancePlan, hl, bind, Except.bind, Nat.not_lt.mpr hv]

theorem ctrPlan_raise_above (hop : hasCode 0x14 op = true) (hl : openTarget op s = .ok l) (hv : l.v.toNat < op.a.toNat) :
    ctrPlan op s = .ok (risePlan op l op.a.toNat 1 (fun s => (s, op.a, 1)) s) := by
  rw [ctrPlan, hasCode_opcode hop]
  simp [raisePlan, hl, bind, Except.bind, Nat.not_le.mpr hv]

theorem ctrPlan_raise_reached (hop : hasCode 0x14 op = true) (hl : openTarget op s = .ok l) (hv : op.a.toNat ≤ l.v.toNat) :
    ctrPlan op s = .ok (freePlan fun s => completeOn op l.num l.v 0 (chargeWork op l.group 1 s)) := by
  rw [ctrPlan, hasCode_opcode hop]
  simp [raisePlan, hl, bind, Except.bind, hv]

theorem ctrPlan_faultReport (hop : hasCode 0x25 op = true) (hl : openTarget op s = .ok l) (hcls : l.cls = .loose) :
    ctrPlan op s = .ok (risePlan op l (min (l.v.toNat + opBits op.a 0 32) maxV) 2 (fun s =>
      let r := countReport op.domain (BitVec.ofNat 32 (opBits op.b 0 32)) (opBits op.a 32 8) (opBits op.a 0 32) op.obj s
      (r.1, BitVec.ofNat 64 (min (l.v.toNat + opBits op.a 0 32) maxV),
        r.2 + (if maxV < l.v.toNat + opBits op.a 0 32 then 4 else 0))) s) := by
  rw [ctrPlan, hasCode_opcode hop]
  simp [faultReportPlan, hl, bind, Except.bind, hcls]

theorem ctrPlan_read (hop : hasCode 0x11 op = true) (hl : byHandle s op.obj = some l) (hdom : foreign op l.domain = false) :
    ctrPlan op s = .ok (freePlan fun s => completeOn op l.num l.v (readResB l)
      (chargeWork op l.group 1 (if op.c = 0 then s else writeHost op.c.toNat (readBuffer l) s))) := by
  rw [ctrPlan, hasCode_opcode hop]
  simp [readPlan, hl, hdom]

theorem ctrPlan_groupRead {g : Group} (hop : hasCode 0x17 op = true) (hl : openTarget op s = .ok l)
    (hgroup : findGroup s l.group = some g) :
    ctrPlan op s = .ok (freePlan fun s => completeOn op l.num g.liveMax (BitVec.ofNat 64 (g.num + 4096 * g.engine))
      (chargeWork op g.num 2 (writeHost op.c.toNat (groupBuffer s g) s))) := by
  rw [ctrPlan, hasCode_opcode hop]
  simp [groupReadPlan, hl, bind, Except.bind, hgroup]

/-- The plan of a CTR_CREATE in a group that stands: its definition form and the group's ceiling, then the counter in its place. -/
def createIn (op : Op) (cls : Cls) (g : Nat) (s : State) : Plan :=
  ⟨⟨2, 0, ceilingAllows s g op.a.toNat⟩, g, op.a.toNat, fun s =>
    match takeNumber s with
    | some (n, inc, x) => placeCounter op cls n inc g x
    | none => s⟩

theorem createIn_run {cls : Cls} {n inc g : Nat} {x : State} (s0 : State) (hn : takeNumber s = some (n, inc, x)) :
    (createIn op cls g s0).run s = placeCounter op cls n inc g x := by
  simp [createIn, hn]

theorem ctrPlan_create {cls : Cls} {n inc g : Nat} {x : State} (hop : hasCode 0x10 op = true)
    (hcls : clsOf (opBits op.c 0 2) = some cls) (hfull : classFull s op.domain cls true = false)
    (hn : takeNumber s = some (n, inc, x))
    (hgroup : chooseGroup s op.domain cls op.a.toNat op.b.toNat (BitVec.ofNat 32 (opBits op.c 32 32)) = .existing g) :
    ctrPlan op s = .ok (createIn op cls g s) := by
  rw [ctrPlan, hasCode_opcode hop]
  simp [createPlan, hcls, hfull, hn, hgroup] <;> rfl

theorem ctrPlan_close (hop : hasCode 0x15 op = true) (hl : openTarget op s = .ok l) :
    ctrPlan op s = .ok ⟨⟨slotsNeeded (.leaf l.num true) s, 0, true⟩, l.group, 0, fun s =>
      completeOn op l.num l.v 0 (closeLeaf l (chargeWork op l.group 8 s))⟩ := by
  rw [ctrPlan, hasCode_opcode hop]
  simp [closePlan, hl, bind, Except.bind]

/-- A reclass after which the counter is covered needs its definition form only. -/
theorem ctrPlan_reclass_covered {cls : Cls} {g : Group} (hop : hasCode 0x16 op = true) (hl : openTarget op s = .ok l)
    (hcls : clsOf (opBits op.a 0 2) = some cls) (hallowed : reclassAllowed l cls op.b.toNat = true)
    (hroom : classFull s op.domain cls false = false ∨ l.cls = cls) (hgroup : findGroup s l.group = some g)
    (hcovered : uncoveredAt g.liveMax.toNat { l with cls := cls, bound := op.b.toNat } = false) :
    ctrPlan op s = .ok ⟨⟨slotsNeeded (.leaf l.num true) s, 0, true⟩, l.group, 0, fun s =>
      finishReclass op l cls (setClass l cls op.b.toNat s)⟩ := by
  have hlimit : (classFull s op.domain cls false && decide (l.cls ≠ cls)) = false := by
    rcases hroom with h | h <;> simp [h]
  rw [ctrPlan, hasCode_opcode hop]
  simp only [reclassPlan, hl, bind, Except.bind, hcls, hallowed, hlimit, hgroup, hcovered]
  rfl

end

/-! ### Operations on counters (R74, R75, R77-R85, R198) -/

/-- Settles O5: each rise by its plan, and CTR_RAISE to a value already reached. -/
theorem counterRisesComplete : Obligations.CounterRisesComplete := by
  refine ⟨?reserve, ?advance, ?raise, ?reached, ?faultReport⟩
  case reserve =>
    rintro s t k op l u w rfl rfl hd hg hl hv ha
    have ⟨_, hop, _⟩ := hd
    rw [exec_dispatched (c := .ctrReserve t k []) rfl hd, effectOf,
      runCounter_admitted hop hg (ctrPlan_reserve hop hl hv) ha (by decide)]
    rfl
  case advance =>
    rintro s t k op l u w rfl rfl hd hg hl hv ha
    have ⟨_, hop, _⟩ := hd
    rw [exec_dispatched (c := .ctrAdvance t k []) rfl hd, effectOf,
      runCounter_admitted hop hg (ctrPlan_advance hop hl hv) ha (by decide)]
    rfl
  case raise =>
    rintro s t k op l u w rfl rfl hd hg hl hv ha
    have ⟨_, hop, _⟩ := hd
    rw [exec_dispatched (c := .ctrRaise t k []) rfl hd, effectOf,
      runCounter_admitted hop hg (ctrPlan_raise_above hop hl hv) ha (by decide)]
    rfl
  case reached =>
    rintro s t k op l u w rfl rfl hd hg hl hv hfrozen
    have ⟨_, hop, _⟩ := hd
    rw [exec_dispatched (c := .ctrRaise t k []) rfl hd, effectOf,
      runCounter_admitted hop hg (ctrPlan_raise_reached hop hl hv) (admitted_noNeed hfrozen) (by decide)]
    rfl
  case faultReport =>
    rintro s t k op l v u w r rfl rfl hd hg hl hcls rfl ha rfl
    have ⟨_, hop, _⟩ := hd
    rw [exec_dispatched (c := .faultReport t k) rfl hd, effectOf,
      runCounter_admitted hop hg (ctrPlan_faultReport hop hl hcls) ha (by decide)]
    rfl

/-- Settles O6: neither read needs anything, so each is done at its dispatch, and nothing that waits is looked at again. -/
theorem counterReadsComplete : Obligations.CounterReadsComplete := by
  refine ⟨?read, ?groupRead⟩
  case read =>
    rintro s t k op l u w rfl rfl hd hg hl hdom hfrozen
    have ⟨_, hop, _⟩ := hd
    rw [exec_dispatched (c := .ctrRead t k []) rfl hd, effectOf, if_pos rfl,
      runCounter_admitted hop hg (ctrPlan_read hop hl hdom) (admitted_noNeed hfrozen) (by decide)]
    rfl
  case groupRead =>
    rintro s t k op l g u w rfl rfl hd hg hl hgroup hfrozen
    have ⟨_, hop, _⟩ := hd
    rw [exec_dispatched (c := .ctrGroupRead t k []) rfl hd, effectOf, if_pos rfl,
      runCounter_admitted hop hg (ctrPlan_groupRead hop hl hgroup) (admitted_noNeed hfrozen) (by decide)]
    rfl

/-- Settles O7: each by its plan, whose need is that of its definition form. -/
theorem counterCreateCloseReclassComplete : Obligations.CounterCreateCloseReclassComplete := by
  refine ⟨?create, ?close, ?reclass⟩
  case create =>
    rintro s t k op cls n inc g u w x rfl rfl hd hg hcls hfull hn hgroup ha
    have ⟨_, hop, _⟩ := hd
    rw [exec_dispatched (c := .ctrCreate t k) rfl hd, effectOf,
      runCounter_admitted hop hg (ctrPlan_create hop hcls hfull hn hgroup) ha (by decide), createIn_run _ hn]
  case close =>
    rintro s t k op l u w rfl rfl hd hg hl ha
    have ⟨_, hop, _⟩ := hd
    rw [exec_dispatched (c := .ctrClose t k) rfl hd, effectOf,
      runCounter_admitted hop hg (ctrPlan_close hop hl) ha (by decide)]
  case reclass =>
    rintro s t k op l cls g u w rfl rfl hd hg hl hcls hallowed hroom hgroup hcovered ha
    have ⟨_, hop, _⟩ := hd
    rw [exec_dispatched (c := .ctrReclass t k) rfl hd, effectOf,
      runCounter_admitted hop hg (ctrPlan_reclass_covered hop hl hcls hallowed hroom hgroup hcovered) ha (by decide)]

/-! ### The limits of waits (R88, R192, R199, R282) -/

section
variable {k : Nat} {ended : Op → State → Bool} {finish : Op → State → State} {op : Op} {s : State}

/-- A wait at its limit ends. -/
theorem endWait_ended (hop : findOp s k = some op) (h : ended op s = true) : endWait k ended finish s = background (finish op s) := by
  simp [endWait, hop, h]

/-- A wait before its limit goes on. -/
theorem endWait_goesOn (hop : findOp s k = some op) (h : ended op s = false) : endWait k ended finish s = s := by
  simp [endWait, hop, h]

theorem energyOver_energy {since : Nat} (hst : op.st = .energy since) : energyOver op s = decide (since + oneMs ≤ s.clk.now) := by
  rw [energyOver, hst]

theorem spliceOver_splice {deadline : Nat} (hst : op.st = .splice deadline) :
    spliceOver op s = decide (deadline ≤ s.clk.now) := by
  rw [spliceOver, hst]

theorem randomOver_random {since : Nat} (hst : op.st = .random since) : randomOver op s = decide (since + tenMs ≤ s.clk.now) := by
  rw [randomOver, hst]

end

theorem exec_energyWaitTimeout (t k : Nat) (s : State) : exec (.energyWaitTimeout t k) s =
    .next (endWait k energyOver (fun op => refuse op .energyWaitTimeout) (advance t s)) := rfl

theorem exec_spliceTimeout (t k : Nat) (s : State) :
    exec (.spliceTimeout t k) s = .next (endWait k spliceOver endSplice (advance t s)) := rfl

theorem exec_randomWaitTimeout (t k : Nat) (s : State) : exec (.randomWaitTimeout t k) s =
    .next (endWait k randomOver (fun op => refuse op .randomWaitTimeout) (advance t s)) := rfl

theorem exec_faultStorm (t : Nat) (s : State) : exec (.faultStorm t) s = .next (closeDue (advance t s)) := rfl

section
variable {s : State} {w : Window} {rest : List Window}

theorem closeDue_due (hw : s.kit.windows = w :: rest) (h : w.opened + 2 ^ 20 ≤ s.clk.now) : closeDue s = closeWindow w s := by
  rw [closeDue, hw]
  exact if_pos h

theorem closeDue_early (hw : s.kit.windows = w :: rest) (h : s.clk.now < w.opened + 2 ^ 20) : closeDue s = s := by
  rw [closeDue, hw]
  exact if_neg (Nat.not_le.mpr h)

/-- A window of one key names its peer, its cause and its domain. -/
theorem closeWindow_ofKey (h : w.overflow = false) : closeWindow w s =
    postEvent .faultStorm w.peer.toNat
      (leBytes 1 w.cause ++ leBytes 1 w.domain ++ leBytes 2 (saturate w.reports 65535) ++
        leBytes 4 (saturate w.sum (2 ^ 32 - 1)) ++ leBytes 4 w.first.toNat ++ leBytes 4 w.last.toNat)
      { s with kit := { s.kit with windows := s.kit.windows.filter fun x => decide (x ≠ w) } } := by
  simp only [closeWindow, h, Bool.false_eq_true, if_false]

end

/-- Settles O17: each of the four waits at its limit, and each before it. -/
theorem waitsEndAtTheirLimitsOnly : Obligations.WaitsEndAtTheirLimitsOnly := by
  refine ⟨?energy, ?splice, ?random, ?window, ?energyEarly, ?spliceEarly, ?randomEarly, ?windowEarly⟩
  case energy =>
    rintro s t k op since u rfl hop hst hlimit
    rw [exec_energyWaitTimeout, endWait_ended hop (by rw [energyOver_energy hst]; exact decide_eq_true hlimit), refuse]
  case splice =>
    rintro s t k op deadline u rfl hop hst hlimit
    rw [exec_spliceTimeout, endWait_ended hop (by rw [spliceOver_splice hst]; exact decide_eq_true hlimit), endSplice, missingUnits]
  case random =>
    rintro s t k op since u rfl hop hst hlimit
    rw [exec_randomWaitTimeout, endWait_ended hop (by rw [randomOver_random hst]; exact decide_eq_true hlimit), refuse]
  case window =>
    rintro s t w rest u rfl hw hlimit hkey
    rw [exec_faultStorm, closeDue_due hw hlimit, closeWindow_ofKey hkey]
  case energyEarly =>
    rintro s t k op since u rfl hop hst hearly
    rw [exec_energyWaitTimeout, endWait_goesOn hop (by rw [energyOver_energy hst]; exact decide_eq_false (Nat.not_le.mpr hearly))]
  case spliceEarly =>
    rintro s t k op deadline u rfl hop hst hearly
    rw [exec_spliceTimeout, endWait_goesOn hop (by rw [spliceOver_splice hst]; exact decide_eq_false (Nat.not_le.mpr hearly))]
  case randomEarly =>
    rintro s t k op since u rfl hop hst hearly
    rw [exec_randomWaitTimeout, endWait_goesOn hop (by rw [randomOver_random hst]; exact decide_eq_false (Nat.not_le.mpr hearly))]
  case windowEarly =>
    rintro s t w rest u rfl hw hearly
    rw [exec_faultStorm, closeDue_early hw hearly]

/-! ### Powered-on seconds, the calendar's record and dailies (R308, R315, R391) -/

theorem exec_poweredOnSecond (t : Nat) (s : State) : exec (.poweredOnSecond t) s = .next (background (secondDue (advance t s))) := rfl

theorem exec_calendarRecord (t : Nat) (s : State) : exec (.calendarRecord t) s = .next (background (calendarDue (advance t s))) := rfl

theorem exec_dailyCollection (t : Nat) (m : Measures) (s : State) :
    exec (.dailyCollection t m) s = .next (background (dailyDue m (advance t s))) := rfl

section
variable {s : State}

/-- The pending seconds are counted once their place is admitted. -/
theorem countSeconds_admitted (hpending : s.int.pending ≠ 0) (hphase : s.pmu.phase = .running) (hshut : s.pmu.shutdown = false)
    (ha : Admitted ⟨slotsNeeded .posec s, 0, true⟩ s) :
    countSeconds s = owe .posec { s with int := { s.int with posec := s.int.posec + s.int.pending, pending := 0 } } := by
  rw [countSeconds, if_neg (by simp [hpending, hphase, hshut, ha])]

/-- In a part that runs, a second that falls due joins those that wait to be counted. -/
theorem secondDue_running (hclk : s.clk.running = true) (hdue : s.int.nextDue ≤ s.clk.now) (hshut : s.pmu.shutdown = false)
    (hphase : s.pmu.phase = .running) :
    secondDue s = rebuildSweepList (countSeconds
      { s with int := { s.int with nextDue := s.int.nextDue + second, pending := s.int.pending + 1 } }) := by
  rw [secondDue, if_neg (by simp [hclk, hdue])]
  simp [hshut, hphase]

theorem calendarDue_due (hready : s.ready.journal = true) (hdue : s.int.calRecordAt + 3600 ≤ s.int.posec) :
    calendarDue s = queueWrite 4 (.config 0x300) s := by
  rw [calendarDue, if_pos ⟨hready, hdue⟩]

/-- A daily that falls due in normal power ends the day and is collected. -/
theorem dailyDue_normal {m : Measures} {v : State} (hphase : s.pmu.phase = .running) (hdue : s.hmu.nextDaily ≤ s.int.posec)
    (hv : v = endDay { s with hmu := { s.hmu with nextDaily := (s.int.posec / 86400 + 1) * 86400 } })
    (hpower : v.pmu.power = .normal) (hsafe : inSafe v = false) (hshut : v.pmu.shutdown = false) :
    dailyDue m s = collectDaily m v := by
  simp [dailyDue, hphase, hdue, ← hv, hpower, hsafe, hshut]

end

/-- Settles O27: one clause per command of powered-on time. -/
theorem secondsAndDailiesComplete : Obligations.SecondsAndDailiesComplete := by
  refine ⟨?second, ?calendar, ?daily⟩
  case second =>
    rintro s t u v rfl hclk hdue hshut hphase hv ha
    have hcount : countSeconds v = owe .posec { v with
        int := { v.int with posec := v.int.posec + v.int.pending, pending := 0 } } :=
      countSeconds_admitted (by simp [hv]) (by rw [hv]; exact hphase) (by rw [hv]; exact hshut) ha
    rw [exec_poweredOnSecond, secondDue_running hclk hdue hshut hphase, ← hv, hcount]
    simp only [hv]
  case calendar =>
    rintro s t u rfl hready hdue
    rw [exec_calendarRecord, calendarDue_due hready hdue]
  case daily =>
    rintro s t m u v rfl hphase hdue hv hpower hsafe hshut
    rw [exec_dailyCollection, dailyDue_normal hphase hdue hv hpower hsafe hshut]

end Sys2Proof.Machine
end

section
/-!
PROOFS. The statements of spec/04_journal_flash.md: operations on the parameter store, the end of a slot program and of an erase, and
the start up to the session, with the self-test that ends a shutdown.
-/
namespace Sys2Proof.Machine

open Sys2Proof.Safety

/-! ### The parameter store (R124-R132) -/

section
variable {op : Op} {p : Plan} {s : State}

/-- An operation on an object whose plan is admitted does as planned. -/
theorem startObject_admitted (hp : objectPlan op s = .ok p) (ha : Admitted p.need s) : startObject op s = wakeCommits (p.run s) := by
  rw [startObject, hp, startPlan, if_pos ha]

theorem runParam_admitted (hg : paramGate op s = none) (hp : objectPlan op s = .ok p) (ha : Admitted p.need s) :
    runParam op s = wakeCommits (p.run s) := by
  rw [runParam, gated_passed hg, startObject_admitted hp ha]

/-- A PARAM_READ whose image shows no error changes no page before its effect. -/
theorem runParamRead_admitted (hg : paramGate op s = none) (hd : op.domain = 0) (hp : objectPlan op s = .ok p)
    (ha : Admitted p.need s) : runParamRead [] [] op s = wakeCommits (p.run s) := by
  have hclean : noteImageErrors (pageNumber op) [] [] s = s := by simp [noteImageErrors]
  rw [runParamRead, gated_passed hg, if_neg (not_not_intro hd), hclean, startObject_admitted hp ha]

/-- The opcodes from 0x30 on that a plan is made for are those of the parameter store. -/
theorem objectPlan_param (hcode : 0x30 ≤ op.opcode) : objectPlan op s = paramPlan op s := by
  rw [objectPlan, if_neg (by omega), if_neg (by omega)]

theorem objectPlan_paramRead (hop : hasCode 0x50 op = true) (hd : op.domain = 0)
    (hl : (pageOf s (pageNumber op)).lost &&& groupMask (touchedGroups op) = 0) :
    objectPlan op s = .ok (freePlan fun v => complete op .ok
      (BitVec.ofNat 64 ((pageOf s (pageNumber op)).status.toNat + 256 * bit (pageOf s (pageNumber op)).dirty)) 0 false
      (writeHost op.c.toNat ((pageRange op).map fun i => nthOr 0xFF i (pageOf s (pageNumber op)).bytes) v)) := by
  have hcode := hasCode_opcode hop
  rw [objectPlan_param (by omega), paramPlan, if_neg (not_not_intro hd), hcode]
  exact if_neg (not_not_intro hl)

theorem objectPlan_paramWrite (hop : hasCode 0x51 op = true) (hd : op.domain = 0) : objectPlan op s = paramWritePlan op s := by
  have hcode := hasCode_opcode hop
  rw [objectPlan_param (by omega), paramPlan, if_neg (not_not_intro hd), hcode]
  rfl

theorem objectPlan_paramSync (hop : hasCode 0x52 op = true) (hd : op.domain = 0) : objectPlan op s = .ok (paramSyncPlan op) := by
  have hcode := hasCode_opcode hop
  rw [objectPlan_param (by omega), paramPlan, if_neg (not_not_intro hd), hcode]
  rfl

/-- With no page changed there is no record that a PARAM_SYNC would wait for. -/
theorem paramSyncPlan_clean (h : (s.kit.pages.all fun x => !x.dirty) = true) :
    (paramSyncPlan op).run s = complete op .ok 0 0 false s := by
  have hnone : (s.kit.pages.filter fun x => x.dirty && (decide (op.obj = 0xFFFFFFFF) || x.num == op.obj.toNat)) = [] := by
    rw [List.filter_eq_nil_iff]
    intro x hx
    have hclean : x.dirty = false := by simpa using List.all_eq_true.mp h x hx
    simp [hclean]
  simp only [paramSyncPlan, freePlan, hnone, List.map_nil, syncPages, if_true]

end

/-- Settles O11: each operation by its plan; a read and a sync need no entry, a write needs its page's. -/
theorem parameterOperationsComplete : Obligations.ParameterOperationsComplete := by
  refine ⟨?read, ?write, ?sync⟩
  case read =>
    rintro s t k op x u rfl hd hg hdomain rfl hlost hfrozen
    have ⟨_, hop, _⟩ := hd
    rw [exec_dispatched (c := .paramRead t k [] []) rfl hd, effectOf,
      runParamRead_admitted hg hdomain (objectPlan_paramRead hop hdomain hlost) (admitted_noNeed hfrozen)]
    rfl
  case write =>
    rintro s t k hw op x u rfl hd hg hdomain rfl ha
    have ⟨_, hop, _⟩ := hd
    rw [exec_of_dispatched (c := .paramWrite t k hw) rfl hd, effectOf,
      runParam_admitted hg (objectPlan_paramWrite hop hdomain) ha]
  case sync =>
    rintro s t k op u rfl hd hg hdomain hclean hfrozen
    have ⟨_, hop, _⟩ := hd
    rw [exec_dispatched (c := .paramSync t k) rfl hd, effectOf,
      runParam_admitted hg (objectPlan_paramSync hop hdomain) (admitted_noNeed hfrozen), paramSyncPlan_clean hclean]

/-! ### A slot program ends (R98, R107, R109, R110, R117, R120) -/

theorem exec_slotProgramVerify (t bank : Nat) (passed : Bool) (s : State) : exec (.slotProgramVerify t bank passed) s =
    .next (background (fitWritten (endCatchUp (returnEmptied (pump (endSlot bank passed (advance t s))))))) := rfl

section
variable {bank : Nat} {p : Prog} {s v : State}

/-- A verified slot of a record that has more: the program goes on with the next slot. -/
theorem endSlot_more (hp : (s.jrn.progs.find? fun p => p.bank == bank) = some p) (hmore : p.done + 1 < recSlots p.record) :
    endSlot bank true s = { s with jrn := { s.jrn with
      progs := (s.jrn.progs.filter fun x => x.bank != bank) ++ [{ p with done := p.done + 1 }]
      flash := s.jrn.flash ++ [⟨p.bank, p.sector, p.slot + p.done, some (slotOf p.record p.done)⟩] } } := by
  simp [endSlot, hp, hmore, putSlot]

/-- With a record's last slot verified, one copy of it is whole. -/
theorem endSlot_last (hp : (s.jrn.progs.find? fun p => p.bank == bank) = some p) (hlast : recSlots p.record ≤ p.done + 1) :
    endSlot bank true s = copyWhole p (putSlot p.bank p.sector (p.slot + p.done) (some (slotOf p.record p.done))
      { s with jrn := { s.jrn with progs := s.jrn.progs.filter fun x => x.bank != bank } }) := by
  simp [endSlot, hp, Nat.not_lt.mpr hlast]

/-- A slot that fails program-verify holds nothing. -/
theorem endSlot_failed (hp : (s.jrn.progs.find? fun p => p.bank == bank) = some p) :
    endSlot bank false s = programFailed p (putSlot p.bank p.sector (p.slot + p.done) none
      { s with jrn := { s.jrn with progs := s.jrn.progs.filter fun x => x.bank != bank } }) := by
  simp [endSlot, hp]

/-- Copy A is whole: the record waits for copy B. -/
theorem copyWhole_first (hw : v = countSlots p.write.rank p.record.typ (recSlots p.record)
      (storeCopy p.bank p.sector p.slot p.record s)) (hc : isCopying p.write.what = false) (hb : p.bank < 2)
    (hs : p.record.single = false) :
    copyWhole p s = { v with jrn := { v.jrn with waiting := v.jrn.waiting ++ [⟨p.write, p.record, true, false⟩] } } := by
  simp [copyWhole, ← hw, hc, hs, isCopyB, Nat.not_le.mpr hb]

/-- Copy B is whole, or the only copy: the record is written. -/
theorem copyWhole_written (hw : v = countSlots p.write.rank p.record.typ (recSlots p.record)
      (storeCopy p.bank p.sector p.slot p.record s)) (hc : isCopying p.write.what = false)
    (hb : 2 ≤ p.bank ∨ p.record.single = true) :
    copyWhole p s = tendEmptying (recordWritten p.record.single p.write p.record v) := by
  simp [copyWhole, ← hw, hc, isCopyB, hb]

/-- A copy forward is whole: its sector goes on to be emptied. -/
theorem copyWhole_copying (hw : v = countSlots p.write.rank p.record.typ (recSlots p.record)
      (storeCopy p.bank p.sector p.slot p.record s)) (hc : isCopying p.write.what = true) :
    copyWhole p s = tendEmptying (noteFirst p v) := by
  simp [copyWhole, ← hw, hc]

/-- A failed program: its record waits ahead of the others, and a sector's second failure begins to empty it. -/
theorem programFailed_sector {x : Sector} (hv : v = modSector p.bank p.sector (fun x => { x with failures := x.failures + 1 })
      { s with jrn := { s.jrn with waiting := ⟨p.write, p.record, isCopyB p.bank, true⟩ :: s.jrn.waiting } })
    (hx : findSector v p.bank p.sector = some x) :
    programFailed p s = if x.failures = 2 then startEmptying ⟨p.bank, p.sector, true, 6, none, none⟩ v else v := by
  simp only [programFailed, ← hv, hx]

end

/-- Settles O23: a slot with more to follow, the three ends of a copy, and a slot that fails. -/
theorem slotProgramsComplete : Obligations.SlotProgramsComplete := by
  refine ⟨?more, ?last, ?failed⟩
  case more =>
    rintro s t bank p u v rfl hp hmore rfl
    rw [exec_slotProgramVerify, endSlot_more hp hmore]
    rfl
  case last =>
    rintro s t bank p u v w rfl hp hlast rfl hw
    rw [exec_slotProgramVerify, endSlot_last hp hlast]
    refine ⟨fun hc hb hs => ?first, fun hc hb => ?written, fun hc => ?copying⟩
    case first => rw [copyWhole_first hw hc hb hs]
    case written => rw [copyWhole_written hw hc hb]
    case copying => rw [copyWhole_copying hw hc]
  case failed =>
    rintro s t bank p u v x rfl hp hv hx
    rw [exec_slotProgramVerify, endSlot_failed hp, programFailed_sector hv hx]

/-! ### An erase ends (R105, R117, R120) -/

theorem exec_sectorEraseDone (t bank idx : Nat) (erased : Bool) (duration : Nat) (s : State) :
    exec (.sectorEraseDone t bank idx erased duration) s = .next (background (eraseDone bank idx erased duration (advance t s))) := rfl

/-- No COMPACT runs where what runs is of another kind. -/
theorem runningCompact_none {s : State} (h : ∀ r, s.mnt.running = some r → r.req.kind ≠ 2) : runningCompact s = none := by
  unfold runningCompact
  split
  next r hr => rw [if_neg (h r hr)]
  next => rfl

/-- An erase that has ended counts, with its time, for the daily's average (R316). -/
def countErase (duration : Nat) (s : State) : State :=
  { s with jrn := { s.jrn with eraseTimes := (s.jrn.eraseTimes.1 + 1, s.jrn.eraseTimes.2 + duration / 2 ^ 14) } }

section
variable {bank idx duration : Nat} {x : Sector} {s : State}

/-- An erase that succeeds within 20 ms, while no COMPACT runs that would count it. -/
theorem eraseDone_inTime (hx : findSector s bank idx = some x) (hst : x.st = .erasing) (htime : 1000 * duration ≤ 20 * second)
    (hc : runningCompact s = none) :
    eraseDone bank idx true duration s = modSector bank idx (erasedNow duration) (countErase duration s) := by
  have hcompact (j) : runningCompact { s with jrn := j } = none := hc
  simp [eraseDone, hx, hst, Nat.not_lt.mpr htime, modSector, hcompact, countErase]

/-- An erase that succeeds too late. -/
theorem eraseDone_slow (hx : findSector s bank idx = some x) (hst : x.st = .erasing) (htime : 20 * second < 1000 * duration) :
    eraseDone bank idx true duration s =
      retireSector bank idx (modSector bank idx (erasedNow duration) (countErase duration s)) := by
  simp [eraseDone, hx, hst, htime, countErase]

/-- An erase that fails leaves slot 0, and with it the sector, unreadable. -/
theorem eraseDone_failed (hx : findSector s bank idx = some x) (hst : x.st = .erasing) :
    eraseDone bank idx false duration s = retireSector bank idx (putSlot bank idx 0 none (countErase duration s)) := by
  simp [eraseDone, hx, hst, countErase]

end

/-- Settles O24: an erase in time, one too slow, and one that fails. -/
theorem sectorErasesComplete : Obligations.SectorErasesComplete := by
  refine ⟨?inTime, ?slow, ?failed⟩
  case inTime =>
    rintro s t bank idx duration x u v rfl hx hst htime hkind rfl
    rw [exec_sectorEraseDone, eraseDone_inTime hx hst htime (runningCompact_none hkind)]
    rfl
  case slow =>
    rintro s t bank idx duration x u v rfl hx hst htime rfl
    rw [exec_sectorEraseDone, eraseDone_slow hx hst htime]
    rfl
  case failed =>
    rintro s t bank idx duration x u v rfl hx hst rfl
    rw [exec_sectorEraseDone, eraseDone_failed hx hst]
    rfl

/-! ### The start up to replay (R99, R299, R301-R303, R312) -/

theorem exec_start (t vin vhold : Nat) (s : State) : exec (.start t vin vhold) s = .next (startUp vin vhold (advance t s)) := rfl

theorem exec_pllLock (t : Nat) (fusesOk : Bool) (reads : List SlotRead) (s : State) :
    exec (.pllLock t fusesOk reads) s = .next (lockPll fusesOk reads (advance t s)) := rfl

theorem exec_calibrationDone (t : Nat) (s : State) : exec (.calibrationDone t) s = .next (calibrated (advance t s)) := rfl

theorem exec_quickCapacitanceCheck (t vhold : Nat) (s : State) :
    exec (.quickCapacitanceCheck t vhold) s = .next (quickBegin vhold (advance t s)) := rfl

theorem exec_quickCapacitanceCheckEnd (t fall step vhold : Nat) (s : State) :
    exec (.quickCapacitanceCheckEnd t fall step vhold) s = .next (quickEnd fall step vhold (advance t s)) := rfl

section
variable {s w : State} {reads : List SlotRead}

/-- Power good of a part whose bank is not full. -/
theorem startUp_good {vin vhold : Nat} (hphase : s.pmu.phase = .reset) (hvin : 10500 < vin) (hvhold : vhold < 10900) :
    startUp vin vhold s = { s with pmu := { s.pmu with
      phase := .clocking, vin := vin, vhold := vhold, chargerOn := true, resetLow := false, full := false, reached := false } } := by
  have hrange : ¬10900 < vhold ∧ ¬11000 ≤ vhold := by omega
  simp [startUp, hphase, Nat.not_le.mpr hvin, hrange]

/-- Past the lock with its fuses read, the boot code derives the keys and chooses its image. -/
theorem lockPll_fusesRead (hphase : s.pmu.phase = .clocking)
    (hw : w = setReady (fun y => { y with pllLock := true }) { s with
      clk := { Clk.reset with running := true, refPresent := true }, int := { s.int with nextDue := second } }) :
    lockPll true reads s = setReady (fun y => { y with sramInit := true })
      (chooseImage reads (deriveKeys { w with pmu := { w.pmu with phase := .calibrating } })) := by
  simp [lockPll, hphase, hw]

/-- A start whose fuses fail stops. -/
theorem lockPll_fusesLost (hphase : s.pmu.phase = .clocking)
    (hw : w = setReady (fun y => { y with pllLock := true }) { s with
      clk := { Clk.reset with running := true, refPresent := true }, int := { s.int with nextDue := second } }) :
    lockPll false reads s = { w with pmu := { w.pmu with phase := .halted } } := by
  simp [lockPll, hphase, hw]

/-- Outside SAFE replay follows calibration. -/
theorem calibrated_replays (hphase : s.pmu.phase = .calibrating)
    (hw : w = startNsu (setReady (fun y => { y with calib := true }) s)) (hsafe : inSafe w = false) :
    calibrated s = { w with pmu := { w.pmu with phase := .replaying } } := by
  simp [calibrated, hphase, ← hw, hsafe]

theorem quickBegin_draws {vhold : Nat} (hcalib : s.ready.calib = true) (hvhold : 2000 ≤ vhold) (hdone : s.pmu.quickDone = false)
    (hdraw : s.pmu.drawing = false) :
    quickBegin vhold s = { s with pmu := { s.pmu with drawing := true, vhold := vhold } } := by
  simp [quickBegin, hcalib, hdone, hdraw, Nat.not_lt.mpr hvhold, seeVhold]

/-- A draw in which VHOLD falls measures the bank. -/
theorem quickEnd_measures {fall step vhold : Nat} (hdraw : s.pmu.drawing = true) (hdone : s.pmu.quickDone = false) (hfall : 0 < fall) :
    quickEnd fall step vhold s = checkBank (recomputeCaps { s with pmu := { s.pmu with
      vhold := vhold, cMeas := 2 * 10 ^ 9 / fall, esrMeas := step / 100, measured := true, quickDone := true
      drawing := false } }) := by
  simp [quickEnd, hdraw, hdone, Nat.ne_of_gt hfall, seeVhold]

end

/-- Settles O37: one clause per step of the start, with both ends of the fuses' reading. -/
theorem startBeforeReplayCompletes : Obligations.StartBeforeReplayCompletes := by
  refine ⟨?start, ?lock, ?fusesLost, ?calibration, ?draw, ?drawEnd⟩
  case start =>
    rintro s t vin vhold u rfl hphase hvin hvhold
    rw [exec_start, startUp_good hphase hvin hvhold]
  case lock =>
    rintro s t reads u w rfl hphase hw
    rw [exec_pllLock, lockPll_fusesRead hphase hw]
  case fusesLost =>
    rintro s t reads u w rfl hphase hw
    rw [exec_pllLock, lockPll_fusesLost hphase hw]
  case calibration =>
    rintro s t u w rfl hphase hw hsafe
    rw [exec_calibrationDone, calibrated_replays hphase hw hsafe]
  case draw =>
    rintro s t vhold u rfl hcalib hvhold hdone hdraw
    rw [exec_quickCapacitanceCheck, quickBegin_draws hcalib hvhold hdone hdraw]
  case drawEnd =>
    rintro s t fall step vhold u rfl hdraw hdone hfall
    rw [exec_quickCapacitanceCheckEnd, quickEnd_measures hdraw hdone hfall]

/-! ### The start from replay on (R111, R301, R304, R329, R394, R395) -/

theorem exec_journalReplayDone (t : Nat) (reads : List SlotRead) (s : State) :
    exec (.journalReplayDone t reads) s = .next (replayDone reads (advance t s)) := rfl

theorem exec_startBistDone (t : Nat) (o : BistOutcome) (s : State) :
    exec (.startBistDone t o) s = .next (startBistDone o (advance t s)) := rfl

theorem exec_treeRebuildDone (t : Nat) (s : State) : exec (.treeRebuildDone t) s = .next (rebuildDone (advance t s)) := rfl

theorem exec_startSessionOpen (t : Nat) (s : State) : exec (.startSessionOpen t) s = .next (openSession (advance t s)) := rfl

theorem exec_holdupCheckTimeout (t : Nat) (s : State) : exec (.holdupCheckTimeout t) s = .next (holdTimeout (advance t s)) := rfl

theorem exec_holdupCheckRepeat (t vhold : Nat) (s : State) :
    exec (.holdupCheckRepeat t vhold) s = .next (holdRepeat vhold (advance t s)) := rfl

section
variable {s v w x : State}

/-- A journal that is whole, with no test to run: the rebuild follows replay. -/
theorem replayDone_rebuilds {reads : List SlotRead} {found : List Inst} (hphase : s.pmu.phase = .replaying)
    (hfound : found = foundRecords reads s)
    (hv : v = (keysOf found).foldl (chooseCurrent reads found) { s with jrn := { s.jrn with
      insts := found, current := [], nextSeq := found.foldl (fun n i => max n (i.record.seq + 1)) s.jrn.nextSeq
      session := highestSession found } })
    (hw : w = eraseInvalid (countCorrected reads (takeSectors reads v)))
    (hx : x = restoreUnits reads { w with jrn := { w.jrn with outA := copyRetired w false, outB := copyRetired w true } })
    (hlost : journalLost x = false) (hbist : (bistDecision x).1 ≠ 1) :
    replayDone reads s = { x with pmu := { x.pmu with
      bistPlan := some (bistDecision x), bistFrom := none, phase := .rebuilding } } := by
  rw [replayDone, if_neg (not_not_intro hphase)]
  simp only [← hfound, ← hv, ← hw, ← hx, hlost, hbist, Bool.false_eq_true, if_false]

theorem startBistDone_passed {o : BistOutcome} {b : BistStart} (hphase : s.pmu.phase = .testing) (hfrom : s.pmu.bistFrom = some b)
    (hpass : bistResult o = 0) (hv : v = reinitSram s) :
    startBistDone o s = { v with pmu := { v.pmu with phase := .rebuilding, bistStart := some (wholeBist 1 o b) } } := by
  simp [startBistDone, hphase, hfrom, hpass, ← hv]

/-- The rebuild: the tree, the uncovered counters, then the records of both. -/
theorem rebuildDone_rebuilding {c : List Nat × State} (hphase : s.pmu.phase = .rebuilding) (hv : v = rebuildSram s)
    (hc : c = coverLeaves ((uncoveredLeaves v).map fun l => l.num) [] v)
    (hx : x = writeAll 4 (leafWrites (endingOf s) c.1 c.2 ++ internalWrites (endingOf s) s v) c.2) :
    rebuildDone s = { x with pmu := { x.pmu with phase := .waiting } } := by
  rw [rebuildDone, if_neg (not_not_intro hphase), hx, hc, hv]

/-- With READY.HOLDUP, a session whose records all find their place opens. -/
theorem openSession_opens (hphase : s.pmu.phase = .waiting) (hholdup : s.ready.holdup = true) (hfits : coverFits s = true)
    (hv : writeQueued (admitCover s) = some v)
    (hw : tryWrite 1 .session { v with jrn := { v.jrn with session := v.jrn.session + 1 } } = some w) :
    openSession s = beginSession (recordBist (postRecovery
      (setReady (fun y => { y with counters := true }) (setReady (fun y => { y with journal := true })
        { w with pmu := { w.pmu with phase := .running, ranBefore := true } })))) := by
  rw [openSession, if_neg (by simp [hphase, hholdup, hfits]), hv, Option.bind_some, hw]

/-- A fault of the bank that has not been reported in this start is. -/
theorem holdTimeout_reports (halive : isAlive s = true) (hreached : s.pmu.reached = false) (hkind : s.pmu.checkKind = none) :
    holdTimeout s = postRail 0x15 s.pmu.vhold 0 2 { s with pmu := { s.pmu with checkKind := some 2 } } := by
  simp [holdTimeout, postCheck, halive, hreached, hkind]

/-- Every 10 s the caps are set for VHOLD as it is, and a bank that is not up is reported. -/
theorem holdRepeat_notUp {vhold : Nat} (hphase : s.pmu.phase = .waiting) (hmeasured : s.pmu.measured = true)
    (hv : v = recomputeCaps (seeVhold vhold s)) (hholdup : v.ready.holdup = false) (hreached : v.pmu.reached = false) :
    holdRepeat vhold s = postCheck 2 v := by
  have hseen : (seeVhold vhold s).pmu.measured = true := hmeasured
  simp [holdRepeat, hphase, hseen, ← hv, hholdup, hreached]

end

/-! ### The self-test of a shutdown (R323, R325) -/

theorem exec_shutdownBistDone (t : Nat) (o : BistOutcome) (s : State) :
    exec (.shutdownBistDone t o) s = .next (shutdownBistDone o (advance t s)) := rfl

section
variable {s v : State}

/-- The shutdown that waits completes once its record is written. -/
theorem finishShutdown_completes {payload : List Byte} {result duration : Nat} {op : Op}
    (hv : v = setReady (fun y => { y with shutdownDone := true }) (writeNow 4 (.bist s.jrn.session payload)
      { s with hmu := { s.hmu with bistRuns := false, bistAt := none } })) (hop : shutdownOp v = some op) :
    finishShutdown payload result duration s =
      complete op .ok (BitVec.ofNat 64 result) (BitVec.ofNat 64 duration) false v := by
  simp only [finishShutdown, ← hv, hop]

theorem shutdownBistDone_ran {o : BistOutcome} {b : BistStart} (hruns : s.hmu.bistRuns = true) (hat : s.hmu.bistAt = some b) :
    shutdownBistDone o s = finishShutdown (wholeBist 0 o b) (bistResult o) o.duration (reinitSram s) := by
  simp [shutdownBistDone, hruns, hat]

end

/-- Settles O38: one clause per step from replay on, the two reports of the bank, and the end of a shutdown's self-test. -/
theorem startFromReplayCompletesAndSelfTestsEnd : Obligations.StartFromReplayCompletesAndSelfTestsEnd := by
  refine ⟨?replay, ?bist, ?rebuild, ?session, ?timeout, ?again, ?shutdown⟩
  case replay =>
    rintro s t reads found u v w x rfl hphase hfound hv hw hx hlost hbist
    rw [exec_journalReplayDone, replayDone_rebuilds hphase hfound hv hw hx hlost hbist]
  case bist =>
    rintro s t o b u v rfl hphase hfrom hpass hv
    rw [exec_startBistDone, startBistDone_passed hphase hfrom hpass hv]
  case rebuild =>
    rintro s t u v w rfl hphase hv hw x hx
    rw [exec_treeRebuildDone, rebuildDone_rebuilding hphase hv hw hx]
  case session =>
    rintro s t u v w rfl hphase hholdup hfits hv hw
    rw [exec_startSessionOpen, openSession_opens hphase hholdup hfits hv hw]
  case timeout =>
    rintro s t u rfl halive hreached hkind
    rw [exec_holdupCheckTimeout, holdTimeout_reports halive hreached hkind]
  case again =>
    rintro s t vhold u v rfl hphase hmeasured hv hholdup hreached
    rw [exec_holdupCheckRepeat, holdRepeat_notUp hphase hmeasured hv hholdup hreached]
  case shutdown =>
    rintro s t o b u v w op rfl hruns hat rfl hv hop
    rw [exec_shutdownBistDone, shutdownBistDone_ran hruns hat, finishShutdown_completes hv hop]

end Sys2Proof.Machine
end

section
/-!
PROOFS. The statements of spec/06_placement.md: the placement window with its balance of the engines, the steps of the ceilings,
and the scrub.
-/
namespace Sys2Proof.Machine

theorem exec_placementWindow (t : Nat) (s : State) :
    exec (.placementWindow t) s = .next (background (placementWindow (advance t s))) := rfl

theorem exec_ceilingStepUpdate (t : Nat) (s : State) :
    exec (.ceilingStepUpdate t) s = .next (background (stepUpdate (advance t s))) := rfl

theorem exec_cttScrub (t corrected : Nat) (bad : List BadWord) (s : State) :
    exec (.cttScrub t corrected bad) s = .next (background (scrub corrected bad (advance t s))) := rfl

/-! ### Rates and loads (R166, R169, R172) -/

/-- A counter after a window; it has been slow where it is LOOSE and its group, one of those listed, rises 16 times as fast. -/
theorem leafWindow_eq (s : State) (l : Leaf) : leafWindow s l = { l with
    rate := (7 * l.rate + 64 * l.windowRise) / 8, windowRise := 0
    slowWindows := if l.cls = .loose ∧ (s.ctr.groups.any fun g =>
        decide (findGroup s l.group = some g ∧ 16 * ((7 * l.rate + 64 * l.windowRise) / 8) < g.rate)) = true
      then l.slowWindows + 1 else 0 } := by
  cases hg : findGroup s l.group with
  | none => simp [leafWindow, hg, nextRate, windowsPerSecond]
  | some g =>
    have hmem : g ∈ s.ctr.groups := List.mem_of_find?_eq_some hg
    by_cases hslow : 16 * ((7 * l.rate + 64 * l.windowRise) / 8) < g.rate <;>
      simp [leafWindow, hg, nextRate, windowsPerSecond, hmem, hslow]

section
variable {s v : State}

/-- Groups and engines take the window first; then each counter is judged against its group as that left it, and the loads of the
engines are summed. -/
theorem closeWindowRates_eq (hv : v = { s with ctr := { s.ctr with
      groups := s.ctr.groups.map groupWindow, engines := s.ctr.engines.map engineWindow } }) :
    closeWindowRates s = { v with
      ctr := { v.ctr with leaves := v.ctr.leaves.map fun (l : Leaf) => { l with
        rate := (7 * l.rate + 64 * l.windowRise) / 8, windowRise := 0
        slowWindows := if l.cls = .loose ∧ (v.ctr.groups.any fun g =>
            decide (findGroup v l.group = some g ∧ 16 * ((7 * l.rate + 64 * l.windowRise) / 8) < g.rate)) = true
          then l.slowWindows + 1 else 0 } }
      mnt := { v.mnt with load := sumOf (fun e => e.load) v.ctr.engines } } := by
  rw [closeWindowRates, ← hv, ← funext (leafWindow_eq v)]

theorem placementWindow_counting (hready : s.ready.counters = true) :
    placementWindow s = noteDrains (watchDrain (balance (closeWindowRates s))) := by simp [placementWindow, hready]

end

/-! ### Balance (R172) -/

theorem farApart_of_gap {high low gap : Nat} (hgap : 524288 < gap) : farApart (some (high, low, gap)) = true :=
  decide_eq_true hgap

/-- The group that best closes the gap goes to the less loaded engine of the pair. -/
theorem balanceBy_moves {s : State} {f : Group → Nat} {high low gap : Nat} {g : Group}
    (hg : minBy (fun g => distance gap (2 * 64 * f g))
      (s.ctr.groups.filter fun g => g.engine == high && decide (f g ≠ 0) && groupQuiet s g.num) = some g) :
    balanceBy s (some (high, low, gap)) f = moveGroup g.num low gap s := by
  simp only [balanceBy, windowsPerSecond, hg]

section
variable {s v : State} {high low gap : Nat} {g : Group}

/-- Class 0 load comes first: where it has been apart for long enough, it decides. -/
theorem balance_class0 (hpair : (loadPair s fun e => e.load0) = some (high, low, gap)) (hgap : 524288 < gap)
    (hlong : 3 ≤ s.ctr.gapWindows0)
    (hv : v = { s with ctr := { s.ctr with
      gapWindows0 := s.ctr.gapWindows0 + 1
      gapWindows := if farApart (loadPair s fun e => e.load) then s.ctr.gapWindows + 1 else 0 } }) :
    balance s = balanceBy v (some (high, low, gap)) fun g => g.lastOps0 := by
  have hfourth : 4 ≤ s.ctr.gapWindows0 + 1 := Nat.succ_le_succ hlong
  simp only [balance, hpair, farApart_of_gap hgap, if_true, if_pos hfourth, ← hv]

/-- With class 0 load in balance, total load decides in its turn. -/
theorem balance_total (hnear : farApart (loadPair s fun e => e.load0) = false)
    (hpair : (loadPair s fun e => e.load) = some (high, low, gap)) (hgap : 524288 < gap) (hlong : 3 ≤ s.ctr.gapWindows)
    (hv : v = { s with ctr := { s.ctr with gapWindows0 := 0, gapWindows := s.ctr.gapWindows + 1 } }) :
    balance s = balanceBy v (some (high, low, gap)) fun g => g.lastOps := by
  have hfourth : 4 ≤ s.ctr.gapWindows + 1 := Nat.succ_le_succ hlong
  simp [balance, hnear, hpair, farApart_of_gap hgap, hfourth, ← hv]

theorem balance_near (hnear0 : farApart (loadPair s fun e => e.load0) = false)
    (hnear : farApart (loadPair s fun e => e.load) = false) :
    balance s = { s with ctr := { s.ctr with gapWindows0 := 0, gapWindows := 0 } } := by
  simp [balance, hnear0, hnear]

end

/-! ### Ceiling steps (R174) -/

/-- A step is the first power of two in its range that the rate allows, or the last of them. -/
theorem stepFor_least_power (rate wear active : Nat) :
    ∃ k, stepFor rate wear active = 2 ^ k ∧ 16 ≤ k ∧ k ≤ 56 ∧
      (rate * wear * max 600 active ≤ 10 * 2 ^ k ∨ k = 56) ∧ (10 * 2 ^ (k - 1) < rate * wear * max 600 active ∨ k = 16) := by
  cases hfind : (List.range 41).find? fun i => decide (rate * wear * max 600 active ≤ 10 * 2 ^ (16 + i)) with
  | none =>
    have hall := List.find?_range_eq_none.mp hfind
    have hbelow : 10 * 2 ^ (56 - 1) < rate * wear * max 600 active := by simpa using hall 39 (by decide)
    exact ⟨56, by simp only [stepFor, hfind], by decide, by decide, .inr rfl, .inl hbelow⟩
  | some i =>
    obtain ⟨hfits, hi, hleast⟩ := List.find?_range_eq_some.mp hfind
    have hrange : i < 41 := List.mem_range.mp hi
    refine ⟨16 + i, by simp only [stepFor, hfind], Nat.le_add_right 16 i, by omega, .inl (of_decide_eq_true hfits), ?_⟩
    cases i with
    | zero => exact .inr rfl
    | succ j => exact .inl (by simpa using hleast j (Nat.lt_succ_self j))

section
variable {n : Nat} {s : State} {g : Group}

theorem stepUpdate_counting (hready : s.ready.counters = true) (hn : n = activeGroups s) :
    stepUpdate s = s.ctr.groups.foldl (setStep n)
      { s with plc := { s.plc with active := n, period := s.plc.wear * max 600 n / 10 } } := by
  simp [stepUpdate, hready, hn]

theorem setStep_changes {step : Nat} (hactive : isActive s g = true) (hstep : step = stepFor g.rate s.plc.wear n)
    (hnew : step ≠ g.step) :
    setStep n s g = scheduleCeiling g.num (logDecision 0x0A g.num (Nat.log2 g.step) (Nat.log2 step) g.rate
      (modGroup g.num (fun x => { x with step := step }) s)) := by
  simp only [setStep, hactive, if_true, ← hstep, if_neg hnew]

theorem setStep_inactive (h : isActive s g = false) : setStep n s g = s := by simp [setStep, h]

end

/-! ### The scrub (R159, R160) -/

theorem scrub_counting {corrected : Nat} {bad : List BadWord} {s : State} (hready : s.ready.counters = true) :
    scrub corrected bad s = repairOrSafe bad { s with ctr := { s.ctr with corrected := s.ctr.corrected + corrected } } := by
  simp [scrub, hready]

/-- Settles O25: the window, its balance in three cases, the step update with the choice of a step, and the scrub. How rates and the
update's period are rounded is notes/assumptions/53.md; that each of the two loads has its own count of windows, and that a group is
passed over while an operation on a member is in flight, is notes/assumptions/57.md. -/
theorem placementUpdatesComplete : Obligations.PlacementUpdatesComplete := by
  refine ⟨?window, ?class0, ?total, ?near, ?update, ?changes, ?inactive, stepFor_least_power, ?scrub, ?repair⟩
  case window =>
    rintro s t u v w rfl hready hv hw
    rw [exec_placementWindow, placementWindow_counting hready, closeWindowRates_eq hv, hw]
  case class0 =>
    rintro u v high low gap g hpair hgap hlong hv hg
    rw [balance_class0 hpair hgap hlong hv, balanceBy_moves (by rwa [hv] at hg ⊢), moveGroup]
  case total =>
    rintro u v high low gap g hnear hpair hgap hlong hv hg
    rw [balance_total hnear hpair hgap hlong hv, balanceBy_moves (by rwa [hv] at hg ⊢), moveGroup]
  case near => exact fun u hnear0 hnear => balance_near hnear0 hnear
  case update =>
    rintro s t u n rfl hready hn
    rw [exec_ceilingStepUpdate, stepUpdate_counting hready hn]
  case changes => exact fun n u g step hactive hstep hnew => setStep_changes hactive hstep hnew
  case inactive => exact fun n u g h => setStep_inactive h
  case scrub =>
    rintro s t corrected u rfl hready
    rw [exec_cttScrub, scrub_counting hready, repairOrSafe_nil]
  case repair =>
    rintro s t corrected bad u rfl hready
    rw [exec_cttScrub, scrub_counting hready]

end Sys2Proof.Machine
end

section
/-!
PROOFS. The statements of spec/05_durability_recovery.md: the energy certificate, the loss and the return of power, and the
charger.
-/
namespace Sys2Proof.Machine

/-! ### The energy certificate (R140-R142, R306) -/

/-- Settles O36: the caps of a certificate below 2,048, and of one from there on. How k is rounded is notes/assumptions/30.md. -/
theorem capsFollowTheCertificate : Obligations.CapsFollowTheCertificate := by
  rintro u k rfl
  set b := min 36864 (certifiedWrites u / 2) with hb
  set r := min 32767 (b - 4097) with hr
  rcases Nat.lt_or_ge r 2048 with hlow | hhigh
  · simp [recomputeCaps_of u b r 0 0 (capsOf_low _ b r hb hr hlow), setCaps_owed, setCaps_holdup, hlow]
  · have hcaps := recomputeCaps_of u b r _ _ (capsOf_high _ b r hb hr hhigh)
    have hhalf : min 16383 (r / 2) ≤ r := by omega
    simp [hcaps, setCaps_owed, setCaps_holdup, Nat.not_lt.mpr hhigh, hhigh, Nat.add_sub_cancel' hhalf]

theorem exec_capRecompute (t vhold : Nat) (s : State) :
    exec (.capRecompute t vhold) s = .next (capRecompute vhold (advance t s)) := rfl

theorem capRecompute_measured {vhold : Nat} {s : State} (halive : isAlive s = true) (hmeasured : s.pmu.measured = true) :
    capRecompute vhold s = background (firstDraw (tryResume (recomputeCaps (finishMeasure (seeVhold vhold s))))) := by
  simp [capRecompute, halive, hmeasured]

/-- Settles O35: CAP_RECOMPUTE of a part that is alive and whose bank has been measured. That a CAP_MEASURE ends at this moment is
notes/assumptions/77.md. -/
theorem capRecomputeCompletes : Obligations.CapRecomputeCompletes := by
  rintro s t vhold u rfl halive hmeasured
  rw [exec_capRecompute, capRecompute_measured halive hmeasured, seeVhold]

/-! ### Power goes (R147, R149, R150, R297, R298) -/

theorem exec_powerWarn (t vin vhold : Nat) (s : State) :
    exec (.powerWarn t vin vhold) s = .next (warnPower vin vhold (advance t s)) := rfl

theorem exec_powerHoldup (t vin vhold : Nat) (s : State) :
    exec (.powerHoldup t vin vhold) s = .next (holdupPower vin vhold (advance t s)) := rfl

theorem exec_flushComplete (t : Nat) (s : State) : exec (.flushComplete t) s = .next (flushComplete (advance t s)) := rfl

section
variable {vin vhold : Nat} {s v : State}

theorem warnPower_normal (halive : isAlive s = true) (hpower : s.pmu.power = .normal) (hvin : vin < 10200)
    (hv : v = { s with pmu := { s.pmu with vin := vin, vhold := vhold, power := .warn, warnAt := s.clk.now } }) :
    warnPower vin vhold s = pump (interruptBist (releaseStrict (warnMaint (postPower .powerWarn v)))) := by
  simp [warnPower, halive, hpower, Nat.not_le.mpr hvin, seeVin, seeVhold, hv]

/-- In a session WARN gives way to HOLDUP, and a flush begins where none is under way. -/
theorem holdupPower_warn (hphase : s.pmu.phase = .running) (hpower : s.pmu.power = .warn) (hvin : vin < 9000)
    (hv : v = interruptBist (postPower .powerHoldup { s with pmu := { s.pmu with
      vin := vin, vhold := vhold, chargerOn := false, power := .holdup, warnTime := s.clk.now - s.pmu.warnAt
      holdupAt := s.clk.now, vinBack := false } }))
    (hflush : v.flush.why = .none) (hdead : v.jrn.dead = false) :
    holdupPower vin vhold s = beginFlush .holdup none v := by
  have hloses : ¬(s.pmu.power = .holdup ∨ 9000 ≤ vin) := by simp [hpower, hvin]
  have hreset : s.pmu.phase ≠ .reset := by simp [hphase]
  have hnormal : s.pmu.power ≠ .normal := by simp [hpower]
  have hspent : warnSpent s = s.clk.now - s.pmu.warnAt := if_pos hpower
  rw [holdupPower, if_neg hloses, if_neg hreset, if_neg (not_not_intro hphase), if_neg hnormal, hspent]
  subst hv
  exact if_pos ⟨hflush, hdead⟩

/-- A start has no session that a flush could keep. -/
theorem holdupPower_starting (hreset : s.pmu.phase ≠ .reset) (hrunning : s.pmu.phase ≠ .running) (hpower : s.pmu.power ≠ .holdup)
    (hvin : vin < 9000) :
    holdupPower vin vhold s =
      doReset 0 { s with pmu := { s.pmu with vin := vin, vhold := vhold, chargerOn := false } } := by
  simp [holdupPower, hreset, hrunning, hpower, Nat.not_le.mpr hvin, seeVin, seeVhold]

/-- A part held in reset notes its cause. -/
theorem holdupPower_inReset (hphase : s.pmu.phase = .reset) (hpower : s.pmu.power ≠ .holdup) (hvin : vin < 9000)
    (hv : v = { s with pmu := { s.pmu with vin := vin, vhold := vhold, chargerOn := false } }) :
    holdupPower vin vhold s = { v with regs := { v.regs with resetCause := 0 } } := by
  simp [holdupPower, hphase, hpower, Nat.not_le.mpr hvin, seeVin, seeVhold, hv]

/-- In a session a flush whose records are written ends with its marker. -/
theorem endFlush_marker (hwritten : flushWritten s = true) (hcopies : (s.jrn.outA && s.jrn.outB) = false)
    (hphase : s.pmu.phase = .running) (hmarker : tryWrite 1 .marker s = some v) :
    endFlush s = some { v with flush := { v.flush with why := .none, marker := true } } := by
  have hwhy : s.flush.why ≠ .none := by
    simp only [flushWritten, Bool.and_eq_true, decide_eq_true_eq] at hwritten
    obtain ⟨⟨⟨⟨hwhy, -⟩, -⟩, -⟩, -⟩ := hwritten
    exact hwhy
  simp [endFlush, hwhy, hwritten, hcopies, hphase, hmarker]

/-- The reset that a flush was made for follows its end. -/
theorem flushComplete_reset {cause : Nat} (hend : endFlush s = some v) (hcause : s.flush.resetCause = some cause) :
    flushComplete s = doReset cause v := by
  simp only [flushComplete, hend, hcause]

end

/-- Settles O30: WARN, the supply's loss in a session, in a start and in reset, and the end of a flush for a reset. That a loss in a
start or in reset has the cause 0 is notes/assumptions/48.md. -/
theorem powerLossComplete : Obligations.PowerLossComplete := by
  refine ⟨?warn, ?session, ?starting, ?inReset, ?flushed⟩
  case warn =>
    rintro s t vin vhold u v rfl halive hpower hvin hv
    rw [exec_powerWarn, warnPower_normal halive hpower hvin hv]
  case session =>
    rintro s t vin vhold u v rfl hphase hpower hvin hv hflush hdead
    rw [exec_powerHoldup, holdupPower_warn hphase hpower hvin hv hflush hdead]
  case starting =>
    rintro s t vin vhold u rfl hreset hrunning hpower hvin
    rw [exec_powerHoldup, holdupPower_starting hreset hrunning hpower hvin]
  case inReset =>
    rintro s t vin vhold u v rfl hphase hpower hvin hv
    rw [exec_powerHoldup, holdupPower_inReset hphase hpower hvin hv]
  case flushed =>
    rintro s t cause u v rfl hwritten hcopies hphase hcause hmarker
    rw [exec_flushComplete, flushComplete_reset (endFlush_marker hwritten hcopies hphase hmarker) hcause]

/-! ### Power returns, and the charger (R150, R151, R289) -/

theorem exec_vinWarningClear (t : Nat) (s : State) : exec (.vinWarningClear t) s = .next (clearWarning (advance t s)) := rfl

theorem exec_vinResume (t vhold : Nat) (s : State) : exec (.vinResume t vhold) s = .next (vinBack vhold (advance t s)) := rfl

theorem exec_vholdReset (t : Nat) (s : State) : exec (.vholdReset t) s = .next (vholdLow (advance t s)) := rfl

theorem exec_vholdFull (t : Nat) (s : State) : exec (.vholdFull t) s = .next (holdFull (advance t s)) := rfl

theorem exec_chargerRestart (t : Nat) (s : State) : exec (.chargerRestart t) s = .next (holdLow (advance t s)) := rfl

theorem exec_chargerEnable (t vin : Nat) (s : State) : exec (.chargerEnable t vin) s = .next (chargerAt vin (advance t s)) := rfl

section
variable {s : State}

theorem clearWarning_warn (h : s.pmu.power = .warn) :
    clearWarning s = postResumed (s.clk.now - s.pmu.warnAt) 0 0 0 { s with pmu := { s.pmu with power := .normal } } := by
  simp [clearWarning, warnSpent, h]

theorem vinBack_holdup {vhold : Nat} (h : s.pmu.power = .holdup) :
    vinBack vhold s = tryResume (recomputeCaps { s with pmu := { s.pmu with vinBack := true, vhold := vhold } }) := by
  simp [vinBack, h, seeVhold]

theorem vholdLow_holdup (h : s.pmu.power = .holdup) : vholdLow s = doReset 0 s := if_pos h

/-- A charger at work stops at 11.0 V, and the caps of a bank that has been measured follow. -/
theorem holdFull_charging (hon : s.pmu.chargerOn = true) (hfull : s.pmu.full = false) (hdraw : s.pmu.drawing = false)
    (hmeasured : s.pmu.measured = true) :
    holdFull s =
      checkBank (recomputeCaps { s with pmu := { s.pmu with full := true, reached := true, vhold := 11000 } }) := by
  simp [holdFull, hon, hfull, hdraw, hmeasured, seeVhold]

theorem holdLow_full (h : s.pmu.full = true) : holdLow s = { s with pmu := { s.pmu with full := false, vhold := 10900 } } := by
  simp [holdLow, h, seeVhold]

end

/-- Settles O31: the return from WARN and in HOLDUP, VHOLD at its end, and the charger at its three levels. -/
theorem powerReturnAndChargerComplete : Obligations.PowerReturnAndChargerComplete := by
  refine ⟨?clear, ?back, ?low, ?full, ?restart, ?enable⟩
  case clear =>
    rintro s t u rfl hpower
    rw [exec_vinWarningClear, clearWarning_warn hpower]
  case back =>
    rintro s t vhold u rfl hpower
    rw [exec_vinResume, vinBack_holdup hpower]
  case low =>
    rintro s t u rfl hpower
    rw [exec_vholdReset, vholdLow_holdup hpower]
  case full =>
    rintro s t u rfl hon hfull hdraw hmeasured
    rw [exec_vholdFull, holdFull_charging hon hfull hdraw hmeasured]
  case restart =>
    rintro s t u rfl hfull
    rw [exec_chargerRestart, holdLow_full hfull]
  case enable =>
    rintro s t vin u rfl
    rw [exec_chargerEnable, chargerAt]

end Sys2Proof.Machine
end

section
/-!
PROOFS. The statements of spec/12_health_selftest.md: how maintenance starts.
-/
namespace Sys2Proof.Machine

/-! ### Requests, the head of the queue, and the test of a block (R142, R173, R332) -/

theorem exec_capMeasureFirst (t : Nat) (s : State) : exec (.capMeasureFirst t) s = .next (firstCapMeasure (advance t s)) := rfl

theorem exec_maintActivityStart (t : Nat) (s : State) :
    exec (.maintActivityStart t) s = .next (background (startMaint (advance t s))) := rfl

theorem exec_blockDrained (t : Nat) (s : State) : exec (.blockDrained t) s = .next (blockDrained (advance t s)) := rfl

theorem exec_bistBlockDeferred (t : Nat) (s : State) : exec (.bistBlockDeferred t) s = .next (deferBlock (advance t s)) := rfl

section
variable {m : Maint} {rest : List Maint} {s : State}

theorem firstCapMeasure_due {due : Nat} (hfirst : s.hmu.capFirst = some due) (hdue : due ≤ s.clk.now) :
    firstCapMeasure s = queueInternal 4 0 false { s with hmu := { s.hmu with capFirst := none } } := by
  simp only [firstCapMeasure, hfirst, if_pos hdue]

/-- The head of the queue starts where it may run, and where its block may be drained if it tests one. -/
theorem startHead_starts {n : Nat} (hqueue : s.mnt.queue = m :: rest) (hmay : mayRun m s = true)
    (hdrain : m.kind = 1 → drainReady s m.block = true) :
    startHead (n + 1) s = startActivity m { s with mnt := { s.mnt with queue := rest } } := by
  have hready : ¬(m.kind = 1 ∧ drainReady s m.block = false) := fun ⟨hkind, hno⟩ => by simp [hdrain hkind] at hno
  simp [startHead, hqueue, hmay, hready]

theorem startMaint_idle (hrunning : s.mnt.running = none) (hflush : s.flush.why = .none) (hsafe : inSafe s = false)
    (hshut : s.pmu.shutdown = false) : startMaint s = startHead 2 s := by
  simp [startMaint, hrunning, hflush, hsafe, hshut]

theorem blockDrained_begins {r : Running} (hrunning : s.mnt.running = some r) (hkind : r.req.kind = 1) (htest : r.test = none)
    (hdrained : isDrained r.req.block s = true) :
    blockDrained s = { s with mnt := { s.mnt with running := some { r with test := some (bistStartNow s) } } } := by
  simp only [blockDrained, hrunning, hkind, htest, hdrained, and_self, if_true]

/-- A test at the head of the queue whose turn came 60 s ago leaves the queue with result 4. -/
theorem deferBlock_head {since : Nat} (hqueue : s.mnt.queue = m :: rest) (hkind : m.kind = 1) (hturn : m.turn = some since)
    (hlate : since + 60 * second ≤ s.clk.now) :
    deferBlock s =
      postDone m since 4 0 { s with mnt := { s.mnt with queue := s.mnt.queue.filter fun x => decide (x ≠ m) } } := by
  simp [deferBlock, hqueue, hkind, hturn, hlate]

end

/-- Settles O28: the first CAP_MEASURE, the head of the queue, the test of a drained block, and a test that never could start. -/
theorem maintenanceStartsComplete : Obligations.MaintenanceStartsComplete := by
  refine ⟨?first, ?head, ?drained, ?deferred⟩
  case first =>
    rintro s t due u rfl hfirst hdue
    rw [exec_capMeasureFirst, firstCapMeasure_due hfirst hdue]
  case head =>
    rintro s t m rest u rfl hrunning hflush hsafe hshut hqueue hmay hdrain
    rw [exec_maintActivityStart, startMaint_idle hrunning hflush hsafe hshut, startHead_starts hqueue hmay hdrain]
  case drained =>
    rintro s t r u rfl hrunning hkind htest hdrained
    rw [exec_blockDrained, blockDrained_begins hrunning hkind htest hdrained, bistStartNow]
  case deferred =>
    rintro s t m rest since u rfl hqueue hkind hturn hlate
    rw [exec_bistBlockDeferred, deferBlock_head hqueue hkind hturn hlate]

end Sys2Proof.Machine
end

section
/-!
PROOFS. The statements of spec/06_placement.md: how counters move between groups.
-/
namespace Sys2Proof.Machine

theorem exec_looseMove (t n : Nat) (s : State) : exec (.looseMove t n) s = .next (background (looseMove n (advance t s))) := rfl

theorem exec_boundedMove (t : Nat) (s : State) : exec (.boundedMove t) s = .next (background (boundedMove (advance t s))) := rfl

section
variable {s : State} {l : Leaf} {rest : List Leaf}

/-! ### LOOSE moves (R169, R171) -/

/-- A slow, rested and quiet counter moves to its target; the moves of the second of device time are counted
(notes/assumptions/57.md). -/
theorem looseMove_moves {n : Nat} {g : Group} (hleaf : findLeaf s n = some l) (hopen : l.closed = false) (hcls : l.cls = .loose)
    (hslow : 8 ≤ l.slowWindows) (hrested : ∀ m, l.movedAt = some m → m + 2 ^ 36 ≤ s.clk.now) (hquiet : counterQuiet s n = true)
    (hadmit : moveAdmitted s n = true) (hroom : looseRoom s = true) (hsafe : inSafe s = false) (htarget : looseTarget s l = some g) :
    looseMove n s = moveLeaf l g.num 0x04 false { s with plc := { s.plc with
      looseMoves := if s.plc.looseSecond = s.clk.now / second then s.plc.looseMoves + 1 else 1
      looseSecond := s.clk.now / second } } := by
  simp only [looseMove, hleaf, htarget]
  refine if_neg ?_
  -- Whether it has rested turns on whether it has ever moved.
  cases hmoved : l.movedAt <;>
    simp [-Nat.reducePow, hopen, hcls, Nat.not_lt.mpr hslow, hmoved, hrested, hquiet, hadmit, hroom, hsafe]

/-! ### BOUNDED moves (R170, R171) -/

theorem boundedMove_pressed (hpressed : boundedPressed s = true) (hfrozen : s.owed.frozen = false) (hsafe : inSafe s = false) :
    boundedMove s = moveFirst (uncoveredLeaves s) s := by
  simp [boundedMove, hpressed, hfrozen, hsafe]

theorem moveFirst_moves {g : Group} (hquiet : counterQuiet s l.num = true) (hadmit : moveAdmitted s l.num = true)
    (htarget : boundedTarget s l = some g) : moveFirst (l :: rest) s = moveLeaf l g.num 0x05 false s := by
  simp [moveFirst, hquiet, hadmit, htarget]

/-- A counter that may move but has no target gets a group opened for it, if it does not wait for one already. -/
theorem moveFirst_opens {g : Nat} (hquiet : counterQuiet s l.num = true) (hadmit : moveAdmitted s l.num = true)
    (htarget : boundedTarget s l = none) (hwaiting : waitingGroup s l.num l.v.toNat = none) (hempty : emptyGroup s = some g) :
    moveFirst (l :: rest) s = openForMove g l s := by
  simp [moveFirst, hquiet, hadmit, htarget, hwaiting, hempty]

theorem moveFirst_skips_busy (hbusy : counterQuiet s l.num = false) : moveFirst (l :: rest) s = moveFirst rest s := by
  simp [moveFirst, hbusy]

theorem moveFirst_skips_unadmitted (hfull : moveAdmitted s l.num = false) : moveFirst (l :: rest) s = moveFirst rest s := by
  simp [moveFirst, hfull]

/-- A counter that waits for its new group's ceiling leaves the turn to the next one. -/
theorem moveFirst_skips_waiting (htarget : boundedTarget s l = none) (hwaiting : waitingGroup s l.num l.v.toNat ≠ none) :
    moveFirst (l :: rest) s = moveFirst rest s := by
  simp [moveFirst, htarget, Option.isSome_iff_ne_none.mpr hwaiting]

/-- So does one for which the pool has no group. -/
theorem moveFirst_skips_poolEmpty (htarget : boundedTarget s l = none) (hempty : emptyGroup s = none) :
    moveFirst (l :: rest) s = moveFirst rest s := by
  simp [moveFirst, htarget, hempty]

end

/-- Settles O26: the LOOSE move, the BOUNDED move to a target or to a group opened for it, and the turn that goes on. The count of
LOOSE moves by the second is notes/assumptions/57.md, the group kept for its counter notes/assumptions/18.md. -/
theorem counterMovesComplete : Obligations.CounterMovesComplete := by
  refine ⟨?loose, ?moves, ?opens, ?skips⟩
  case loose =>
    rintro s t n l g u rfl hleaf hopen hcls hslow hrested hquiet hadmit hroom hsafe htarget
    rw [exec_looseMove, looseMove_moves hleaf hopen hcls hslow hrested hquiet hadmit hroom hsafe htarget]
  case moves =>
    rintro s t l rest g u rfl hpressed hfrozen hsafe hlist hquiet hadmit htarget
    rw [exec_boundedMove, boundedMove_pressed hpressed hfrozen hsafe, hlist, moveFirst_moves hquiet hadmit htarget]
  case opens =>
    rintro s t l rest g u rfl hpressed hfrozen hsafe hlist hquiet hadmit htarget hwaiting hempty
    rw [exec_boundedMove, boundedMove_pressed hpressed hfrozen hsafe, hlist,
      moveFirst_opens hquiet hadmit htarget hwaiting hempty, openForMove]
  case skips =>
    rintro l rest u (hbusy | hfull | ⟨htarget, hwaiting | hempty⟩)
    · exact moveFirst_skips_busy hbusy
    · exact moveFirst_skips_unadmitted hfull
    · exact moveFirst_skips_waiting htarget hwaiting
    · exact moveFirst_skips_poolEmpty htarget hempty

end Sys2Proof.Machine
end

section
/-!
PROOFS. The statements of spec/07_key_identifiers.md: the splice of a key identifier, and KID_READ.
-/
namespace Sys2Proof.Machine

open Sys2Proof.Safety

/-! ### The plan of a key identifier operation (R187, R189-R192, R194) -/

section
variable {op : Op} {x : Kid} {p : Plan} {s : State}

/-- An operation on a key identifier that passes its checks and whose plan is admitted does as planned. -/
theorem runKid_admitted (hg : kidGate op s = none) (hp : objectPlan op s = .ok p) (ha : Admitted p.need s) :
    runKid op s = wakeCommits (p.run s) := by
  rw [runKid, gated_passed hg, startObject_admitted hp ha]

/-- The opcodes from 0x20 to 0x24 are those of key identifiers. -/
theorem objectPlan_kid (hlow : 0x20 ≤ op.opcode) (hhigh : op.opcode ≤ 0x24) : objectPlan op s = kidPlan op s := by
  rw [objectPlan, if_neg (by omega), if_pos (by omega)]

/-- A FREE identifier is foreign to no operation. -/
theorem kidForeign_free (hst : x.st = .free) : kidForeign op x = false := by simp [kidForeign, hst]

/-- An identifier of the operation's own domain is not foreign, whatever its state. -/
theorem kidForeign_own (hdom : foreign op x.domain = false) : kidForeign op x = false := by simp [kidForeign, hdom]

/-- With no other KID_SPLICE_COMMIT waiting on the identifier, a commit of its generation is not refused. -/
theorem commitPlan_alone (hst : x.st = .draining) (hgen : x.gen = kidGeneration op)
    (halone : ∀ o ∈ s.hif.ops, o.opcode = 0x23 → o.id ≠ op.id → kidNumber o = x.num → isWaiting s o = false) :
    commitPlan op x s =
      if x.mask &&& ~~~op.a ≠ 0 then .ok (freePlan fun v => setOpSt op.id (.splice (v.clk.now + hundredMs)) v)
      else .ok ⟨kidNeed x.num s, 0, 0, finishCommit op x⟩ := by
  have hnone : (s.hif.ops.any fun o => o.opcode == 0x23 && o.id != op.id && kidNumber o == x.num && isWaiting s o) = false := by
    simpa [List.any_eq_false, and_imp] using halone
  rw [commitPlan, if_neg (by simp [hst, hgen]), if_neg (by simp [hnone]), missingUnits]

/-- The end of a splice leaves the identifier retired at its last generation, else at the next one. -/
theorem finishCommit_eq {y : Kid} (hy : y = if x.gen = 0xFFFFFFFF then { x with st := .free, mask := 0, retired := true }
      else { x with st := .free, mask := 0, gen := x.gen + 1 }) :
    finishCommit op x s =
      awaitRecord op (.kid x.num) (BitVec.zeroExtend 64 y.gen) (x.mask &&& op.a) (owe (.kid x.num) (setKid y s)) := by
  subst hy
  by_cases hlast : x.gen = 0xFFFFFFFF
  · simp [finishCommit, hlast]
  · simp only [finishCommit, hlast, decide_false, Bool.or_false, Bool.false_eq_true, if_false]

section
variable (hx : x = kidOf s (kidNumber op))
include hx

theorem objectPlan_kidAlloc (hop : hasCode 0x20 op = true) (hst : x.st = .free) (hretired : x.retired = false)
    (hquota : kidQuotaFull s op.domain = false) :
    objectPlan op s = .ok ⟨kidNeed x.num s, 0, 0, fun v => complete op .ok (BitVec.zeroExtend 64 x.gen) op.a false
      (owe (.kid x.num) (setKid { x with st := .live, domain := op.domain, mask := op.a } v))⟩ := by
  have hcode := hasCode_opcode hop
  rw [objectPlan_kid (by omega) (by omega), kidPlan, ← hx, kidForeign_free hst, hcode]
  simp [allocPlan, hretired, hquota, hst]

theorem objectPlan_kidSpliceBegin (hop : hasCode 0x21 op = true) (hst : x.st = .live) (hdom : foreign op x.domain = false)
    (hgen : x.gen = kidGeneration op) :
    objectPlan op s = .ok ⟨kidNeed x.num s, 0, 0, fun v => awaitRecord op (.kid x.num) (BitVec.zeroExtend 64 x.gen) x.mask
      (owe (.kid x.num) (setKid { x with st := .draining } v))⟩ := by
  have hcode := hasCode_opcode hop
  rw [objectPlan_kid (by omega) (by omega), kidPlan, ← hx, kidForeign_own hdom, hcode]
  change beginPlan op x s = _
  rw [beginPlan, if_neg (by simp [hst, hgen])]

/-- KID_FLUSHED of a unit that is outstanding. -/
theorem objectPlan_kidFlushed (hop : hasCode 0x22 op = true) (hst : x.st = .draining) (hdom : foreign op x.domain = false)
    (hgen : x.gen = kidGeneration op) (hunit : x.mask &&& unitBit (opBits op.a 0 6) ≠ 0) :
    objectPlan op s = .ok ⟨kidNeed x.num s, 0, 0, fun v =>
      complete op .ok (x.mask &&& ~~~unitBit (opBits op.a 0 6)) 1 false
        (owe (.kid x.num) (setKid { x with mask := x.mask &&& ~~~unitBit (opBits op.a 0 6) } v))⟩ := by
  have hcode := hasCode_opcode hop
  rw [objectPlan_kid (by omega) (by omega), kidPlan, ← hx, kidForeign_own hdom, hcode]
  change flushedPlan op x s = _
  rw [flushedPlan, if_neg (by simp [hst, hgen])]
  exact if_neg hunit

theorem objectPlan_kidSpliceCommit (hop : hasCode 0x23 op = true) (hdom : foreign op x.domain = false) :
    objectPlan op s = commitPlan op x s := by
  have hcode := hasCode_opcode hop
  rw [objectPlan_kid (by omega) (by omega), kidPlan, ← hx, kidForeign_own hdom, hcode]
  rfl

theorem objectPlan_kidRead (hop : hasCode 0x24 op = true) (hdom : kidForeign op x = false) :
    objectPlan op s = .ok (kidReadPlan op x) := by
  have hcode := hasCode_opcode hop
  rw [objectPlan_kid (by omega) (by omega), kidPlan, ← hx, hdom, hcode]
  rfl

end

end

/-- Settles O8: each operation by its plan. KID_READ and a commit with units missing need no entry, the others that of the
identifier. -/
theorem keyIdentifierOperationsComplete : Obligations.KeyIdentifierOperationsComplete := by
  refine ⟨?alloc, ?spliceBegin, ?flushed, ?commit, ?commitWaits, ?read⟩
  case alloc =>
    rintro s t k op x u rfl hd hg hx hst hretired hquota ha
    have ⟨_, hop, _⟩ := hd
    rw [exec_dispatched (c := .kidAlloc t k) rfl hd, effectOf,
      runKid_admitted hg (objectPlan_kidAlloc hx hop hst hretired hquota) ha]
  case spliceBegin =>
    rintro s t k op x u rfl hd hg hx hst hdom hgen ha
    have ⟨_, hop, _⟩ := hd
    rw [exec_dispatched (c := .kidSpliceBegin t k) rfl hd, effectOf,
      runKid_admitted hg (objectPlan_kidSpliceBegin hx hop hst hdom hgen) ha]
  case flushed =>
    rintro s t k op x u rfl hd hg hx hst hdom hgen hunit ha
    have ⟨_, hop, _⟩ := hd
    rw [exec_dispatched (c := .kidFlushed t k) rfl hd, effectOf,
      runKid_admitted hg (objectPlan_kidFlushed hx hop hst hdom hgen hunit) ha]
  case commit =>
    rintro s t k op x y u rfl hd hg hx hst hdom hgen hmissing halone ha rfl
    have ⟨_, hop, _⟩ := hd
    have hplan := (objectPlan_kidSpliceCommit hx hop hdom).trans (commitPlan_alone hst hgen halone)
    rw [if_neg (not_not_intro hmissing)] at hplan
    rw [exec_dispatched (c := .kidSpliceCommit t k) rfl hd, effectOf, runKid_admitted hg hplan ha]
    exact congrArg (fun v => Host.Outcome.next (background (wakeCommits v))) (finishCommit_eq rfl)
  case commitWaits =>
    rintro s t k op x u rfl hd hg hx hst hdom hgen hmissing halone hfrozen
    have ⟨_, hop, _⟩ := hd
    have hplan := (objectPlan_kidSpliceCommit hx hop hdom).trans (commitPlan_alone hst hgen halone)
    rw [if_pos hmissing] at hplan
    rw [exec_dispatched (c := .kidSpliceCommit t k) rfl hd, effectOf, runKid_admitted hg hplan (admitted_noNeed hfrozen)]
    rfl
  case read =>
    rintro s t k op x u rfl hd hg hx hdom hfrozen
    have ⟨_, hop, _⟩ := hd
    rw [exec_dispatched (c := .kidRead t k) rfl hd, effectOf,
      runKid_admitted hg (objectPlan_kidRead hx hop hdom) (admitted_noNeed hfrozen)]
    rfl

end Sys2Proof.Machine
end

section
/-!
PROOFS. The statements of spec/08_halyard_line.md and spec/09_halyard_chains.md: the timers of a port, its overcurrent, and how a
slate and a sweep go on.
-/
namespace Sys2Proof.Machine

/-! ### The timers of a port (R205, R231, R236, R237, R240) -/

theorem exec_portCharged (t p : Nat) (s : State) :
    exec (.portCharged t p) s = .next (background (portCharge p (advance t s))) := rfl

theorem exec_portFaultTimer (t p : Nat) (s : State) : exec (.portFaultTimer t p) s = .next (faultTimer p (advance t s)) := rfl

theorem exec_statusSweepDue (t p : Nat) (s : State) :
    exec (.statusSweepDue t p) s = .next (background (sweepDueAt p (advance t s))) := rfl

theorem exec_authDue (t p i : Nat) (s : State) :
    exec (.authDue t p i) s = .next (background (authDueAt p i (advance t s))) := rfl

theorem exec_staleSlateRetry (t p : Nat) (s : State) :
    exec (.staleSlateRetry t p) s = .next (background (staleRetry p (advance t s))) := rfl

theorem exec_takeRetry (t p : Nat) (s : State) :
    exec (.takeRetry t p) s = .next (background (retryTake p (advance t s))) := rfl

theorem exec_sweepRepeat (t p : Nat) (s : State) :
    exec (.sweepRepeat t p) s = .next (background (repeatSweep p (advance t s))) := rfl

theorem exec_overcurrent (t p : Nat) (s : State) :
    exec (.overcurrent t p) s = .next (background (overcurrentAt p (advance t s))) := rfl

/-- Two changes that agree on every port of the number are the same change. -/
theorem modPort_congr {p : Nat} {f g : Port → Port} {s : State} (h : ∀ x ∈ s.hyc.ports, x.num = p → f x = g x) :
    modPort p f s = modPort p g s := by
  have hports : modWhere (fun x => x.num == p) f s.hyc.ports = modWhere (fun x => x.num == p) g s.hyc.ports := by
    refine List.map_congr_left fun x hx => ?_
    by_cases hnum : x.num = p
    · simp [hnum, h x hx hnum]
    · simp [hnum]
  rw [modPort, modPort, hports]

section
variable {p : Nat} {x : Port} {s : State} (hx : findPort s p = some x)
include hx

/-- 25 ms after power a port that is held or disabled by then goes down, any other is ON with its slate wanted. -/
theorem portCharge_due (hst : x.st = .charging) (hdue : x.since + twentyFiveMs ≤ s.clk.now) :
    portCharge p s = if x.held || !portEnabled s p then goDown p s else serveAll (wantSeries p .first 0 []
      (modPort p (fun y => { y with st := .on, since := s.clk.now, sweepDue := s.clk.now }) s)) := by
  have hturn : ¬(x.st ≠ .charging ∨ s.clk.now < x.since + twentyFiveMs) := by simp [hst, hdue]
  simp only [portCharge, hx, if_neg hturn]

/-- 100 ms after a fault a port that is held or disabled by then goes down, any other charges again. -/
theorem faultTimer_due (hst : x.st = .fault) (hdue : x.since + hundredMs ≤ s.clk.now) :
    faultTimer p s = if x.held || !portEnabled s p then goDown p s else chargePort p s := by
  have hturn : ¬(x.st ≠ .fault ∨ s.clk.now < x.since + hundredMs) := by simp [hst, hdue]
  simp only [faultTimer, hx, if_neg hturn]

theorem sweepDueAt_due (hst : x.st = .on) (hfresh : x.stale = false) (hdue : x.sweepDue ≤ s.clk.now) :
    sweepDueAt p s = serveAll (modPort p (fun y => { y with sweepWants := true }) s) := by
  simp [sweepDueAt, hx, hst, hfresh, hdue]

/-- An AUTH that falls due is wanted behind those that are, once. -/
theorem authDueAt_due {i : Nat} {y : Pos} (hy : posAt s p i = some y) (hst : x.st = .on) (hfresh : x.stale = false)
    (hauthed : y.authed = true) (hdue : y.authDue ≤ s.clk.now) :
    authDueAt p i s = serveAll (modPort p (fun z => { z with
      authWants := if z.authWants.contains i then z.authWants else z.authWants ++ [i] }) s) := by
  have hturn : x.st = .on ∧ x.stale = false ∧ (y.rekeyed = true ∨ (y.authed = true ∧ y.authDue ≤ s.clk.now)) :=
    ⟨hst, hfresh, .inr ⟨hauthed, hdue⟩⟩
  simp only [authDueAt, hx, hy, if_pos hturn]

theorem staleRetry_due (hst : x.st = .on) (hstale : x.stale = true) (hseries : x.series = none)
    (hdue : x.staleAt + second ≤ s.clk.now) : staleRetry p s = serveAll (wantSeries p .stale 0 [] s) := by
  simp [staleRetry, hx, hst, hstale, hseries, hdue]

theorem retryTake_pauseTake {since : Nat} (hact : x.act = .pauseTake since) (hdue : since + fiveMs ≤ s.clk.now) :
    retryTake p s = startTake p s := by
  simp only [retryTake, hx, hact, if_pos hdue]

theorem retryTake_pauseExch {e : Exch} {since : Nat} (hact : x.act = .pauseExch e since) (hdue : since + fiveMs ≤ s.clk.now) :
    retryTake p s = beginExch p e s := by
  simp only [retryTake, hx, hact, if_pos hdue]

theorem repeatSweep_pauseSweep {earlier : List SweepRes} {since : Nat} (hact : x.act = .pauseSweep earlier since)
    (hdue : since + fiveMs ≤ s.clk.now) : repeatSweep p s = startSweep p earlier s := by
  simp only [repeatSweep, hx, hact, if_pos hdue]

/-! ### Overcurrent (R205, R236, R260, R261) -/

/-- An overcurrent on a port that is ON, enabled and not held, with fewer than two others within 10 s, puts it in FAULT. -/
theorem overcurrentAt_faults {v : State} (hst : x.st = .on) (hheld : x.held = false) (henabled : portEnabled s p = true)
    (hfew : (x.shorts.filter fun t => decide (s.clk.now < t + 10 * second)).length < 2)
    (hv : v = losePositions p 2 (clearWork p (refuseOps (seriesOps x ++ x.queue.filter fun k => !isPower s k) .portOff
      (refuseOps (actOp x.act) .tagLineError s)))) :
    overcurrentAt p s = serveAll (checkHalyard (endPowerOff p (modPort p (fun y => { y with
      st := .fault, since := s.clk.now
      shorts := s.clk.now :: x.shorts.filter fun t => decide (s.clk.now < t + 10 * second)
      firstDue := y.firstDue && !x.series.isSome }) v))) := by
  have hthird := Nat.not_le.mpr hfew
  simp [overcurrentAt, hx, hst, hthird, hheld, henabled, ← hv]

end

/-- Settles O41: each timer where it is due, the two that look at a port's enable bit in both ways, and the overcurrent that is not the
third. In which order the ports that want the line are served is notes/assumptions/21.md. -/
theorem portTimersAndOvercurrentComplete : Obligations.PortTimersAndOvercurrentComplete := by
  refine ⟨?charged, ?faultOver, ?down, ?sweepDue, ?authDue, ?stale, ?pauseTake, ?pauseExch, ?pauseSweep, ?overcurrent⟩
  case charged =>
    rintro s t p x u rfl hx hst hdue hheld henabled
    have hup : ¬(x.held || !portEnabled (advance t s) p) = true := by simp [hheld, henabled]
    rw [exec_portCharged, portCharge_due hx hst hdue, if_neg hup]
  case faultOver =>
    rintro s t p x u rfl hx hst hdue hheld henabled
    have hup : ¬(x.held || !portEnabled (advance t s) p) = true := by simp [hheld, henabled]
    rw [exec_portFaultTimer, faultTimer_due hx hst hdue, if_neg hup]
  case down =>
    rintro s t p x u rfl hx hoff
    have hdown : (x.held || !portEnabled (advance t s) p) = true := by simpa using hoff
    refine ⟨fun hst hdue => ?_, fun hst hdue => ?_⟩
    · rw [exec_portCharged, portCharge_due hx hst hdue, if_pos hdown]
    · rw [exec_portFaultTimer, faultTimer_due hx hst hdue, if_pos hdown]
  case sweepDue =>
    rintro s t p x u rfl hx hst hfresh hdue
    rw [exec_statusSweepDue, sweepDueAt_due hx hst hfresh hdue]
  case authDue =>
    rintro s t p i x y u rfl hx hy hst hfresh hauthed hdue hwants honly
    rw [exec_authDue, authDueAt_due hx hy hst hfresh hauthed hdue]
    refine congrArg (fun v => Host.Outcome.next (background (serveAll v))) (modPort_congr fun z hz hnum => ?_)
    simp [honly z hz hnum, hwants]
  case stale =>
    rintro s t p x u rfl hx hst hstale hseries hdue
    rw [exec_staleSlateRetry, staleRetry_due hx hst hstale hseries hdue]
  case pauseTake =>
    rintro s t p x since u rfl hx hact hdue
    rw [exec_takeRetry, retryTake_pauseTake hx hact hdue]
  case pauseExch =>
    rintro s t p x e since u rfl hx hact hdue
    rw [exec_takeRetry, retryTake_pauseExch hx hact hdue]
  case pauseSweep =>
    rintro s t p x earlier since u rfl hx hact hdue
    rw [exec_sweepRepeat, repeatSweep_pauseSweep hx hact hdue]
  case overcurrent =>
    rintro s t p x u v rfl hx hst hheld henabled hfew hv
    rw [exec_overcurrent, overcurrentAt_faults hx hst hheld henabled hfew hv]

/-! ### Slates (R215, R231) -/

theorem exec_assignAnswer (t p : Nat) (up : Uplink) (s : State) :
    exec (.assignAnswer t p up) s = .next (background (assignAnswered p up (advance t s))) := rfl

theorem exec_statusAnswer (t p : Nat) (up : Uplink) (presence : List Nat) (s : State) :
    exec (.statusAnswer t p up presence) s = .next (background (statusEnded p up presence (advance t s))) := rfl

section
variable {p n : Nat} {up : Uplink} {s : State}

/-- An ASSIGN answered DONE, with a position left, is followed by the next one. -/
theorem assignEnded_done {bs : List Byte} (hanswer : readAnswer 3 up = .ok bs) (hdone : fieldAt bs 0 1 = 0) (hleft : n + 1 < 16) :
    assignEnded p n up s = setAct p (.assign (n + 1)) (sendTx p [⟨false, 0, frameOf 0x12 (n + 2) []⟩] (markAnswer p 4 3 up s)) := by
  have hstatus : ¬fieldAt bs 0 1 ≠ 0 := not_not_intro hdone
  simp only [assignEnded, hanswer, if_neg hstatus, if_pos hleft]

/-- An ASSIGN that is not answered ends the loop: the confirming sweep follows. -/
theorem assignEnded_silent (hanswer : readAnswer 3 up = .error .silent) :
    assignEnded p n up s = setAct p (.confirm n) (sendTx p [⟨false, statusTrigger, []⟩] (markAnswer p 4 3 up s)) := by
  simp only [assignEnded, hanswer]

/-- A confirming sweep with every position GOOD and closed and a silent presence slot wins the take. -/
theorem confirmEnded_wins {presence : List Nat} (hgood : confirmError n up = none)
    (hsilent : (readSweep n up presence).presence = 1) (hstays : isLeaving s p = false) :
    confirmEnded p n up presence s = takeWon p n false s := by
  have hstays : ¬isLeaving s p = true := Bool.eq_false_iff.mp hstays
  simp only [confirmEnded, hgood, hsilent, if_neg hstays]

end

section
variable {p : Nat} {x : Port} {up : Uplink} {s : State} (hx : findPort s p = some x)
include hx

theorem assignAnswered_assign {n : Nat} (hact : x.act = .assign n) : assignAnswered p up s = assignEnded p n up s := by
  simp only [assignAnswered, hx, hact]

theorem statusEnded_confirm {n : Nat} {presence : List Nat} (hact : x.act = .confirm n) :
    statusEnded p up presence s = confirmEnded p n up presence (noteSlots p n up (sendMarks p 3 n true s)) := by
  simp only [statusEnded, hx, hact]

theorem statusEnded_sweep {earlier : List SweepRes} {presence : List Nat} (hact : x.act = .sweep earlier) :
    statusEnded p up presence s =
      sweepRead p earlier (readSweep x.n up presence) (noteSlots p x.n up (sendMarks p 3 x.n true s)) := by
  simp only [statusEnded, hx, hact]

end

/-! ### Sweeps (R240) -/

section
variable {p : Nat} {earlier : List SweepRes} {r : SweepRes} {s v : State} (hv : v = noteAgain p r s)
  (hstays : isLeaving v p = false)
include hv hstays

/-- A sweep that is all GOOD with a silent presence slot, the first or one like that before it, ends the series: only
identifications that are owed follow. -/
theorem sweepRead_quiet (hgood : (r.slots.all fun c => c == 0) = true) (hsilent : r.presence = 1)
    (hearlier : earlier = [] ∨ ∃ older, earlier = r :: older) : sweepRead p earlier r s = againFrom p 1 v := by
  have hquiet : quietSweep r = true := by simp [quietSweep, hgood, hsilent]
  rcases hearlier with rfl | ⟨older, rfl⟩ <;> simp [sweepRead, ← hv, hstays, hsilent, hquiet]

/-- Where no tag has joined the chain's end, a first sweep that is not quiet is followed by a second. -/
theorem sweepRead_second (hend : (r.slots.all fun c => c == 0) = true → r.presence ≠ 0) (hloud : quietSweep r = false) :
    sweepRead p [] r s = startSweep p [r] v := by
  have hend : ((r.slots.all fun c => c == 0) && r.presence == 0) = false := by simpa using hend
  simp [sweepRead, ← hv, hstays, hend, hloud]

/-- Where no tag has joined the chain's end, a second sweep that differs from the first is followed by a third. -/
theorem sweepRead_third {last : SweepRes} (hend : (r.slots.all fun c => c == 0) = true → r.presence ≠ 0) (hdiffer : r ≠ last) :
    sweepRead p [last] r s = startSweep p [r, last] v := by
  have hend : ((r.slots.all fun c => c == 0) && r.presence == 0) = false := by simpa using hend
  simp [sweepRead, ← hv, hstays, hend, hdiffer]

end

/-- Settles O42: two ends of an ASSIGN, the confirming sweep that wins, and the periodic sweep that is quiet or asks for another. Which
sweeps are followed by another is notes/assumptions/28.md. -/
theorem slatesAndSweepsComplete : Obligations.SlatesAndSweepsComplete := by
  refine ⟨?assigned, ?silent, ?won, ?quiet, ?another⟩
  case assigned =>
    rintro s t p up x n bs u v rfl hx hact hanswer hdone hleft rfl
    rw [exec_assignAnswer, assignAnswered_assign hx hact, assignEnded_done hanswer hdone hleft]
  case silent =>
    rintro s t p up x n u v rfl hx hact hanswer rfl
    rw [exec_assignAnswer, assignAnswered_assign hx hact, assignEnded_silent hanswer]
  case won =>
    rintro s t p up presence x n u v rfl hx hact rfl hgood hsilent hstays
    rw [exec_statusAnswer, statusEnded_confirm hx hact, confirmEnded_wins hgood hsilent hstays]
  case quiet =>
    rintro s t p up presence x earlier r u v rfl hx hact rfl hv hstays hgood hsilent hearlier
    rw [exec_statusAnswer, statusEnded_sweep hx hact, sweepRead_quiet hv hstays hgood hsilent hearlier]
  case another =>
    rintro s t p up presence x earlier r u v rfl hx hact rfl hv hstays hend (⟨rfl, hloud⟩ | ⟨last, rfl, hdiffer⟩)
    · rw [exec_statusAnswer, statusEnded_sweep hx hact, sweepRead_second hv hstays hend hloud]
    · rw [exec_statusAnswer, statusEnded_sweep hx hact, sweepRead_third hv hstays hend hdiffer]

end Sys2Proof.Machine
end

section
/-!
PROOFS. The statements of spec/09_halyard_chains.md on tags: the CRC-8 of side messages, the tag and port operations, and the exchanges
with a tag.
-/
namespace Sys2Proof.Machine

open Sys2Proof.Safety

/-! ### The CRC-8 of side messages (R253) -/

/-- One more byte takes the CRC on by eight bits. -/
theorem crc8_append_singleton (bs : List Byte) (d : Byte) : crc8 (bs ++ [d]) = crc8Steps 8 (Nat.xor (crc8 bs) d.toNat) := by
  simp only [crc8, List.foldl_append, List.foldl_cons, List.foldl_nil]

/-- Settles O59: the CRC of nothing, that of one more byte, each bit of a byte, and the check value. -/
theorem crc8IsThatOfTheSpec : Obligations.Crc8IsThatOfTheSpec :=
  ⟨fun bs d => ⟨rfl, crc8_append_singleton bs d⟩, fun _ _ => ⟨rfl, rfl⟩, by decide +kernel⟩

/-! ### Tag and port operations at their dispatch (R255-R259) -/

section
variable {op : Op} {x : Port} {s : State} (hx : findPort s (opPort op) = some x)
include hx

section
variable {y : Pos} (hepoch : staleEpoch op x = false) (hpresent : tagAbsent op x = false) (hy : findPos x (opPos op) = some y)
include hepoch hpresent hy

/-- TAG_READ of a tag that is there. -/
theorem tagReadRun_tagRead (hop : op.opcode = 0x33) :
    tagReadRun op s = complete op .ok (BitVec.zeroExtend 64 x.epoch) (BitVec.ofNat 64 (mirrorFor y 0 s).count) false
      (writeHost op.c.toNat (tagBuffer s x y) s) := by
  simp [tagReadRun, hx, hepoch, hpresent, hy, hop]

/-- TAG_SIDE of a tag whose last side message is held. -/
theorem tagReadRun_tagSide_held {payload : List Byte} {time : Nat} (hop : op.opcode = 0x34) (hside : y.side = some (payload, time)) :
    tagReadRun op s = complete op .ok (BitVec.ofNat 64 (leNat payload)) (BitVec.ofNat 64 time) false s := by
  simp [tagReadRun, hx, hepoch, hpresent, hy, hop, hside]

/-- TAG_SIDE of a tag that has sent no side message. -/
theorem tagReadRun_tagSide_none (hop : op.opcode = 0x34) (hside : y.side = none) :
    tagReadRun op s = complete op .ok 0 0 false s := by
  simp [tagReadRun, hx, hepoch, hpresent, hy, hop, hside]

end

/-- An operation but PORT_POWER that joins no series takes its place in the port's queue. -/
theorem portRun_queues (hpower : op.opcode ≠ 0x35) (hserved : ¬(op.opcode = 0x30 ∧ (x.series.isSome ∨ x.wanted.isSome))) :
    portRun op s = serveAll (modPort (opPort op) (fun y => { y with queue := y.queue ++ [op.id] }) (setOpSt op.id .queued s)) := by
  simp only [portRun, hx, if_neg hserved, hpower, false_and, if_false]

/-- HY_SLATE joins a series that runs or is wanted. -/
theorem portRun_joins (hop : op.opcode = 0x30) (hseries : x.series.isSome ∨ x.wanted.isSome) :
    portRun op s = wantSeries (opPort op) .host 0 [op.id] (setOpSt op.id .serving s) := by
  simp only [portRun, hx, if_pos (And.intro hop hseries)]

/-- PORT_POWER on a port with nothing before it takes effect at once. -/
theorem portRun_portPower (hop : op.opcode = 0x35) (hqueue : x.queue = []) (hact : x.act = .idle) (hstays : x.leaving = false) :
    portRun op s = serveAll (applyPower op (opPort op) s) := by
  have hidle : actOp x.act = [] := by rw [hact]; rfl
  simp [portRun, hx, hop, hqueue, hidle, hstays]

end

/-- Settles O9: each operation past its checks, HY_SLATE with and without a series to join. That it joins, and that PORT_POWER has its
place in the port's queue, is notes/assumptions/24.md. -/
theorem halyardOperationsComplete : Obligations.HalyardOperationsComplete := by
  refine ⟨?tagRead, ?tagSide, ?tagAuth, ?tagConsume, ?hySlate, ?portPower⟩
  case tagRead =>
    rintro s t k op x y u rfl hd hg hx hepoch hpresent hy
    have ⟨_, hop, _⟩ := hd
    rw [exec_dispatched (c := .tagRead t k) rfl hd, effectOf, runTagRead, gated_passed hg,
      tagReadRun_tagRead hx hepoch hpresent hy (hasCode_opcode hop)]
  case tagSide =>
    rintro s t k op x y u rfl hd hg hx hepoch hpresent hy
    have ⟨_, hop, _⟩ := hd
    rw [exec_dispatched (c := .tagSide t k) rfl hd, effectOf, runTagRead, gated_passed hg]
    rcases hside : y.side with _ | ⟨payload, time⟩
    · rw [tagReadRun_tagSide_none hx hepoch hpresent hy (hasCode_opcode hop) hside]
    · rw [tagReadRun_tagSide_held hx hepoch hpresent hy (hasCode_opcode hop) hside]
  case tagAuth =>
    rintro s t k op x u rfl hd hg hx
    have ⟨_, hop, _⟩ := hd
    have hcode := hasCode_opcode hop
    rw [exec_dispatched (c := .tagAuth t k) rfl hd, effectOf, runPort, gated_passed hg,
      portRun_queues hx (by simp [hcode]) (by simp [hcode])]
  case tagConsume =>
    rintro s t k op x u rfl hd hg hx
    have ⟨_, hop, _⟩ := hd
    have hcode := hasCode_opcode hop
    rw [exec_dispatched (c := .tagConsume t k) rfl hd, effectOf, runPort, gated_passed hg,
      portRun_queues hx (by simp [hcode]) (by simp [hcode])]
  case hySlate =>
    rintro s t k op x u rfl hd hg hx
    have ⟨_, hop, _⟩ := hd
    have hcode := hasCode_opcode hop
    rw [exec_dispatched (c := .hySlate t k) rfl hd, effectOf, runPort, gated_passed hg]
    by_cases hseries : x.series.isSome ∨ x.wanted.isSome
    · rw [if_pos hseries, portRun_joins hx hcode hseries]
    · rw [if_neg hseries, portRun_queues hx (by simp [hcode]) fun h => hseries h.2]
  case portPower =>
    rintro s t k op x u rfl hd hg hx hqueue hact hstays
    have ⟨_, hop, _⟩ := hd
    rw [exec_dispatched (c := .portPower t k) rfl hd, effectOf, runPort, gated_passed hg,
      portRun_portPower hx (hasCode_opcode hop) hqueue hact hstays]

/-! ### The answers of an exchange (R233, R239, R243, R248, R250, R257) -/

theorem exec_selectAnswer (t p : Nat) (up : Uplink) (s : State) :
    exec (.selectAnswer t p up) s = .next (background (answerOf .select p up (advance t s))) := rfl

theorem exec_identityAnswer (t p : Nat) (up : Uplink) (s : State) :
    exec (.identityAnswer t p up) s = .next (background (answerOf .identity p up (advance t s))) := rfl

theorem exec_authAnswer (t p : Nat) (up : Uplink) (s : State) :
    exec (.authAnswer t p up) s = .next (background (answerOf .auth p up (advance t s))) := rfl

theorem exec_readLimitAnswer (t p : Nat) (up : Uplink) (s : State) :
    exec (.readLimitAnswer t p up) s = .next (background (answerOf .readLimit p up (advance t s))) := rfl

theorem exec_consumeAnswer (t p : Nat) (up : Uplink) (s : State) :
    exec (.consumeAnswer t p up) s = .next (background (answerOf .consume p up (advance t s))) := rfl

/-- The marks of an answer take no time and touch no family key. -/
@[simp] theorem markAnswer_clk (p gap n : Nat) (up : Uplink) (s : State) : (markAnswer p gap n up s).clk = s.clk := rfl
@[simp] theorem markAnswer_families (p gap n : Nat) (up : Uplink) (s : State) :
    (markAnswer p gap n up s).hyc.families = s.hyc.families := rfl

section
variable {p : Nat} {x : Port} {e : Exch} {kind : XKind} {up : Uplink} {bs : List Byte} {s v : State}
  (hx : findPort s p = some x) (hact : x.act = .exch e) (hkind : e.kind = kind)
  (hv : v = markAnswer p (answerGap e.kind) (answerLength e.kind) up s)
include hx hact hkind hv

/-- An answer that the line spoils fails the exchange. -/
theorem answerOf_spoiled {err : LineRes} (hread : readAnswer (answerLength kind) up = .error err) :
    answerOf kind p up s = failExch p e v := by
  subst hv hkind
  simp only [answerOf, hx, hact, exchAnswer, hread, if_true]

/-- An IDENTITY that is read names the tag. -/
theorem answerOf_identity (hidentity : kind = .identity) (hread : readAnswer (answerLength kind) up = .ok bs) :
    answerOf kind p up s =
      identified p e (BitVec.ofNat 64 (fieldAt bs 0 8)) (BitVec.ofNat 16 (fieldAt bs 8 2)) (BitVec.ofNat 8 (fieldAt bs 10 1)) v := by
  subst hv hkind
  simp only [answerOf, hx, hact, exchAnswer, hread, if_true, if_pos hidentity]

/-- An answer but that of IDENTITY whose status is DONE. -/
theorem answerOf_done (hidentity : kind ≠ .identity) (hread : readAnswer (answerLength kind) up = .ok bs)
    (hdone : fieldAt bs 0 1 = 0) : answerOf kind p up s = answerDone p e bs v := by
  subst hv hkind
  simp only [answerOf, hx, hact, exchAnswer, hread, if_true, if_neg hidentity, hdone]

end

section
variable {p : Nat} {e : Exch} {s : State}

/-- An IDENTITY of model 0x02 whose family key is loaded: the tag's key is derived, and AUTH follows. -/
theorem identified_keyed {serial : W64} {family : W16} {fk : W128}
    (hfamily : (s.hyc.families.find? fun f => f.1 == family.toNat) = some (family.toNat, fk)) :
    identified p e serial family 2 s = nextExch p (newExch .auth e.pos e.why)
      (modPos p e.pos (fun y => { y with key := tagKey fk serial family })
        (modPos p e.pos (fun y => { y with
          known := true, serial := serial, family := family, model := 2
          history := (keptFrom s p e.pos serial).1, side := (keptFrom s p e.pos serial).2 }) s)) := by
  simp only [identified, ne_eq, not_true_eq_false, if_false, hfamily]

/-- The first MAC that is wrong repeats the exchange at once. -/
theorem badMac_first (hfirst : e.fails = 0) : badMac p e s = nextExch p { e with fails := 1 } s := if_pos hfirst

/-- An exchange of a slate that fails before its fourth take pauses, on a port that stays ON. -/
theorem failExch_slate (hwhy : e.why = .slate) (htake : e.take < 4) (hstays : isLeaving s p = false) :
    failExch p e s = setAct p (.pauseExch { e with take := e.take + 1 } s.clk.now) s := by
  have hstays : ¬isLeaving s p = true := Bool.eq_false_iff.mp hstays
  simp only [failExch, hwhy, if_pos htake, pauseAct, if_neg hstays]

section
variable {y : Pos} {bs : List Byte} (hy : posAt s p e.pos = some y)
include hy

theorem answerDone_select (hkind : e.kind = .select) :
    answerDone p e bs s = nextExch p { e with kind := .identity, take := 1 } s := by
  simp only [answerDone, hy, hkind]

/-- An AUTH counts where its MAC is the tag's, else the exchange has a bad MAC. -/
theorem answerDone_auth (hkind : e.kind = .auth) :
    answerDone p e bs s =
      if (bs.drop 5).take 8 = authMac e.key e.challenge y.serial (fieldAt bs 1 4) then offerGain p e (.count (fieldAt bs 1 4)) s
      else badMac p e s := by
  simp only [answerDone, hy, hkind]

/-- A READ_LIMIT outside an identification counts where its MAC is the tag's. -/
theorem answerDone_readLimit (hkind : e.kind = .readLimit) (hproved : e.proved = none)
    (hmac : (bs.drop 5).take 8 = limitMac e.key e.challenge y.serial (fieldAt bs 1 4)) :
    answerDone p e bs s = offerGain p e (.limit (fieldAt bs 1 4)) s := by
  simp only [answerDone, hy, hkind, if_pos hmac, hproved]

/-- A CONSUME counts where its MAC is the tag's and the count rose by exactly what was asked. -/
theorem answerDone_consume (hkind : e.kind = .consume) (hrise : fieldAt bs 5 4 = fieldAt bs 1 4 + consumeN s e)
    (hmac : (bs.drop 9).take 8 =
      consumeMac e.key e.challenge y.serial (consumeN s e) (fieldAt bs 1 4) (fieldAt bs 1 4 + consumeN s e)) :
    answerDone p e bs s = offerGain p e (.count (fieldAt bs 1 4 + consumeN s e)) s := by
  simp only [answerDone, hy, hkind, hrise, if_pos hmac, if_true]

end

end

/-- Settles O43: one clause per kind of answer that counts, an AUTH that the line spoils, and an AUTH with its first wrong MAC. -/
theorem exchangesCompleteOrAreRepeated : Obligations.ExchangesCompleteOrAreRepeated := by
  refine ⟨?select, ?identity, ?auth, ?readLimit, ?consume, ?spoiled, ?badMac⟩
  case select =>
    rintro s t p up x e y bs u v rfl hx hact hkind hv hread hdone hy
    rw [exec_selectAnswer, answerOf_done hx hact hkind hv (by decide) hread hdone, answerDone_select hy hkind]
  case identity =>
    rintro s t p up x e bs fk u v serial family rfl hx hact hkind hv hread rfl rfl hmodel hfamily
    rw [← markAnswer_families p (answerGap e.kind) (answerLength e.kind) up, ← hv] at hfamily
    rw [exec_identityAnswer, answerOf_identity hx hact hkind hv rfl hread, hmodel]
    exact congrArg (fun w => Host.Outcome.next (background w)) (identified_keyed hfamily)
  case auth =>
    rintro s t p up x e y bs c u v rfl hx hact hkind hv hread hdone hy rfl hmac
    rw [exec_authAnswer, answerOf_done hx hact hkind hv (by decide) hread hdone, answerDone_auth hy hkind, if_pos hmac]
  case readLimit =>
    rintro s t p up x e y bs lim u v rfl hx hact hkind hv hread hdone hy rfl hmac hproved
    rw [exec_readLimitAnswer, answerOf_done hx hact hkind hv (by decide) hread hdone, answerDone_readLimit hy hkind hproved hmac]
  case consume =>
    rintro s t p up x e y bs n old u v rfl hx hact hkind hv hread hdone hy rfl rfl hrise hmac
    rw [exec_consumeAnswer, answerOf_done hx hact hkind hv (by decide) hread hdone, answerDone_consume hy hkind hrise hmac]
  case spoiled =>
    rintro s t p up x e err u v rfl hx hact hkind hv hwhy hread htake hstays
    rw [exec_authAnswer, answerOf_spoiled hx hact hkind hv hread, failExch_slate hwhy htake hstays, hv, markAnswer_clk]
  case badMac =>
    rintro s t p up x e y bs u v rfl hx hact hkind hv hread hdone hy hmac hfirst
    rw [exec_authAnswer, answerOf_done hx hact hkind hv (by decide) hread hdone, answerDone_auth hy hkind, if_neg hmac,
      badMac_first hfirst]

end Sys2Proof.Machine
end

section
/-!
PROOFS. The statements of spec/10_random.md: the DRBG operations, the noise sources, and the way of seed entries from the sources to
those that wait for them.
-/
namespace Sys2Proof.Machine

open Sys2Proof.Safety

/-! ### DRBG operations at their dispatch (R269, R278-R282) -/

section
variable {op : Op} {e : W384} {s : State}

/-- A DRBG operation that passes its checks takes effect, and READY.RANDOM follows. -/
theorem runDrbg_passed (hg : drbgGate op s = none) : runDrbg op s = updateRandom (drbgRun op s) := by
  rw [runDrbg, gated_passed hg]

/-- DRBG_INSTANTIATE is not refused while 256 are not reached and its domain's quota is not used up. -/
theorem drbgRefusal_instantiate (hop : op.opcode = 0x41) (hroom : drbgFull s op.domain = false) : drbgRefusal op s = none := by
  simp [drbgRefusal, hop, hroom]

section
variable {d : Drbg} (hd : findDrbg s op.obj = some d)
include hd

/-- An operation on a DRBG of its own domain is not refused. -/
theorem drbgRefusal_own (hop : op.opcode ≠ 0x41) (hdom : d.domain = op.domain) : drbgRefusal op s = none := by
  simp [drbgRefusal, hop, hd, hdom]

/-- DRBG_GENERATE without prediction resistance goes on from the DRBG's working state. -/
theorem drbgRun_generate (hop : op.opcode = 0x42) (hdom : d.domain = op.domain) (hplain : op.a.getLsbD 13 = false)
    (hreq : d.requests < 2 ^ 48) :
    drbgRun op s = generate op d d.state (drbgInput op s) (d.requests + 1) false s := by
  have hwants : wantsEntropy op = false := by rw [wantsEntropy, hop, hplain]; rfl
  have hcode : op.opcode ≠ 0x44 := by simp [hop]
  simp only [drbgRun, drbgRefusal_own hd (by simp [hop]) hdom, hwants, hd, if_neg hcode, if_neg (Nat.not_le.mpr hreq),
    Bool.false_eq_true, if_false]

/-- DRBG_UNINSTANTIATE frees the number and drops the reseed that was due to it. -/
theorem drbgRun_uninstantiate (hop : op.opcode = 0x44) (hdom : d.domain = op.domain) :
    drbgRun op s = complete op .ok 0 0 false { s with drb := { s.drb with
      instances := s.drb.instances.filter fun x => x.num != d.num
      freed := s.drb.freed ++ [(d.num, d.inc)]
      autoOrder := s.drb.autoOrder.filter fun m => m != d.num } } := by
  have hwants : wantsEntropy op = false := by rw [wantsEntropy, hop]; rfl
  simp only [drbgRun, drbgRefusal_own hd (by simp [hop]) hdom, hwants, hd, if_pos hop, Bool.false_eq_true, if_false]

/-- DRBG_RESEED with its entry. -/
theorem drbgWithEntry_reseed (hop : op.opcode = 0x43) {w : State} (hw : w = modDrbg d.num (fun x => { x with auto := false }) s) :
    drbgWithEntry op e s = complete op .ok (BitVec.ofNat 64 (d.reseeds + 1)) 0 false (modDrbg d.num (fun x =>
      { x with state := drbgReseed d.state e (drbgInput op s), requests := 0, reseeds := x.reseeds + 1 })
      { w with drb := { w.drb with autoOrder := s.drb.autoOrder.filter fun m => m != d.num } }) := by
  rw [drbgWithEntry, if_neg (by simp [hop]), hd, hw]
  exact if_pos hop

end

/-- DRBG_INSTANTIATE with its entry. -/
theorem drbgWithEntry_instantiate {n inc : Nat} {w : State} (hop : op.opcode = 0x41) (htake : takeInstance s = some (n, inc, w)) :
    drbgWithEntry op e s = complete op .ok (BitVec.ofNat 64 (n + 256 * inc)) 0 false { w with drb := { w.drb with
      instances := insertBy (fun x => x.num) ⟨n, inc, op.domain, drbgInstantiate e (drbgInput op s), 0, 0, false⟩
        w.drb.instances } } := by
  rw [drbgWithEntry, if_pos hop, htake]
  rfl

/-- The first host operation that waits takes the first class S entry, where no internal DRBG wants it. -/
theorem serveHost_gives_entry {k : Nat} {waiting : List Nat} {rest : List W384} (n : Nat) (hwait : s.nsu.waitS = k :: waiting)
    (hfound : findOp s k = some op) (hallowed : drbgRefusal op s = none) (hinternal : internalWantsS s = false)
    (hqueue : s.nsu.queueS = e :: rest) :
    serveHost (n + 1) s = serveHost n (drbgWithEntry op e { s with nsu := { s.nsu with queueS := rest } }) := by
  simp only [serveHost, hwait, hfound, hallowed, hinternal, hqueue, Bool.false_eq_true, if_false]

/-- An operation that waits alone for a class S entry, once its entry has left `rest` in the queue. -/
def withEntryTaken (op : Op) (rest : List W384) (s : State) : State :=
  { setOpSt op.id (.random s.clk.now) s with nsu := { s.nsu with waitS := [op.id], queueS := rest } }

section
variable {rest : List W384} (hfound : findOp s op.id = some op) (hwait : s.nsu.waitS = []) (hinternal : internalWantsS s = false)
  (hqueue : s.nsu.queueS = e :: rest)
include hfound hwait hinternal hqueue

/-- With nobody before it, an operation that asks for entropy takes the first class S entry at once. -/
theorem drbgRun_takes_entry (hallowed : drbgRefusal op s = none) (hwants : wantsEntropy op = true) :
    drbgRun op s = drbgWithEntry { op with st := .random s.clk.now } e (withEntryTaken op rest s) := by
  have hwaits : findOp (setOpSt op.id (.random s.clk.now) s) op.id = some { op with st := .random s.clk.now } := by
    simp [findOp_setOpSt, hfound]
  simp only [drbgRun, hallowed, hwants, hwait, if_true]
  exact serveHost_gives_entry 0 rfl hwaits hallowed hinternal hqueue

/-- DRBG_INSTANTIATE with an entry at hand. -/
theorem drbgRun_instantiate {n inc : Nat} {w : State} (hop : op.opcode = 0x41) (hroom : drbgFull s op.domain = false)
    (htake : takeInstance (withEntryTaken op rest s) = some (n, inc, w)) :
    drbgRun op s = complete { op with st := .random s.clk.now } .ok (BitVec.ofNat 64 (n + 256 * inc)) 0 false
      { w with drb := { w.drb with
          instances := insertBy (fun x => x.num) ⟨n, inc, op.domain, drbgInstantiate e (drbgInput op s), 0, 0, false⟩
            w.drb.instances } } := by
  have hwants : wantsEntropy op = true := by rw [wantsEntropy, hop]; rfl
  rw [drbgRun_takes_entry hfound hwait hinternal hqueue (drbgRefusal_instantiate hop hroom) hwants]
  exact drbgWithEntry_instantiate (op := { op with st := .random s.clk.now }) hop htake

/-- DRBG_RESEED with an entry at hand. -/
theorem drbgRun_reseed {d : Drbg} {w : State} (hop : op.opcode = 0x43) (hd : findDrbg s op.obj = some d)
    (hdom : d.domain = op.domain) (hw : w = modDrbg d.num (fun x => { x with auto := false }) (withEntryTaken op rest s)) :
    drbgRun op s = complete { op with st := .random s.clk.now } .ok (BitVec.ofNat 64 (d.reseeds + 1)) 0 false
      (modDrbg d.num (fun x =>
        { x with state := drbgReseed d.state e (drbgInput op s), requests := 0, reseeds := x.reseeds + 1 })
        { w with drb := { w.drb with autoOrder := s.drb.autoOrder.filter fun m => m != d.num } }) := by
  have hwants : wantsEntropy op = true := by rw [wantsEntropy, hop]; rfl
  rw [drbgRun_takes_entry hfound hwait hinternal hqueue (drbgRefusal_own hd (by simp [hop]) hdom) hwants]
  exact drbgWithEntry_reseed (op := { op with st := .random s.clk.now }) (s := withEntryTaken op rest s) hd hop hw

end

end

/-- Settles O10: the two operations that take an entry find it at hand and wait for nobody; the two that take none act at once. The
functions of CTR_DRBG are those of notes/assumptions/5.md. -/
theorem drbgOperationsComplete : Obligations.DrbgOperationsComplete := by
  refine ⟨?instantiate, ?generate, ?reseed, ?uninstantiate⟩
  case instantiate =>
    rintro s t k hw op n inc e rest d u w rfl hd hg hroom hwait hinternal hqueue htake rfl
    have ⟨hfound, hop, _⟩ := hd
    obtain rfl := findOp_id hfound
    rw [exec_of_dispatched (c := .drbgInstantiate t op.id hw) rfl hd, effectOf, runDrbg_passed hg,
      drbgRun_instantiate hfound hwait hinternal hqueue (hasCode_opcode hop) hroom htake]
  case generate =>
    rintro s t k hw op d u rfl hd hg hfind hdom hplain hreq
    have ⟨_, hop, _⟩ := hd
    rw [exec_of_dispatched (c := .drbgGenerate t k hw) rfl hd, effectOf, runDrbg_passed hg,
      drbgRun_generate hfind (hasCode_opcode hop) hdom hplain hreq]
  case reseed =>
    rintro s t k hw op d e rest u w rfl hd hg hfind hdom hwait hinternal hqueue hmod
    have ⟨hfound, hop, _⟩ := hd
    obtain rfl := findOp_id hfound
    rw [exec_of_dispatched (c := .drbgReseed t op.id hw) rfl hd, effectOf, runDrbg_passed hg,
      drbgRun_reseed hfound hwait hinternal hqueue (hasCode_opcode hop) hfind hdom hmod]
  case uninstantiate =>
    rintro s t k op d u rfl hd hg hfind hdom
    have ⟨_, hop, _⟩ := hd
    rw [exec_dispatched (c := .drbgUninstantiate t k) rfl hd, effectOf, runDrbg_passed hg,
      drbgRun_uninstantiate hfind (hasCode_opcode hop) hdom]

/-! ### Commands of NSU and DRB -/

section
variable (t : Nat) (s : State)

theorem exec_nsuSettleDone : exec (.nsuSettleDone t) s = .next (settleDone (advance t s)) := rfl

theorem exec_sourceStartupTestDone (src : Nat) (alarms : List Nat) :
    exec (.sourceStartupTestDone t src alarms) s = .next (nsuThen (endStartupTest src alarms) (advance t s)) := rfl

theorem exec_healthTestAlarm (src : Nat) (test : HealthTest) (count sample : Nat) :
    exec (.healthTestAlarm t src test count sample) s = .next (nsuThen (healthAlarm src test count sample) (advance t s)) := rfl

theorem exec_aptWindowClose (src : Nat) : exec (.aptWindowClose t src) s = .next (nsuThen (closeAptWindow src) (advance t s)) := rfl

theorem exec_entryWindowBoundary (classS : Bool) (samples : List (Nat × Nat)) :
    exec (.entryWindowBoundary t classS samples) s = .next (nsuThen (windowBoundary classS samples) (advance t s)) := rfl

theorem exec_sourceExchange : exec (.sourceExchange t) s = .next (nsuThen exchangeSource (advance t s)) := rfl

theorem exec_internalDrbgReseed (i : Nat) : exec (.internalDrbgReseed t i) s = .next (serveSeeds (askReseed i (advance t s))) := rfl

theorem exec_drbgAutoReseed : exec (.drbgAutoReseed t) s = .next (autoReseed (advance t s)) := rfl

end

/-- What NSU does while it is powered. -/
theorem nsuThen_powered {s : State} (f : State → State) (h : s.nsu.powered = true) : nsuThen f s = background (f s) := if_pos h

/-! ### Settling, start-up tests and alarms (R264, R265, R271, R273, R276) -/

/-- Alarms of an empty list count for nothing. -/
theorem modSource_countAlarms_nil (n cost : Nat) (s : State) : modSource n (countAlarms [] cost) s = s := by
  have hid : modWhere (fun x => x.code == n) (countAlarms [] cost) s.nsu.sources = s.nsu.sources := by
    simp [modWhere, countAlarms]
  rw [modSource, hid]

section
variable {src : Nat} {x : Source} {s : State}

section
variable {since : Nat} (hsettling : s.nsu.settling = some since)
include hsettling

/-- Settling ends once its time has passed. -/
theorem settleDone_due (hdue : since + 1572864 ≤ s.clk.now) :
    settleDone s = { s with nsu := { s.nsu with settling := none } } := by
  simp only [settleDone, hsettling]
  exact if_pos hdue

/-- Settling goes on until its time has passed. -/
theorem settleDone_early (hearly : s.clk.now < since + 1572864) : settleDone s = s := by
  simp only [settleDone, hsettling]
  exact if_neg (Nat.not_le.mpr hearly)

end

/-- A source that passes its start-up test joins its class, unless class S is held for the tests of its other sources. -/
theorem passStartup_joins (hheld : (s.nsu.heldS && isClassS src) = false) : passStartup src s = updateRandom (joinClass src s) := by
  simp only [passStartup, hheld, Bool.false_eq_true, if_false]

/-- While class S is held, a source of it that passes waits in STARTING until all are released together. -/
theorem passStartup_held (hheld : s.nsu.heldS = true) (hclass : isClassS src = true) :
    passStartup src s = updateRandom (releaseS (modSource src (fun z => { z with second := false, passed := true }) s)) := by
  simp only [passStartup, hheld, hclass, Bool.and_self, if_true]

section
variable (hx : findSource s src = some x)
include hx

/-- A source that joins its class drops what it left untested, and is ACTIVE where the class needs it. -/
theorem joinClass_found :
    joinClass src s = modSource src (fun z => { z with
      st := if roleNeeds s src then .active else .spare, second := false, wasActive := false, passed := false
      from_ := nextWindow src s, lastPass := max z.lastPass (s.clk.now / aptWindow src * aptWindow src) })
      { s with nsu := { s.nsu with pending := s.nsu.pending.filter fun p => !holdsUntested x p } } := by
  simp only [joinClass, hx]
  rfl

section
variable (hst : x.st = .starting) (hpassed : x.passed = false) (hsettled : s.nsu.settling = none)
include hst hpassed hsettled

/-- The end of a start-up test: passed without an alarm, else failed where it was the second, else the second begins. -/
theorem endStartupTest_starting (alarms : List Nat) :
    endStartupTest src alarms s = if alarms = [] then passStartup src (modSource src (countAlarms alarms 0) s)
      else if x.second then failStartup (countAlarms alarms 0 x) (dropUntested x (modSource src (countAlarms alarms 0) s))
      else modSource src (fun z => { z with second := true }) (dropUntested x (modSource src (countAlarms alarms 0) s)) := by
  simp only [endStartupTest, hx]
  rw [if_neg (by simp [hst, hpassed, hsettled])]

/-- A start-up test without an alarm is passed. -/
theorem endStartupTest_passes : endStartupTest src [] s = passStartup src s := by
  rw [endStartupTest_starting hx hst hpassed hsettled, if_pos rfl, modSource_countAlarms_nil]

/-- An alarm in the first start-up test begins the second. -/
theorem endStartupTest_again {alarms : List Nat} (hfirst : x.second = false) (halarms : alarms ≠ []) :
    endStartupTest src alarms s =
      modSource src (fun z => { z with second := true }) (dropUntested x (modSource src (countAlarms alarms 0) s)) := by
  rw [endStartupTest_starting hx hst hpassed hsettled, if_neg halarms, hfirst]
  rfl

/-- An alarm in the second start-up test fails the source. -/
theorem endStartupTest_fails {alarms : List Nat} (hsecond : x.second = true) (halarms : alarms ≠ []) :
    endStartupTest src alarms s =
      failStartup (countAlarms alarms 0 x) (dropUntested x (modSource src (countAlarms alarms 0) s)) := by
  rw [endStartupTest_starting hx hst hpassed hsettled, if_neg halarms, hsecond]
  rfl

end

/-- A count of a test that reaches its cutoff is an alarm of an active or a spare source. -/
theorem healthAlarm_raises {test : HealthTest} {count sample : Nat} (hst : x.st = .active ∨ x.st = .spare)
    (hcutoff : test = .rct ∧ rctCutoff src ≤ count ∨ test = .apt ∧ aptCutoff src ≤ count) :
    healthAlarm src test count sample s = raiseAlarm x sample s := by
  simp only [healthAlarm, hx]
  rcases hcutoff with ⟨rfl, hcount⟩ | ⟨rfl, hcount⟩ <;> exact if_pos ⟨hst, hcount⟩

end

/-- No exchange is made twice in a powered-on day. -/
theorem exchangeSource_done (h : s.int.posec / 86400 < s.nsu.exchangeDay) : exchangeSource s = s := if_pos h

/-- An ACTIVE source that a SPARE with fewer alarms today can replace, while no source of the role is drained (R273). -/
def mayExchange (s : State) (x : Source) : Bool :=
  decide (x.st = .active) && x.switchDue.isNone &&
    !(s.nsu.sources.any fun y => sameRole y.code x.code && decide (y.st = .drained)) &&
    (match spareFor s x.code with | some y => decide (y.today < x.today) | none => false)

/-- Of the sources that may be exchanged, the one with the most alarms today is, for the spare of its role. -/
theorem exchangeSource_names {y : Source} {v : State} (hday : s.nsu.exchangeDay ≤ s.int.posec / 86400)
    (hx : maxBy (fun x => x.today) (s.nsu.sources.filter (mayExchange s)) = some x) (hy : spareFor s x.code = some y)
    (hv : v = modSource x.code (fun z => { z with swap := some y.code }) s) :
    exchangeSource s = { v with nsu := { v.nsu with exchangeDay := s.int.posec / 86400 + 1 } } := by
  subst hv
  rw [exchangeSource, if_neg (by omega)]
  dsimp only
  split
  · next hnone => cases hnone.symm.trans hx
  · next z hz =>
    obtain rfl : z = x := Option.some.inj (hz.symm.trans hx)
    rw [hy]

end

/-- Settles O39: settling, the four ends of a start-up test, an alarm, and the daily exchange. That class S sources wait for each other
is notes/assumptions/76.md; what is left before its time, 2.md; the ends of windows, 41.md; the rules on spares, 40.md. -/
theorem noiseSourcesComplete : Obligations.NoiseSourcesComplete := by
  refine ⟨?settled, ?settling, ?joins, ?held, ?again, ?fails, ?alarm, ?exchange, ?exchanged⟩
  case settled =>
    rintro s t since u rfl hsettling hdue
    rw [exec_nsuSettleDone, settleDone_due hsettling hdue]
  case settling =>
    rintro s t since u rfl hsettling hearly
    rw [exec_nsuSettleDone, settleDone_early hsettling hearly]
  case joins =>
    rintro s t src x u rfl hpowered hx hst hpassed hsettled hheld
    rw [exec_sourceStartupTestDone, nsuThen_powered _ hpowered, endStartupTest_passes hx hst hpassed hsettled,
      passStartup_joins hheld, joinClass_found hx]
  case held =>
    rintro s t src x u rfl hpowered hx hst hpassed hsettled hheld hclass
    rw [exec_sourceStartupTestDone, nsuThen_powered _ hpowered, endStartupTest_passes hx hst hpassed hsettled,
      passStartup_held hheld hclass]
  case again =>
    rintro s t src alarms x u rfl hpowered hx hst hpassed hsettled hfirst halarms
    rw [exec_sourceStartupTestDone, nsuThen_powered _ hpowered, endStartupTest_again hx hst hpassed hsettled hfirst halarms]
  case fails =>
    rintro s t src alarms x u rfl hpowered hx hst hpassed hsettled hsecond halarms
    rw [exec_sourceStartupTestDone, nsuThen_powered _ hpowered, endStartupTest_fails hx hst hpassed hsettled hsecond halarms]
  case alarm =>
    rintro s t src test count sample cost x y u v recent rfl hpowered hx hst hcutoff rfl rfl rfl rfl
    rw [exec_healthTestAlarm, nsuThen_powered _ hpowered, healthAlarm_raises hx hst hcutoff]
    rfl
  case exchange =>
    rintro s t x y u v rfl hpowered hday hx hy hv
    rw [exec_sourceExchange, nsuThen_powered _ hpowered, exchangeSource_names hday hx hy hv]
  case exchanged =>
    rintro s t u rfl hpowered hdone
    rw [exec_sourceExchange, nsuThen_powered _ hpowered, exchangeSource_done hdone]

/-! ### Entries on their way to those that wait (R267-R270, R272, R283) -/

section
variable {s : State}

section
variable {src : Nat} {x : Source} (hx : findSource s src = some x)
include hx

/-- An APT window that closes without an alarm. -/
theorem closeAptWindow_passes (hst : x.st = .active ∨ x.st = .spare ∨ x.st = .drained)
    (hgood : x.badEnds.contains (s.clk.now / aptWindow src * aptWindow src) = false) :
    closeAptWindow src s = joinQueues (modSource src (fun z => { z with
      lastPass := max z.lastPass (s.clk.now / aptWindow src * aptWindow src) }) s) := by
  have hruns : ¬(x.st ≠ .active ∧ x.st ≠ .spare ∧ x.st ≠ .drained) := by tauto
  simp only [closeAptWindow, hx, if_neg hruns, hgood, Bool.false_eq_true, if_false]

/-- An APT window with an alarm. -/
theorem closeAptWindow_fails (hbad : x.badEnds.contains (s.clk.now / aptWindow src * aptWindow src) = true) :
    closeAptWindow src s = s := by
  simp only [closeAptWindow, hx, hbad, if_true, ite_self]

end

/-- An entry window that no source has spoilt. -/
theorem windowBoundary_conditions {classS : Bool} {stop : Nat} {xs : List Source} (samples : List (Nat × Nat))
    (hpowered : s.nsu.powered = true) (hstop : stop = s.clk.now / entryWindow classS * entryWindow classS)
    (hfirst : entryWindow classS ≤ stop) (hxs : xs = windowSources s classS (stop - entryWindow classS))
    (hkept : windowLost (stop - entryWindow classS) xs = false) :
    windowBoundary classS samples s = updateRandom (swapIn classS (switchIn classS
      (addWindow classS (stop - entryWindow classS) samples xs s))) := by
  subst hstop hxs
  simp only [windowBoundary, hpowered, Bool.not_true, Bool.false_eq_true, if_false, if_neg (Nat.not_lt.mpr hfirst), hkept]

/-- An internal DRBG that is instantiated and does not ask yet. -/
theorem askReseed_asks {i : Nat} (hinst : (s.nsu.internals.any fun d => d.num == i && d.state.isSome) = true)
    (hnew : s.nsu.waitI.contains i = false) : askReseed i s = { s with nsu := { s.nsu with waitI := s.nsu.waitI ++ [i] } } :=
  if_pos (by rw [hinst, hnew]; rfl)

/-- An automatic reseed while more than 32 entries are queued and nobody of a higher rank waits. -/
theorem autoReseed_takes_entry {n : Nat} {rest : List Nat} {e : W384} {more : List W384} {v : State}
    (horder : s.drb.autoOrder = n :: rest)
    (hqueue : s.nsu.queueS = e :: more) (hwait : s.nsu.waitS = []) (hinternal : internalWantsS s = false)
    (hmany : 32 < s.nsu.queueS.length) (hv : v = modDrbg n (fun d => { d with
      state := drbgReseed d.state e [], requests := 0, reseeds := d.reseeds + 1, auto := false }) s) :
    autoReseed s = { v with nsu := { v.nsu with queueS := more }, drb := { v.drb with autoOrder := rest } } := by
  subst hv
  simp only [autoReseed, horder, hqueue]
  exact if_pos ⟨hwait, hinternal, hqueue ▸ hmany⟩

end

/-- Settles O40: both ends of an APT window, the entry window that is kept, and the two reseeds. Where windows end is
notes/assumptions/41.md. -/
theorem entropyComplete : Obligations.EntropyComplete := by
  refine ⟨?passes, ?spoiled, ?conditions, ?internal, ?automatic⟩
  case passes =>
    rintro s t src x u rfl hpowered hx hst hgood
    rw [exec_aptWindowClose, nsuThen_powered _ hpowered, closeAptWindow_passes hx hst hgood]
  case spoiled =>
    rintro s t src x u rfl hpowered hx hbad
    rw [exec_aptWindowClose, nsuThen_powered _ hpowered, closeAptWindow_fails hx hbad]
  case conditions =>
    rintro s t classS samples stop xs u rfl hpowered hstop hfirst hxs hkept
    rw [exec_entryWindowBoundary, nsuThen_powered _ hpowered, windowBoundary_conditions samples hpowered hstop hfirst hxs hkept]
  case internal =>
    rintro s t i u rfl hinst hnew
    rw [exec_internalDrbgReseed, askReseed_asks hinst hnew]
  case automatic =>
    rintro s t n rest e more u v rfl horder hqueue hwait hinternal hmany hv
    rw [exec_drbgAutoReseed, autoReseed_takes_entry horder hqueue hwait hinternal hmany hv]

end Sys2Proof.Machine
end

section
/-!
PROOFS. The statements of spec/11_power_clock_startup.md: the monitors, the requests for a reset, the reference, the operations on
firmware slots and family keys, and what a reset returns.
-/
namespace Sys2Proof.Machine

open Sys2Proof.Safety

/-! ### Monitored levels (R290, R291, R293-R295) -/

theorem exec_monitorCrossing (t object level : Nat) (s : State) :
    exec (.monitorCrossing t object level) s = .next (monitorAt object level (advance t s)) := rfl

theorem exec_vinOvervoltage (t vin : Nat) (s : State) :
    exec (.vinOvervoltage t vin) s = .next (overvoltage vin (advance t s)) := rfl

theorem exec_internalRailReset (t object level : Nat) (s : State) :
    exec (.internalRailReset t object level) s = .next (railReset object level (advance t s)) := rfl

section
variable {object level threshold : Nat} {low high : Option Nat} {s : State}

/-- A level that is not outside yet is now, and is reported. -/
theorem leftWindow_first (kind : Nat) (h : ∀ m ∈ s.pmu.outside, m.object ≠ object) :
    leftWindow object kind level threshold s = postRail object level threshold kind
      { s with pmu := { s.pmu with outside := s.pmu.outside ++ [⟨object, kind, none⟩] } } := by
  have hkept : (s.pmu.outside.filter fun m => !(m.object == object && wasBack s m)) = s.pmu.outside :=
    List.filter_eq_self.mpr fun m hm => by simp [h m hm]
  have hout : (s.pmu.outside.map fun m => if m.object == object then { m with backAt := none } else m) = s.pmu.outside :=
    (List.map_congr_left fun m hm => by simp [h m hm]).trans (List.map_id' _)
  have hnew : (s.pmu.outside.any fun m => m.object == object && m.kind == kind) = false :=
    List.any_eq_false.mpr fun m hm => by simp [h m hm]
  simp only [leftWindow, hkept, hout, hnew, Bool.false_eq_true, if_false]

theorem judgeLevel_below (h : level < threshold) :
    judgeLevel object level (some threshold) high s = leftWindow object 0 level threshold s := by
  simp [judgeLevel, h]

theorem judgeLevel_inside {l h : Nat} (hl : l ≤ level) (hh : level ≤ h) :
    judgeLevel object level (some l) (some h) s = backInside object s := by
  simp [judgeLevel, Nat.not_lt.mpr hl, Nat.not_lt.mpr hh]

/-- Monitor input 0 has its low threshold in MON_THRESH_A [7:0]; a field of 0 sets none. -/
theorem monitorAt_mon0_below {field : Nat} (halive : isAlive s = true) (hfield : field = bitsOf s.regs.monA.toNat 0 8)
    (hset : field ≠ 0) (hlow : level < 5 * field) : monitorAt 0 level s = leftWindow 0 0 level (5 * field) s := by
  have hthreshold : lowThreshold (monFields s 0).1 = some (5 * field) := by
    subst hfield
    exact if_neg hset
  simp [monitorAt, halive, hthreshold, judgeLevel_below hlow]

theorem monitorAt_vcore_inside (halive : isAlive s = true) (hlow : 760 ≤ level) (hhigh : level ≤ 840) :
    monitorAt 0x10 level s = backInside 0x10 s := by
  simp [monitorAt, halive, judgeLevel_inside hlow hhigh]

theorem overvoltage_above {vin : Nat} (halive : isAlive s = true) (hvin : 13200 < vin) :
    overvoltage vin s = leftWindow 0x14 1 vin 13200 (seeVin vin s) := by
  simp [overvoltage, halive, hvin]

theorem railReset_below (h : level < resetLevel object) : railReset object level s = doReset 5 s := if_pos h

end

/-- Settles O32: a monitor input below its window, a rail back inside, VIN above its window, and a rail below its reset level.
That 13.2 V itself is not above, and that a level is back for its object, is notes/assumptions/60.md. -/
theorem monitorsComplete : Obligations.MonitorsComplete := by
  refine ⟨?below, ?back, ?above, ?reset⟩
  case below =>
    rintro s t level field u rfl halive hfield hset hlow hfirst
    rw [exec_monitorCrossing, monitorAt_mon0_below halive hfield hset hlow, leftWindow_first 0 hfirst]
  case back =>
    rintro s t level u rfl halive hlow hhigh
    rw [exec_monitorCrossing, monitorAt_vcore_inside halive hlow hhigh, backInside]
  case above =>
    rintro s t vin u rfl halive hvin hfirst
    rw [exec_vinOvervoltage, overvoltage_above halive hvin, leftWindow_first (s := seeVin vin _) 1 hfirst, seeVin]
  case reset =>
    rintro s t object level u rfl hlow
    rw [exec_internalRailReset, railReset_below hlow]

/-! ### Requests for a reset (R153, R297, R298) -/

theorem exec_resetN (t : Nat) (s : State) : exec (.resetN t) s = .next (resetPin (advance t s)) := rfl

theorem exec_watchdog (t pair : Nat) (s : State) : exec (.watchdog t pair) s = .next (pairFails pair 2 (advance t s)) := rfl

theorem exec_lockstepMismatch (t pair : Nat) (s : State) :
    exec (.lockstepMismatch t pair) s = .next (pairFails pair 4 (advance t s)) := rfl

section
variable {pair : Nat} {s : State}

theorem resetPin_released (h : s.pmu.phase ≠ .reset) :
    resetPin s = requestReset 1 { s with pmu := { s.pmu with resetLow := true } } := by
  simp [resetPin, h]

/-- The first pair to fail: the other one asks for the reset. -/
theorem pairFails_first (cause : Nat) (halive : isAlive s = true) (hpair : pair < 2) (hnone : s.pmu.failedPairs = []) :
    pairFails pair cause s = requestReset cause { s with pmu := { s.pmu with failedPairs := [pair] } } := by
  simp [pairFails, halive, Nat.not_le.mpr hpair, hnone]

/-- The second pair to fail: no pair is left that could ask, and a reset that was not asked for yet takes this cause. -/
theorem pairFails_second (cause : Nat) (halive : isAlive s = true) (hpair : pair < 2) (hother : s.pmu.failedPairs = [1 - pair])
    (hcause : s.flush.resetCause = none) :
    pairFails pair cause s = doReset cause { s with pmu := { s.pmu with failedPairs := [pair, 1 - pair] } } := by
  have hne : (1 - pair != pair) = true := bne_iff_ne.mpr (by omega)
  simp [pairFails, halive, Nat.not_le.mpr hpair, hother, hne, hcause]

/-- In a session, with no flush under way and the supply there, a request begins a flush of its own. -/
theorem requestReset_session (cause : Nat) (hphase : s.pmu.phase = .running) (hdead : s.jrn.dead = false)
    (hflush : s.flush.why = .none) (hpower : s.pmu.power ≠ .holdup) :
    requestReset cause s = beginFlush .reset (some cause) { s with hmu := { s.hmu with bistRuns := false } } := by
  simp [requestReset, hphase, hdead, hflush, hpower]

end

/-- Settles O33: the pin, the first pair to fail by either watch, the second one, and a request in a session. -/
theorem resetRequestsComplete : Obligations.ResetRequestsComplete := by
  refine ⟨?pin, ?watchdog, ?lockstep, ?both, ?session⟩
  case pin =>
    rintro s t u rfl hphase
    rw [exec_resetN, resetPin_released hphase]
  case watchdog =>
    rintro s t pair u rfl halive hpair hnone
    rw [exec_watchdog, pairFails_first 2 halive hpair hnone]
  case lockstep =>
    rintro s t pair u rfl halive hpair hnone
    rw [exec_lockstepMismatch, pairFails_first 4 halive hpair hnone]
  case both =>
    rintro s t pair u rfl halive hpair hother hcause
    rw [exec_watchdog, pairFails_second 2 halive hpair hother hcause]
  case session =>
    intro cause u hphase hdead hflush hpower
    exact requestReset_session cause hphase hdead hflush hpower

/-! ### The reference (R300) -/

theorem exec_referenceLost (t : Nat) (s : State) : exec (.referenceLost t) s = .next (loseReference (advance t s)) := rfl

theorem exec_referenceReturned (t : Nat) (s : State) : exec (.referenceReturned t) s = .next (findReference (advance t s)) := rfl

theorem exec_relock (t : Nat) (s : State) : exec (.relock t) s = .next (relockPll (advance t s)) := rfl

section
variable {s : State}

theorem loseReference_present (halive : isAlive s = true) (href : s.clk.refPresent = true) :
    loseReference s = postEvent .clockRefLost 0 [] (setReady (fun y => { y with pllLock := false })
      { s with clk := { s.clk with
          refPresent := false, slewing := false, holdover := true, losses := min 255 (s.clk.losses + 1) } }) := by
  simp [loseReference, halive, href]

theorem findReference_absent (halive : isAlive s = true) (href : s.clk.refPresent = false) :
    findReference s = { s with clk := { s.clk with refPresent := true, slewing := true } } := by
  simp [findReference, halive, href]

theorem relockPll_slewing (h : s.clk.slewing = true) :
    relockPll s = setReady (fun y => { y with pllLock := true })
      { s with clk := { s.clk with holdover := false, slewing := false } } := if_pos h

end

/-- Settles O34: the reference goes, comes back, and the PLL locks to it again. -/
theorem referenceComplete : Obligations.ReferenceComplete := by
  refine ⟨?lost, ?returned, ?relock⟩
  case lost =>
    rintro s t u rfl halive href
    rw [exec_referenceLost, loseReference_present halive href]
  case returned =>
    rintro s t u rfl halive href
    rw [exec_referenceReturned, findReference_absent halive href]
  case relock =>
    rintro s t u rfl hslewing
    rw [exec_relock, relockPll_slewing hslewing]

/-! ### Firmware slots and family keys (R246, R247, R309-R311) -/

section
variable {op : Op} {s : State}

theorem fwStage_passed (hg : gate op (s.ready.journal && !s.fw.pending) s = none) (hf : stageFields op s = true) :
    fwStage op s =
      if op.a = 0 then awaitRecord op (.config 0x400) op.b 0 (setInactive ⟨readHost s op.c.toNat op.b.toNat, true⟩ s)
      else complete op .ok (op.a + op.b) 0 false (setInactive
        { inactiveSlot s with bytes := (inactiveSlot s).bytes ++ readHost s op.c.toNat op.b.toNat } s) := by
  simp [fwStage, gated_passed hg, hf]

/-- FW_ACTIVATE of an image that can be read and runs, whose version is not below the anti-rollback counter. -/
theorem fwActivate_passed (hg : gate op s.ready.journal s = none) (hf : fieldsFree op 0 0 0 0 = true)
    (himage : imageRuns s.fuse (inactiveSlot s) = true) (hversion : s.int.antiRoll ≤ slotVersion (inactiveSlot s))
    (ha : Admitted ⟨slotsNeeded .antiRoll s, 0, true⟩ s) : fwActivate true op s = activate op s := by
  unfold fwActivate
  rw [gated_passed hg, if_neg (by rw [hf]; decide), if_neg (by decide),
    if_neg (by simp [himage, Nat.not_lt.mpr hversion]), if_pos ha]

theorem familyKeyLoad_passed {plain : List Byte} (hg : gate op s.ready.journal s = none)
    (hf : fieldsFree op 0xF 0 0 allBits = true) (halign : bufferAligned op.c = true)
    (hplain : unwrapKey (leBytes 32 s.fuse.loadingKey.toNat) (readHost s op.c.toNat 32) = some plain)
    (hfits : keyFits op.obj.toNat plain = true) :
    familyKeyLoad op s = awaitRecord op (.config (0x100 + op.obj.toNat)) 0 0
      (rekeyFamily op.obj.toNat (BitVec.ofNat 128 (fieldAt plain 0 16)) { s with hyc := { s.hyc with
        families := insertBy (fun f => f.1) (op.obj.toNat, BitVec.ofNat 128 (fieldAt plain 0 16))
          (s.hyc.families.filter fun f => f.1 != op.obj.toNat) } }) := by
  unfold familyKeyLoad
  rw [gated_passed hg, if_neg (by rw [hf, halign]; decide), hplain]
  exact if_neg (by rw [hfits]; decide)

end

/-- Settles O3: each operation past its checks. That FW_STAGE at offset 0 waits for its CONFIG record
is notes/assumptions/49.md. -/
theorem firmwareAndFamilyKeysComplete : Obligations.FirmwareAndFamilyKeysComplete := by
  refine ⟨?stage, ?activate, ?key⟩
  case stage =>
    rintro s t k hw op u rfl hd hs hr hpending hfields
    rw [exec_of_dispatched (c := .fwStage t k hw) rfl hd, effectOf,
      fwStage_passed (gate_none hs (by rw [hr, hpending]; rfl)) hfields]
  case activate =>
    rintro s t k op u w rfl hd hs hr hfields himage hversion ha rfl
    rw [exec_dispatched (c := .fwActivate t k true) rfl hd, effectOf,
      fwActivate_passed (gate_none hs hr) hfields himage hversion ha, activate]
  case key =>
    rintro s t k hw op plain key u rfl hd hs hr hfields halign hplain hfits rfl
    rw [exec_of_dispatched (c := .familyKeyLoad t k hw) rfl hd, effectOf,
      familyKeyLoad_passed (gate_none hs hr) hfields (decide_eq_true halign) hplain hfits]

/-! ### What a reset returns (R55, R297, R298, R352, R355) -/

/-- A slot that is programmed is added to those of the flash. -/
theorem mem_flash_putSlot {f : FlashSlot} {s : State} (bank sector slot : Nat) (bytes : Option (List Byte))
    (h : f ∈ s.jrn.flash) : f ∈ (putSlot bank sector slot bytes s).jrn.flash := List.mem_append_left _ h

/-- A fold of an effect that keeps a slot of the flash keeps it. -/
theorem mem_flash_foldl {α : Type} {f : FlashSlot} {g : State → α → State}
    (hg : ∀ s x, f ∈ s.jrn.flash → f ∈ (g s x).jrn.flash) (l : List α) {s : State} (h : f ∈ s.jrn.flash) :
    f ∈ (l.foldl g s).jrn.flash := by
  induction l generalizing s with
  | nil => exact h
  | cons x l ih => exact ih (hg s x h)

/-- What a reset leaves half-programmed takes no slot away (R105, R106). -/
theorem mem_flash_tornSlots {f : FlashSlot} {s : State} (h : f ∈ s.jrn.flash) : f ∈ (tornSlots s).jrn.flash :=
  mem_flash_foldl (fun _ _ => mem_flash_putSlot _ _ _ _) _ (mem_flash_foldl (fun _ _ => mem_flash_putSlot _ _ _ _) _ h)

theorem reset_invariant : Invariant State.reset := by decide

/-- A new F840 has no counter (R66, R302). -/
theorem reset_tableWhole : TableWhole State.reset := ⟨List.Pairwise.nil, List.forall_mem_nil _, List.forall_mem_nil _⟩

theorem doReset_regs (cause : Nat) (s : State) : (doReset cause s).regs = { Regs.reset with resetCause := cause } := rfl

theorem resetHif_regs (linkDown : Bool) (s : State) : (resetHif linkDown s).regs = resetHifRegs s.regs := rfl

/-- Settles O49: what a device reset sets does not hang on the state it finds, and what it tears in the flash it adds; of the
registers a HIF reset sets the HIF group alone. -/
theorem resetsReturnTheirRegisters : Obligations.ResetsReturnTheirRegisters := by
  refine ⟨reset_invariant, reset_tableWhole, rfl, ?registers, ?device, ?hif⟩
  case registers =>
    rintro cause s t - (rfl | rfl)
    · and_intros <;> rfl
    · and_intros <;> rfl
  case device =>
    intro cause s _
    have hcause : (doReset cause s).regs.resetCause = cause := congrArg Regs.resetCause (doReset_regs cause s)
    have hflash (f) (hf : f ∈ s.jrn.flash) : f ∈ (doReset cause s).jrn.flash := mem_flash_tornSlots hf
    have hsectors : (doReset cause s).jrn.sectors.length = s.jrn.sectors.length := List.length_map sectorAfterReset
    exact ⟨hcause, hflash, hsectors, rfl, rfl, rfl, rfl⟩
  case hif =>
    intro down s
    exact ⟨resetHif_regs down s, rfl, rfl, rfl, rfl, rfl, rfl⟩

end Sys2Proof.Machine
end

section
/-!
PROOFS. The statements of spec/14_registers.md: what a write of BAR0 does, accepted, refused, or out of reach.
-/
namespace Sys2Proof.Machine

/-! ### A write as it arrives (R351, R353) -/

section
variable {offset width : Nat} {s : State}

theorem write32_accepted {v : W32} (hb : barReachable s = true) (hr : isRefused s offset v = false) (halign : offset % 4 = 0) :
    write32 offset v s = putRegister offset v s := by
  simp [write32, hb, hr, halign]

theorem write32_refused {v : W32} (hb : barReachable s = true) (hr : isRefused s offset v = true) (halign : offset % 4 = 0) :
    write32 offset v s = setupError s := by
  simp [write32, hb, hr, halign]

theorem write32_unreachable (v : W32) (hb : barReachable s = false) : write32 offset v s = s := if_pos (.inl hb)

theorem write64_unreachable (v : W64) (hb : barReachable s = false) : write64 offset v s = s := if_pos (.inl hb)

/-- A write of 64 bits is accepted as a whole, its LO half first. -/
theorem write64_accepted {v : W64} (hb : barReachable s = true) (hpair : isPairLo offset = true)
    (hlo : isRefused s offset (BitVec.truncate 32 v) = false)
    (hhi : isRefused s (offset + 4) (BitVec.truncate 32 (v >>> 32)) = false) :
    write64 offset v s =
      putRegister (offset + 4) (BitVec.truncate 32 (v >>> 32)) (putRegister offset (BitVec.truncate 32 v) s) := by
  simp only [write64, hb, hpair, hlo, hhi, Bool.or_self, reduceCtorEq, or_self, if_false, Bool.false_eq_true]

theorem writeBar_word (v : W64) : writeBar offset 4 v s = write32 offset (BitVec.truncate 32 v) s := if_pos rfl

theorem writeBar_narrow (v : W64) (hb : barReachable s = true) (hpos : 0 < width) (hlt : width < 4) :
    writeBar offset width v s = setupError s := by
  rw [writeBar, if_neg (by omega), if_neg (by omega), if_pos ⟨hlt, hpos, hb⟩]

/-- Of whatever width, a write that does not reach BAR0 has no effect. -/
theorem writeBar_unreachable (v : W64) (hb : barReachable s = false) : writeBar offset width v s = s := by
  unfold writeBar
  split
  · exact write32_unreachable _ hb
  · split
    · exact write64_unreachable v hb
    · exact if_neg (by simp [hb])

end

theorem exec_registerWrite (t offset width : Nat) (v : W64) (s : State) :
    exec (.registerWrite t offset width v) s = .next (writeBar offset width v (advance t s)) := rfl

/-- Settles O20: a refused write, a narrow one, and one out of reach. That a narrow one is refused at any offset is
notes/assumptions/67.md. -/
theorem refusedWritesSetSetupError : Obligations.RefusedWritesSetSetupError := by
  refine ⟨?refused, ?narrow, ?unreachable⟩
  case refused =>
    rintro s t offset v u rfl hb halign hr
    rw [exec_registerWrite, writeBar_word, write32_refused hb hr halign, setupError]
  case narrow =>
    rintro s t offset width v u rfl hb hpos hlt
    rw [exec_registerWrite, writeBar_narrow v hb hpos hlt, setupError]
  case unreachable =>
    intro s t offset width v hb
    rw [exec_registerWrite, writeBar_unreachable v hb]

/-! ### The setup registers (R355-R357, R360, R364, R368) -/

theorem exec_statusSetupErrorClear (t : Nat) (v : W32) (s : State) :
    exec (.statusSetupErrorClear t v) s = .next (write32 0x018 v (advance t s)) := rfl

theorem exec_basePairWrite (t offset : Nat) (wide : Bool) (v : W64) (s : State) :
    exec (.basePairWrite t offset wide v) s = .next (writeBasePair offset wide v (advance t s)) := rfl

theorem exec_eventRingSizeWrite (t : Nat) (v : W32) (s : State) :
    exec (.eventRingSizeWrite t v) s = .next (write32 0x04C v (advance t s)) := rfl

theorem exec_pollPeriodWrite (t : Nat) (v : W32) (s : State) :
    exec (.pollPeriodWrite t v) s = .next (write32 0x050 v (advance t s)) := rfl

theorem exec_msixCfgWrite (t : Nat) (v : W32) (s : State) :
    exec (.msixCfgWrite t v) s = .next (write32 0x054 v (advance t s)) := rfl

theorem exec_halyardCfgWrite (t : Nat) (v : W32) (s : State) :
    exec (.halyardCfgWrite t v) s = .next (write32 0x06C v (advance t s)) := rfl

section
variable {s : State}

/-- SETUP_ERROR is cleared by writing 1 to it. -/
theorem putRegister_status {v : W32} (h : v.getLsbD 10 = true) :
    putRegister 0x018 v s = { s with regs := { s.regs with setupError := false } } := if_pos h

theorem putRegister_eventSize (v : W32) :
    putRegister 0x04C v s = if v.getLsbD 4 then drainEvents { s with
        regs := { s.regs with eventSize := v }
        ev := { s.ev with ring := some (effOf s.regs.eventRing, 2 ^ (6 + bitsOf v.toNat 0 4)) } }
      else { s with regs := { s.regs with eventSize := v } } := rfl

/-- The two halves of a word put together are the word. -/
theorem ofNat_halves (v : W64) :
    BitVec.ofNat 64 ((BitVec.truncate 32 v : W32).toNat + 2 ^ 32 * (BitVec.truncate 32 (v >>> 32) : W32).toNat) = v := by
  apply BitVec.eq_of_toNat_eq
  have hlt := v.isLt
  simp only [BitVec.toNat_ofNat, BitVec.truncate_eq_setWidth, BitVec.toNat_setWidth, BitVec.toNat_ushiftRight,
    Nat.shiftRight_eq_div_pow]
  omega

/-- HOIST_BASE in one write of 64 bits takes effect with the word written. -/
theorem writeBasePair_hoist {v : W64} (hb : barReachable s = true) (hlo : isRefused s 0x020 (BitVec.truncate 32 v) = false)
    (hhi : isRefused s 0x024 (BitVec.truncate 32 (v >>> 32)) = false) :
    writeBasePair 0x020 true v s = { s with regs := { s.regs with
      hoist := ⟨BitVec.truncate 32 v, BitVec.truncate 32 (v >>> 32), some v⟩ } } := by
  calc writeBasePair 0x020 true v s
      = write64 0x020 v s := rfl
    _ = putRegister 0x024 (BitVec.truncate 32 (v >>> 32)) (putRegister 0x020 (BitVec.truncate 32 v) s) :=
        write64_accepted hb rfl hlo hhi
    _ = _ := by simp only [putRegister, putLo, putHi, ofNat_halves]

/-- The HI half of EVENT_RING alone takes effect with the LO half that it finds. -/
theorem writeBasePair_eventRingHi {v : W64} (hb : barReachable s = true)
    (hr : isRefused s 0x048 (BitVec.truncate 32 v) = false) :
    writeBasePair 0x048 false v s = { s with regs := { s.regs with
      eventRing := putHi (BitVec.truncate 32 v) s.regs.eventRing } } :=
  write32_accepted hb hr rfl

/-- Registers with no reserved bit, which take any value (R362, R363, R368). -/
theorem isRefused_anyValue {offset : Nat} (v : W32) (h : offset ∈ [0x05C, 0x060, 0x064, 0x07C]) :
    isRefused s offset v = false := by
  simp only [List.mem_cons, List.not_mem_nil, or_false] at h
  rcases h with rfl | rfl | rfl | rfl <;> simp [isRefused, reservedBits]

end

/-- Settles O18: each write is accepted, and puts its register. -/
theorem setupRegisterWritesComplete : Obligations.SetupRegisterWritesComplete := by
  refine ⟨?status, ?hoist, ?eventRing, ?adminSizes, ?eventSize, ?pollPeriod, ?msixCfg, ?halyardCfg, ?scratch⟩
  case status =>
    rintro s t v u rfl hb hr hbit
    rw [exec_statusSetupErrorClear, write32_accepted hb hr rfl, putRegister_status hbit]
  case hoist =>
    rintro s t v u rfl hb hlo hhi
    rw [exec_basePairWrite, writeBasePair_hoist hb hlo hhi]
  case eventRing =>
    rintro s t v u rfl hb hr
    rw [exec_basePairWrite, writeBasePair_eventRingHi hb hr, putHi]
  case adminSizes =>
    rintro s t v u rfl hb hr
    rw [exec_adminSizesWrite, write32_adminSizes hb hr, putAdminSizes]
  case eventSize =>
    rintro s t v u rfl hb hr
    rw [exec_eventRingSizeWrite, write32_accepted hb hr rfl, putRegister_eventSize]
  case pollPeriod =>
    rintro s t v u rfl hb hr
    rw [exec_pollPeriodWrite, write32_accepted hb hr rfl, putRegister]
  case msixCfg =>
    rintro s t v u rfl hb hr
    rw [exec_msixCfgWrite, write32_accepted hb hr rfl, putRegister]
  case halyardCfg =>
    rintro s t v u rfl hb hr
    rw [exec_halyardCfgWrite, write32_accepted hb hr rfl, putRegister]
  case scratch =>
    rintro s t v u rfl hb
    rw [exec_registerWrite, writeBar_word, write32_accepted hb (isRefused_anyValue _ (by decide)) rfl, putRegister]

/-! ### Registers whose write acts on the part (R340, R355, R362, R363) -/

theorem exec_ctrlSoftReset (t : Nat) (v : W32) (s : State) :
    exec (.ctrlSoftReset t v) s = .next (write32 0x014 v (advance t s)) := rfl

theorem exec_monThreshWrite (t : Nat) (b : Bool) (v : W32) (levels : List Nat) (s : State) :
    exec (.monThreshWrite t b v levels) s = .next (writeMonitors b v levels (advance t s)) := rfl

theorem exec_portEnableWrite_lo (t : Nat) (v : W32) (s : State) :
    exec (.portEnableWrite t false v) s = .next (write32 0x064 v (advance t s)) := rfl

theorem exec_debugLockUnlock (t : Nat) (v : W32) (s : State) :
    exec (.debugLockUnlock t v) s = .next (write32 0x078 v (advance t s)) := rfl

theorem exec_tapUnlock (t : Nat) (s : State) : exec (.tapUnlock t) s = .next (requestUnlock (advance t s)) := rfl

section
variable {v : W32} {s : State}

theorem putRegister_ctrl (h : v.getLsbD 0 = true) : putRegister 0x014 v s = requestReset 3 s := if_pos h

theorem putRegister_debugLock (h : v.getLsbD 1 = true) : putRegister 0x078 v s = requestUnlock s := if_pos h

/-- The two inputs of a threshold register are judged under the thresholds that it takes. -/
theorem writeMonitors_levels (b : Bool) (x y : Nat) (hb : barReachable s = true) :
    writeMonitors b v [x, y] s = monitorAt (if b then 3 else 1) y (monitorAt (if b then 2 else 0) x
      { s with regs := if b then { s.regs with monB := v } else { s.regs with monA := v } }) := by
  have hput : write32 (if b then 0x060 else 0x05C) v s =
      { s with regs := if b then { s.regs with monB := v } else { s.regs with monA := v } } := by
    cases b <;> exact write32_accepted hb (isRefused_anyValue v (by decide)) rfl
  rw [writeMonitors, hput, if_pos hb]
  cases b <;> rfl

theorem write32_portEnableLo (hb : barReachable s = true) : write32 0x064 v s = putPorts false v s :=
  write32_accepted hb (isRefused_anyValue v (by decide)) rfl

/-- In SAFE the first request to unlock a part begins its flush where none is under way. -/
theorem requestUnlock_first (hsafe : inSafe s = true) (hlocked : s.regs.locked = true) (hreq : s.regs.unlockReq = false)
    (hflush : s.flush.why = .none) :
    requestUnlock s = beginFlush .debug none { s with regs := { s.regs with unlockReq := true } } := by
  simp [requestUnlock, hsafe, hlocked, hreq, hflush]

end

/-- Settles O19: each write is accepted, and acts; and the TAP's request to unlock. What a switched port does is
notes/assumptions/69.md. -/
theorem actingRegisterWritesComplete : Obligations.ActingRegisterWritesComplete := by
  refine ⟨?ctrl, ?monA, ?monB, ?ports, ?debugLock, ?tap⟩
  case ctrl =>
    rintro s t v u rfl hb hr hbit
    rw [exec_ctrlSoftReset, write32_accepted hb hr rfl, putRegister_ctrl hbit]
  case monA =>
    rintro s t v x y u rfl hb
    rw [exec_monThreshWrite, writeMonitors_levels false x y hb]
    rfl
  case monB =>
    rintro s t v x y u rfl hb
    rw [exec_monThreshWrite, writeMonitors_levels true x y hb]
    rfl
  case ports =>
    rintro s t v u w rfl hb rfl
    rw [exec_portEnableWrite_lo, write32_portEnableLo hb]
    rfl
  case debugLock =>
    rintro s t v u rfl hb hr hbit
    rw [exec_debugLockUnlock, write32_accepted hb hr rfl, putRegister_debugLock hbit]
  case tap =>
    rintro s t u rfl hsafe hlocked hreq hflush
    rw [exec_tapUnlock, requestUnlock_first hsafe hlocked hreq hflush]

end Sys2Proof.Machine
end

section
/-!
PROOFS. The statements of spec/12_health_selftest.md: what the health, maintenance and placement operations report, and how
maintenance goes on.
-/
namespace Sys2Proof.Machine

open Sys2Proof.Safety

/-! ### HEALTH_READ, EOL_READ (R321, R322) -/

section
variable {op : Op} {s : State}

/-- HEALTH_READ and EOL_READ want their buffer aligned, and no reserved bit. -/
theorem healthFields_free (hf : fieldsFree op allObj 0 0 allBits = true) (ha : op.c.toNat % 32 = 0) :
    ¬(!fieldsFree op allObj 0 0 allBits || !bufferAligned op.c) = true := by
  rw [hf, bufferAligned, decide_eq_true ha]
  decide

theorem healthRead_stored {m : Measures} {d : Nat × List Byte} (hg : gate op (healthServed s) s = none)
    (hf : fieldsFree op allObj 0 0 allBits = true) (ha : op.c.toNat % 32 = 0) (hobj : op.obj ≠ 0xFFFFFFFF)
    (hd : (s.hmu.dailies.find? fun d => d.1 == op.obj.toNat) = some d) :
    healthRead m op s =
      complete op .ok (highestDay s) 0 false (writeHost op.c.toNat (healthBytes d.1 0 d.2) s) := by
  unfold healthRead
  rw [gated_passed hg, if_neg (healthFields_free hf ha), if_neg hobj, hd]

theorem healthRead_now (m : Measures) (hg : gate op (healthServed s) s = none)
    (hf : fieldsFree op allObj 0 0 allBits = true) (ha : op.c.toNat % 32 = 0) (hobj : op.obj = 0xFFFFFFFF) :
    healthRead m op s = complete op .ok (highestDay s) 0 false
      (writeHost op.c.toNat (healthBytes (s.int.posec / 86400) 1 (dailyPayload m s)) s) := by
  unfold healthRead
  rw [gated_passed hg, if_neg (healthFields_free hf ha), if_pos hobj]

theorem eolRead_one {i : Indicator} (hg : gate op (healthServed s) s = none)
    (hf : fieldsFree op allObj 0 0 allBits = true) (ha : op.c.toNat % 32 = 0) (hobj : op.obj ≠ 0xFFFFFFFF)
    (hi : (indicators s).find? (fun i => i.code == op.obj.toNat) = some i) :
    eolRead op s = complete op .ok (BitVec.ofNat 64 (fitLower (fitOf i))) (BitVec.ofNat 64 (fitDays (fitOf i))) false
      (writeHost op.c.toNat (eolBytes s i (fitOf i)) s) := by
  unfold eolRead
  rw [gated_passed hg, if_neg (healthFields_free hf ha), if_neg hobj, hi]

theorem eolRead_all {lower code : Nat} (hg : gate op (healthServed s) s = none)
    (hf : fieldsFree op allObj 0 0 allBits = true) (ha : op.c.toNat % 32 = 0) (hobj : op.obj = 0xFFFFFFFF)
    (hl : lowestBound (indicators s) = some (lower, code)) :
    eolRead op s = complete op .ok (BitVec.ofNat 64 lower) 0 false (writeHost op.c.toNat
      (padTo 64 (boundBytes (lowestBound (deviceIndicators s.hmu.dailies)) ++ boundBytes (lowestBound (tagIndicators s)) ++
        leBytes 2 (atStage s 1) ++ leBytes 2 (atStage s 2) ++ leBytes 2 (atStage s 3))) s) := by
  unfold eolRead
  rw [gated_passed hg, if_neg (healthFields_free hf ha), if_pos hobj, hl]

/-! ### MAINT_START, MAINT_STATUS (R333, R334) -/

/-- MAINT_START of a known activity on a block of normal work, with a place in the queue: it gets the next ticket. -/
theorem maintStart_queued {m : Maint} {w : State} (hg : gate op s.ready.counters s = none) (hf : maintFields op = true)
    (hdomain : op.domain = 0) (honline : ¬(maintKind op = 1 ∧ otherBlocks.contains (maintBlock op) = true))
    (hroom : (s.mnt.queue.filter fun m => m.ticket != 0).length < 16)
    (hm : m = newMaint (maintKind op) (if maintKind op ≤ 2 then maintBlock op else 0)
      (if maintKind op = 1 then maintMode op else 0) s.mnt.nextTicket false s)
    (hw : w = startMaint { s with mnt := { s.mnt with queue := s.mnt.queue ++ [m], nextTicket := s.mnt.nextTicket + 1 } }) :
    maintStart op s = complete op .ok (BitVec.ofNat 64 s.mnt.nextTicket) (BitVec.ofNat 64 (queuePlace w s.mnt.nextTicket))
      false w := by
  subst hm hw
  unfold maintStart
  rw [gated_passed hg, if_neg (by rw [hf]; decide), if_neg (not_not_intro hdomain), if_neg honline, if_neg (by omega)]

/-- MAINT_STATUS is served after SHUTDOWN_PREPARE, and has no readiness rule (R324). -/
theorem gate_maintStatus {k : Nat} (h : Dispatched 0x63 k op s) (hsafe : inSafe s = false) : gate op true s = none := by
  have ⟨_, hcode, _⟩ := h
  simp [gate, hsafe, servedAfterShutdown, hasCode_opcode hcode]

theorem maintStatus_arbiter (hg : gate op true s = none) (hf : fieldsFree op allObj 0 0 0 = true) (hobj : op.obj = 0) :
    maintStatus op s = match s.mnt.running with
      | some r => complete op .ok (BitVec.ofNat 64 (r.req.kind + 256 * s.mnt.queue.length)) (BitVec.ofNat 64 r.req.ticket) false s
      | none => complete op .ok (BitVec.ofNat 64 (256 * s.mnt.queue.length)) 0 false s := by
  simp only [maintStatus, gated_passed hg, hf, hobj]
  rfl

theorem maintStatus_queued {m : Maint} (hg : gate op true s = none) (hf : fieldsFree op allObj 0 0 0 = true) (hobj : op.obj ≠ 0)
    (hm : (s.mnt.queue.find? fun m => m.ticket == op.obj.toNat) = some m) :
    maintStatus op s =
      complete op .ok (BitVec.ofNat 64 (256 * queuePlace s op.obj.toNat)) (BitVec.ofNat 64 m.changed) false s := by
  have hticket : op.obj.toNat ≠ 0 := fun h => hobj (BitVec.eq_of_toNat_eq h)
  simp only [maintStatus, gated_passed hg, hf, hticket, hm, Bool.not_true, Bool.false_eq_true, if_false]

theorem maintStatus_ended {e : Nat × Nat × Nat} (hg : gate op true s = none) (hf : fieldsFree op allObj 0 0 0 = true)
    (hobj : op.obj ≠ 0) (hm : (s.mnt.queue.find? fun m => m.ticket == op.obj.toNat) = none) (hr : s.mnt.running = none)
    (he : (s.mnt.ended.find? fun e => e.1 == op.obj.toNat) = some e) :
    maintStatus op s = complete op .ok (BitVec.ofNat 64 (2 + 65536 * e.2.1)) (BitVec.ofNat 64 e.2.2) false s := by
  have hticket : op.obj.toNat ≠ 0 := fun h => hobj (BitVec.eq_of_toNat_eq h)
  simp only [maintStatus, gated_passed hg, hf, hticket, hm, hr, he, Bool.not_true, Bool.false_eq_true, if_false]

/-! ### PLACEMENT_REPORT (R178-R181) -/

theorem placementReport_summary (hg : gate op s.ready.counters s = none) (hf : reportFields op = true) (hqp : op.qp = 0)
    (hkind : op.obj.toNat % 256 = 0) :
    placementReport op s = complete op .ok 0 (BitVec.ofNat 64 s.plc.nextNum) false
      (writeHost op.c.toNat (padTo 256 (summaryBytes s)) s) := by
  simp [placementReport, gated_passed hg, hf, hqp, hkind]

theorem placementReport_log (hg : gate op s.ready.counters s = none) (hf : reportFields op = true) (hqp : op.qp = 0)
    (hkind : op.obj.toNat % 256 = 2) :
    placementReport op s = complete op .ok (BitVec.ofNat 64 (logPage s op.a.toNat).2) (BitVec.ofNat 64 s.plc.nextNum) false
      (writeHost op.c.toNat (padTo 256 (logPage s op.a.toNat).1) s) := by
  simp [placementReport, gated_passed hg, hf, hqp, hkind]

end

/-- Settles O12: each report past its checks. The day number of a sample taken now is notes/assumptions/54.md, the start at once
of an idle arbiter notes/assumptions/51.md. -/
theorem reportsComplete : Obligations.ReportsComplete := by
  refine ⟨?healthStored, ?healthNow, ?eolOne, ?eolAll, ?start, ?arbiter, ?queued, ?ended, ?summary, ?log⟩
  case healthStored =>
    rintro s t k m op day payload u rfl hd hg hf ha hobj hfind
    rw [exec_dispatched (c := .healthRead t k m) rfl hd, effectOf, healthRead_stored hg hf ha hobj hfind]
  case healthNow =>
    rintro s t k m op u rfl hd hg hf ha hobj
    rw [exec_dispatched (c := .healthRead t k m) rfl hd, effectOf, healthRead_now m hg hf ha hobj]
  case eolOne =>
    rintro s t k op i u rfl hd hg hf ha hobj hi
    rw [exec_dispatched (c := .eolRead t k) rfl hd, effectOf, eolRead_one hg hf ha hobj hi]
  case eolAll =>
    rintro s t k op lower code u rfl hd hg hf ha hobj hl
    rw [exec_dispatched (c := .eolRead t k) rfl hd, effectOf, eolRead_all hg hf ha hobj hl]
  case start =>
    rintro s t k op m w u rfl hd hs hr hf hdomain honline hroom hm hw
    rw [exec_dispatched (c := .maintStart t k) rfl hd, effectOf,
      maintStart_queued (gate_none hs hr) hf hdomain honline hroom hm hw]
  case arbiter =>
    rintro s t k op u rfl hd hsafe hf hobj
    rw [exec_dispatched (c := .maintStatus t k) rfl hd, effectOf]
    exact congrArg _ (maintStatus_arbiter (gate_maintStatus hd hsafe) hf hobj)
  case queued =>
    rintro s t k op m u rfl hd hsafe hf hobj hm
    rw [exec_dispatched (c := .maintStatus t k) rfl hd, effectOf,
      maintStatus_queued (gate_maintStatus hd hsafe) hf hobj hm]
  case ended =>
    rintro s t k op result time u rfl hd hsafe hf hobj hm hr he
    rw [exec_dispatched (c := .maintStatus t k) rfl hd, effectOf,
      maintStatus_ended (gate_maintStatus hd hsafe) hf hobj hm hr he]
  case summary =>
    rintro s t k op u rfl hd hs hr hf hqp hkind
    rw [exec_dispatched (c := .placementReport t k) rfl hd, effectOf,
      placementReport_summary (gate_none hs hr) hf hqp hkind]
  case log =>
    rintro s t k op u rfl hd hs hr hf hqp hkind
    rw [exec_dispatched (c := .placementReport t k) rfl hd, effectOf,
      placementReport_log (gate_none hs hr) hf hqp hkind]

/-! ### The end of a test (R331, R335) -/

theorem exec_bistBlockDone (t failedStep peak unreadable : Nat) (s : State) : exec (.bistBlockDone t failedStep peak unreadable) s =
    .next (background (blockDone failedStep peak unreadable (advance t s))) := rfl

section
variable {r : Running} {start : BistStart} {peak unreadable : Nat} {s : State}

/-- A tested engine that passed is back at once: unlike a copy, it has nothing to catch up with. -/
theorem blockDone_enginePassed (hrunning : s.mnt.running = some r) (htest : r.test = some start) (hkind : r.req.kind = 1)
    (hcatching : r.catching = false) (hengine : r.req.block < 4) :
    blockDone 0 peak unreadable s = maintDone r.req r.started 0 0 (returnBlock r.req.block 0 s) := by
  have hnotCopy : ¬(r.req.block = 0x20 ∨ r.req.block = 0x21) := by omega
  simp [blockDone, hrunning, htest, hkind, hcatching, hnotCopy]

/-- A tested engine that failed stays out, and its record names no source. -/
theorem blockDone_engineFailed {step : Nat} (hrunning : s.mnt.running = some r) (htest : r.test = some start)
    (hkind : r.req.kind = 1) (hcatching : r.catching = false) (hengine : r.req.block < 4) (hstep : step ≠ 0) :
    blockDone step peak unreadable s = maintDone r.req r.started 1 step (queueWrite 4
      (.bist s.jrn.session (bistPayload 1 2 1 [] [step] 0 unreadable start ((s.clk.now - start.at_) / 1024) peak 0))
      (keepOut r.req.block s)) := by
  have hnotSource : ¬0x30 ≤ r.req.block := by omega
  simp [blockDone, hrunning, htest, hkind, hcatching, hstep, hnotSource]

end

/-! ### The draws of CAP_MEASURE (R142) -/

theorem exec_capMeasureDrawEnd (t fall step : Nat) (s : State) :
    exec (.capMeasureDrawEnd t fall step) s = .next (background (drawEnd fall step (advance t s))) := rfl

theorem exec_capMeasureGapEnd (t : Nat) (s : State) : exec (.capMeasureGapEnd t) s = .next (gapEnd (advance t s)) := rfl

section
variable {r : Running} {s : State}

theorem drawEnd_drawing {fall step : Nat} (hrunning : s.mnt.running = some r) (hkind : r.req.kind = 4)
    (hdrawing : r.drawing = true) :
    drawEnd fall step s = { s with
      pmu := { s.pmu with drawing := false }
      mnt := { s.mnt with running := some { r with
        draws := r.draws + 1, drawing := false, falls := r.falls + fall, steps := r.steps + step } } } := by
  simp [drawEnd, hrunning, hkind, hdrawing]

theorem gapEnd_between (hrunning : s.mnt.running = some r) (hkind : r.req.kind = 4) (hdrawing : r.drawing = false)
    (hfirst : 1 ≤ r.draws) (hlast : r.draws < 4) :
    gapEnd s = { s with
      mnt := { s.mnt with running := some { r with drawing := true } }, pmu := { s.pmu with drawing := true } } := by
  simp only [gapEnd, hrunning]
  exact if_pos ⟨hkind, hdrawing, hfirst, hlast⟩

end

/-! ### COMPACT (R117, R119) -/

theorem exec_compactSlice (t : Nat) (reads : List SlotRead) (s : State) :
    exec (.compactSlice t reads) s = .next (background (compactSlice reads (advance t s))) := rfl

/-- A slice that does not yield takes the source of its copy; forced it empties it at rank 2. -/
theorem compactSlice_takes {r : Running} {copyB : Bool} {x : Sector} {reads seen : List SlotRead} {s : State}
    (hrunning : runningCompact s = some (r, copyB)) (hbusy : copyBusy s copyB = false) (hover : compactOver s copyB = false)
    (hturn : r.req.forced = true ∨ writesWait s = false) (hx : compactSource s copyB = some x)
    (hseen : seen = reads.filter (fun y => y.bank == x.bank && y.sector == x.idx)) :
    compactSlice reads s = startEmptying ⟨x.bank, x.idx, false, if r.req.forced then 2 else 6, none, none⟩
      (loseUnreadable seen false (countCorrected seen s)) := by
  have hgoes : ¬(r.req.forced = false ∧ writesWait s = true) := by
    rintro ⟨hunforced, hwait⟩
    rcases hturn with h | h
    · simp [h] at hunforced
    · simp [h] at hwait
  simp only [compactSlice, hrunning, hbusy, hover, hx, ← hseen, Bool.false_eq_true, if_false, if_neg hgoes]

/-! ### REFRESH_SCAN (R117, R122, R335) -/

theorem exec_refreshScanSector (t bank idx weak : Nat) (reads : List SlotRead) (s : State) :
    exec (.refreshScanSector t bank idx weak reads) s = .next (background (scanSector bank idx weak reads (advance t s))) := rfl

theorem countCorrected_nil (s : State) : countCorrected [] s = s := rfl

/-- A read that shows nothing unreadable loses no record. -/
theorem loseUnreadable_nil (both : Bool) (s : State) : loseUnreadable [] both s = s := by
  have hkept : s.jrn.insts.filter (fun i => !isUnreadable [] i) = s.jrn.insts := List.filter_eq_self.mpr fun _ _ => rfl
  have hlost : s.jrn.insts.filter (isUnreadable []) = [] := List.filter_eq_nil_iff.mpr fun _ _ h => nomatch h
  simp [loseUnreadable, hkept, hlost]

/-! A scan whose turn it is: its next sector stands in a bank at rest, and no write of ranks 1 to 5 waits. -/

section
variable {bank idx weak : Nat} {r : Running} {x : Sector} {s v : State}
variable (hrunning : s.mnt.running = some r) (hkind : r.req.kind = 3) (hx : findSector s bank idx = some x)
  (hhead : (scanLeft 4 0 r.left s).head? = some (bank, idx)) (hidle : bankIdle s bank = true) (hwait : writesWait s = false)
include hrunning hkind hx hhead hidle hwait

/-- Nothing asks for the sector's refresh: its count of corrections begins anew. -/
theorem scanSector_healthy (haction : refreshAction s x weak = none)
    (hv : v = modSector bank idx (fun y => { y with weak := weak, corrected := 0 })
      { s with jrn := { s.jrn with weakMax := max s.jrn.weakMax weak } }) :
    scanSector bank idx weak [] s =
      endScan { v with mnt := { v.mnt with running := some { r with left := scanLeft bank idx r.left v } } } := by
  subst hv
  simp [scanSector, hrunning, hkind, hx, hhead, hidle, hwait, haction, countCorrected_nil, loseUnreadable_nil]

/-- There is a reason for the sector's refresh: it begins to be emptied. -/
theorem scanSector_refreshes {reason : Nat} (haction : refreshAction s x weak = some reason)
    (hv : v = modSector bank idx (fun y => { y with weak := weak })
      { s with jrn := { s.jrn with weakMax := max s.jrn.weakMax weak } }) :
    scanSector bank idx weak [] s =
      endScan (startEmptying ⟨bank, idx, decide (reason = 3), 6, some (weak, x.corrected, reason), none⟩
        { v with mnt := { v.mnt with running := some { r with left := scanLeft bank idx r.left v } } }) := by
  subst hv
  simp [scanSector, hrunning, hkind, hx, hhead, hidle, hwait, haction, countCorrected_nil, loseUnreadable_nil]

end

/-- A sector that compaction has emptied is erased. -/
theorem tendOne_erases {e : Emptying} {s : State} (hempty : isEmptied s e.bank e.sector = true) (hrefresh : e.refresh = none)
    (hretire : e.retire = false) :
    tendOne s e = startErase e.bank e.sector { s with jrn := { s.jrn with
      emptying := s.jrn.emptying.filter fun x => !(x.bank == e.bank && x.sector == e.sector) } } := by
  simp [tendOne, hempty, finishEmptying, hrefresh, hretire]

theorem endScan_over {r : Running} {s : State} (hrunning : s.mnt.running = some r) (hkind : r.req.kind = 3)
    (hleft : scanLeft 4 0 r.left s = []) (hrefresh : (s.jrn.emptying.any fun e => e.refresh.isSome) = false) :
    endScan s = maintDone r.req r.started 0 r.value s := by
  simp only [endScan, hrunning]
  exact if_pos ⟨hkind, hleft, hrefresh⟩

/-- Settles O29: both ends of an engine's test, the draws and gaps of CAP_MEASURE, a slice of COMPACT, both ends of a sector's scan,
the erase of an emptied sector, and the end of the scan. Which sector a slice takes is notes/assumptions/52.md. -/
theorem maintenanceStepsFollow : Obligations.MaintenanceStepsFollow := by
  refine ⟨?passed, ?failed, ?draw, ?gap, ?slice, ?healthy, ?refreshes, ?erases, ?ended⟩
  case passed =>
    rintro s t peak unreadable r start u rfl hrunning htest hkind hcatching hengine
    rw [exec_bistBlockDone, blockDone_enginePassed hrunning htest hkind hcatching hengine]
  case failed =>
    rintro s t step peak unreadable r start u rfl hrunning htest hkind hcatching hengine hstep
    rw [exec_bistBlockDone, blockDone_engineFailed hrunning htest hkind hcatching hengine hstep]
  case draw =>
    rintro s t fall step r u rfl hrunning hkind hdrawing
    rw [exec_capMeasureDrawEnd, drawEnd_drawing hrunning hkind hdrawing]
  case gap =>
    rintro s t r u rfl hrunning hkind hdrawing hfirst hlast
    rw [exec_capMeasureGapEnd, gapEnd_between hrunning hkind hdrawing hfirst hlast]
  case slice =>
    rintro s t reads r copyB x u seen rfl hrunning hbusy hover hturn hx hseen
    rw [exec_compactSlice, compactSlice_takes hrunning hbusy hover hturn hx hseen]
  case healthy =>
    rintro s t bank idx weak r x u v rfl hrunning hx hkind hhead hidle hwait haction hv
    rw [exec_refreshScanSector, scanSector_healthy hrunning hkind hx hhead hidle hwait haction hv]
  case refreshes =>
    rintro s t bank idx weak reason r x u v rfl hrunning hx hkind hhead hidle hwait haction hv
    rw [exec_refreshScanSector, scanSector_refreshes hrunning hkind hx hhead hidle hwait haction hv]
  case erases =>
    intro e u hempty hrefresh hretire
    rw [tendOne_erases hempty hrefresh hretire, startErase]
  case ended =>
    intro r u hrunning hkind hleft hrefresh
    exact endScan_over hrunning hkind hleft hrefresh

end Sys2Proof.Machine
end
